-- ==== Sys2Proof/Word.lean ====
section
/-! DEFINITION. The word types of X86S (R10, R11): registers and linear addresses are 64 bits, memory is bytes. -/

namespace Sys2Proof

/-- One byte of memory (R90). -/
abbrev Byte := BitVec 8

/-- A 16-bit value: a selector, a port number (R10, R90). -/
abbrev Half := BitVec 16

/-- A 32-bit value. -/
abbrev DWord := BitVec 32

/-- A 64-bit value: a general register, RIP, a linear address (R10). -/
abbrev Word := BitVec 64

end Sys2Proof
end

