-- ==== Sys2Proof/Machine/Bits.lean ====
section
/-! DEFINITION. Bit fields and byte order (R11, R93). -/

namespace Sys2Proof.Machine

/-- The number whose bytes are `bs`, least significant first (R93). -/
def leNat : List Byte → Nat
  | [] => 0
  | b :: bs => b.toNat + 256 * leNat bs

/-- The first eight bytes as a 64-bit value, zero-extended when there are fewer. -/
def leWord (bs : List Byte) : Word := BitVec.ofNat 64 (leNat bs)

/-- The low `n` bytes of `v`, least significant first (R93). -/
def leBytes : Nat → Word → List Byte
  | 0, _ => []
  | n + 1, v => v.setWidth 8 :: leBytes n (v >>> 8)

/-- Bit `i` of a 64-bit value (R11). -/
def bit (v : Word) (i : Nat) : Bool := v.getLsbD i

/-- `v` with bit `i` set to `b`. -/
def setBit (v : Word) (i : Nat) (b : Bool) : Word :=
  if b then v ||| ((1 : Word) <<< i) else v &&& ~~~((1 : Word) <<< i)

/-- `v` with the bits of `mask` taken from `w`. -/
def mergeBits (v mask w : Word) : Word := (v &&& ~~~mask) ||| (w &&& mask)

/-- Bits 31:0, zero-extended. -/
def low32 (v : Word) : Word := v &&& 0xFFFFFFFF

/-- Bits 15:0, zero-extended. -/
def low16 (v : Word) : Word := v &&& 0xFFFF

/-- A selector zero-extended (R104). -/
def zsel (sel : Half) : Word := sel.setWidth 64

/-- `IsCanonical_la57` (R13, R91): bits 63:47 all equal, or bits 63:56 with five levels. -/
def isCanonical (la57 : Bool) (a : Word) : Bool :=
  if la57 then (a >>> 56 == 0) || (a >>> 56 == 0xFF)
  else (a >>> 47 == 0) || (a >>> 47 == 0x1FFFF)

end Sys2Proof.Machine
end

