-- ==== Sys2Proof/Config.lean ====
section
/-! DEFINITION. The implementation parameters of R9, as plain data that State holds and no step changes
(every statement about all states then holds for every value of them), and the free values of the model. -/

namespace Sys2Proof

/-- The parameters of X86S (R9) and the constants of the units that R7 leaves to the baseline. No step writes
them. The values State.reset takes are `Config.default` (entry 1, DESIGN CHOICE). -/
structure Config where
  /-- MAXPA, 13 to 52 (R9, D9). -/
  maxPA : Nat
  /-- LA57_SUPPORTED (R9, D10). -/
  la57Supported : Bool
  /-- RESET_RDX (R9, D7). -/
  resetRdx : DWord
  /-- BIST_PASSED (R9, D8). -/
  bistPassed : Bool
  /-- What RAX holds after reset when BIST failed (R22: unspecified). -/
  bistFailRax : Word
  /-- IS_BSP: IA32_APIC_BASE.BSP of this processor (R9). -/
  isBsp : Bool
  /-- CR4_RESERVED: the reserved bits of CR4 other than those of rules R33 and D10 (R34). -/
  cr4Reserved : Word
  /-- SIGNATURE_LEN_CONST in bytes (R9, R396). -/
  signatureLen : Nat
  /-- Byte offset of the module's scratch area, SCRATCH, in ACRAM (R396). -/
  acmScratch : Nat
  /-- MASK_CONST (R396, I34). -/
  maskConst : Word
  /-- CR4_MASK_CONST of EXITAC (R398, I36). -/
  cr4MaskConst : Word
  /-- CR4_RESERVED_BIT_MASK of the RLP wake-up (R399, I36). -/
  cr4ReservedBitMask : Word
  /-- ACRAM_CAPACITY in bytes (R9). -/
  acramCapacity : Nat
  /-- ACM_MIN_SIZE in bytes (R9). -/
  acmMinSize : Nat
  /-- The ACM header version this processor supports (R392, R396). -/
  acmHeaderVersion : DWord
  /-- GETSEC[PARAMETERS] parameter type 5, bit 6, MCA_Handling (R395). -/
  mcaHandling : Bool
  /-- The GETSEC leaves this processor supports (R390). -/
  getsecLeaves : List Nat
  /-- Byte offsets of the six slots of the SMX state save area, in the order RIP, RSP, CR4, CR3,
  FRED_CONFIG, FRED_STKLVLS (R397, D41). -/
  ssaOffsets : List Nat
  /-- The reserved bits of IA32_FRED_CONFIG (I37). -/
  fredConfigReserved : Word
  /-- X2APIC_MAP: the MSR indices of the local APIC that RDMSR may read (R458, D23). -/
  x2apicReadable : List Nat
  /-- X2APIC_MAP: the MSR indices of the local APIC that WRMSR may write (R458, D23). -/
  x2apicWritable : List Nat
  /-- The x2APIC ID of this processor, 32 bits (R458). -/
  apicId : DWord
  /-- BootImage (R9, R471, R484, D31): bytes of physical memory at reset, by address. -/
  bootImage : List (Nat × Byte)
  /-- The lowest physical-address bit of a memory-encryption key identifier; MAXPA or above where the processor has none
  (R124). -/
  keyIdLow : Nat
  /-- The first key identifier that is a TDX private key (R124). -/
  tdxFirstKey : Nat
  /-- VMENTRY_FIXED_CR_CHECK: true fails VM entry, false forces the fixed value (R369). -/
  vmentryFixedCrFail : Bool
  /-- IA32_ARCH_CAPABILITIES but for bit 21 (R56). -/
  archCapabilities : Word
  /-- IA32_MTRRCAP but for bit 8 (R57). -/
  mtrrCap : Word
  /-- The VMX capability MSRs but for the bits of Table 16 (R62): EXIT_CTLS, TRUE_EXIT_CTLS, ENTRY_CTLS,
  TRUE_ENTRY_CTLS, PROCBASED_CTLS2, MISC, CR0_FIXED0, CR0_FIXED1, CR4_FIXED0, CR4_FIXED1. -/
  vmxExitCtls : Word
  vmxTrueExitCtls : Word
  vmxEntryCtls : Word
  vmxTrueEntryCtls : Word
  vmxProcbasedCtls2 : Word
  vmxMisc : Word
  vmxCr0Fixed0 : Word
  vmxCr0Fixed1 : Word
  vmxCr4Fixed0 : Word
  vmxCr4Fixed1 : Word
deriving DecidableEq, Repr

/-- DESIGN CHOICE (entry 1): the parameter values of State.reset. R9 leaves every one of them open. -/
def Config.default : Config where
  maxPA := 46
  la57Supported := true
  resetRdx := 0x00000600
  bistPassed := true
  bistFailRax := 0
  isBsp := true
  signatureLen := 0x180
  acmScratch := 0x800
  cr4Reserved := 0xFFFFFFFEFF088000
  maskConst := 0xFFFFFFFFFFFFFFFF
  cr4MaskConst := 0xFFFFFFFEFF088002
  cr4ReservedBitMask := 0xFFFFFFFEFF088002
  acramCapacity := 0x40000
  acmMinSize := 0x400
  acmHeaderVersion := 0x000A0000
  mcaHandling := true
  getsecLeaves := [0, 2, 3, 4, 5, 6, 7, 8]
  ssaOffsets := [0, 8, 16, 24, 32, 40]
  fredConfigReserved := 0x0000000000000834
  x2apicReadable :=
    [0x802, 0x803, 0x808, 0x80A, 0x80D, 0x80F] ++
    [0x810, 0x811, 0x812, 0x813, 0x814, 0x815, 0x816, 0x817] ++
    [0x818, 0x819, 0x81A, 0x81B, 0x81C, 0x81D, 0x81E, 0x81F] ++
    [0x820, 0x821, 0x822, 0x823, 0x824, 0x825, 0x826, 0x827] ++
    [0x828, 0x82F, 0x830, 0x832, 0x833, 0x834, 0x835, 0x836, 0x837, 0x838, 0x839, 0x83E]
  x2apicWritable :=
    [0x808, 0x80B, 0x80F, 0x828, 0x82F, 0x830, 0x832, 0x833, 0x834, 0x835, 0x836, 0x837, 0x838, 0x83E, 0x83F]
  apicId := 0
  bootImage := []
  keyIdLow := 46
  tdxFirstKey := 1
  vmentryFixedCrFail := true
  archCapabilities := 0
  mtrrCap := 0x50A
  vmxExitCtls := 0
  vmxTrueExitCtls := 0
  vmxEntryCtls := 0
  vmxTrueEntryCtls := 0
  vmxProcbasedCtls2 := 0
  vmxMisc := 0
  vmxCr0Fixed0 := 0x80000021
  vmxCr0Fixed1 := 0xFFFFFFFF
  vmxCr4Fixed0 := 0x2000
  vmxCr4Fixed1 := 0x0000000100F77FFF

/-- CR4_RESERVED with LA57, where it is not supported (R9, R34, D10). -/
def Config.cr4ReservedBits (c : Config) : Word := c.cr4Reserved ||| (if c.la57Supported then 0 else 0x1000)

/-- What R9 says of the parameters' ranges: 12 < MAXPA <= 52, and CR4_MASK_CONST and CR4_RESERVED_BIT_MASK hold at least every
reserved bit of CR4. -/
def Config.wf (c : Config) : Bool :=
  12 < c.maxPA && c.maxPA ≤ 52 && c.cr4ReservedBits &&& ~~~c.cr4MaskConst == 0 &&
  c.cr4ReservedBits &&& ~~~c.cr4ReservedBitMask == 0

/-! The free values. Each is an opaque constant: no proof can see what it is, so a statement that mentions one
holds whatever it is (entry 8). The first argument is a draw number, so that two uses are unrelated. -/

/-- A free 64-bit value: undefined flags (U7, entry 9), the upper bytes of a PUSH Sreg slot (U6, entry 10), the
TSC and the counters (R60, entry 13), the x2APIC registers (U17, entry 14), GETSEC results (entry 30). -/
opaque Config.freeWord : Nat → Word

/-- Which past value of a page-table entry, or past table, a translation uses (R69, U16, entry 3): draw number, linear address,
physical address of the entry. -/
opaque Config.freeChoice : Nat → Word → Nat → Nat

/-- What a port answers (R94, U18, entry 12): draw number, port, width in bytes. -/
opaque Config.freePort : Nat → Half → Nat → DWord

/-- What CPUID answers (R281, entry 11): draw number, leaf, sub-leaf; EAX, EBX, ECX, EDX from the low end. -/
opaque Config.freeCpuid : Nat → DWord → DWord → BitVec 128

end Sys2Proof
end

