-- ==== Sys2Proof/Machine/Memory.lean ====
section
/-! DEFINITION. Memory as a list of (address, byte) pairs in one canonical form: addresses strictly rising, no entry
equal to what an unlisted address reads as (R90). -/

namespace Sys2Proof.Machine

/-- DESIGN CHOICE (entry 2, unsafe): what a byte nothing has written reads as. R90 and D31 give no contents. -/
def unlistedByte : Byte := 0

/-- The byte at `a`. -/
def Memory.read : List Host.Cell → Nat → Byte
  | [], _ => unlistedByte
  | (k, v) :: t, a => if k = a then v else Memory.read t a

/-- The memory with the byte at `a` set to `v`, canonical when `m` is. -/
def Memory.write : List Host.Cell → Nat → Byte → List Host.Cell
  | [], a, v => if v = unlistedByte then [] else [(a, v)]
  | (k, w) :: t, a, v =>
    if k < a then (k, w) :: Memory.write t a v
    else if k = a then (if v = unlistedByte then t else (a, v) :: t)
    else if v = unlistedByte then (k, w) :: t
    else (a, v) :: (k, w) :: t

/-- The canonical form. -/
def Memory.wf : List Host.Cell → Bool
  | [] => true
  | (k, v) :: t => v != unlistedByte && t.all (fun c => decide (k < c.1)) && Memory.wf t

/-- The memory with each pair of the list written, in order. -/
def Memory.writeAll (m : List Host.Cell) : List (Nat × Byte) → List Host.Cell
  | [] => m
  | (a, v) :: t => Memory.writeAll (Memory.write m a v) t

/-- The memory with the bytes of the list written from address `a` on. -/
def Memory.writeFrom (m : List Host.Cell) : Nat → List Byte → List Host.Cell
  | _, [] => m
  | a, b :: bs => Memory.writeFrom (Memory.write m a b) (a + 1) bs

end Sys2Proof.Machine
end

