-- ==== Sys2Proof/Machine/State.lean ====
section
/-! DEFINITION. The state of one X86S processor as plain data, the reasons a step can stop, and the state after
reset (10_state.md, 70_reset_and_hazards.md; INVENTORY.md, "State", lists every field with its rule). -/

namespace Sys2Proof.Machine

/-! ## Why a step can stop -/

/-- The model's own stops. -/
inductive Fault where
  /-- Raised by `physReadByte` and `physWriteBytes`: a physical access at or beyond 2^MAXPA, an address the
  spec says does not exist (R90). SAFE: the machine's answer there is not given. -/
  | physicalAddressBeyondMaxPA
deriving DecidableEq, Repr

/-- The model's refusals. -/
inductive Refusal where
  /-- Raised by `exec` for an instruction that has no meaning yet. SAFE. -/
  | notModelled (mnemonic : String)
  /-- Raised by `step`: the bytes at RIP are an instruction of the baseline that is no row of the opcode table
  (R18, D1, U13). The argument is the opcode byte. SAFE. -/
  | notInOpcodeTable (opcode : BitVec 8)
  /-- Raised by `deliver`, SYSCALL and SYSENTER: an event is to be delivered with CR4.FRED = 1, and the FRED flow is
  not in the spec (R7, R352, R440). SAFE. -/
  | fredDelivery
  /-- Raised by `step`: an SMI is taken; the SMM entry state is not in the spec (R429, D30). SAFE. -/
  | smmEntry
  /-- Raised by `step`: sequential execution passes the top of the 32-bit space in compatibility mode, or of the 64-bit space
  (R24: "gives no meaning to wrap-around"; D25, U11: "refuse"). SAFE. -/
  | ripWrapAround
  /-- Raised by `step`: a byte of the instruction has been stored to, and no taken branch or serialising instruction has come
  since (R122, D5, U10: "refuses programs that store to bytes they later fetch"). SAFE. -/
  | storedCodeFetched
  /-- Raised by GETSEC[EXITAC] when the saved CR4 has PAE = 0 or PVI = 1 (R398, U5: "a model refuses it"). SAFE. -/
  | exitacFixedBits
deriving DecidableEq, Repr

/-! ## Registers -/

/-- The sixteen general registers (R20). -/
structure Gprs where
  rax : Word
  rcx : Word
  rdx : Word
  rbx : Word
  rsp : Word
  rbp : Word
  rsi : Word
  rdi : Word
  r8  : Word
  r9  : Word
  r10 : Word
  r11 : Word
  r12 : Word
  r13 : Word
  r14 : Word
  r15 : Word
deriving DecidableEq, Repr

/-- CS: selector and the L bit, nothing else (R42). `l = true` is 64-bit mode. -/
structure CsReg where
  sel : Half
  l   : Bool
deriving DecidableEq, Repr

/-- SS: selector, DPL (which is the CPL, R41) and B (stored, without effect, R43). -/
structure SsReg where
  sel : Half
  dpl : BitVec 2
  b   : Bool
deriving DecidableEq, Repr

/-- FS and GS: selector and base (R45). -/
structure BaseReg where
  sel  : Half
  base : Word
deriving DecidableEq, Repr

/-- GDTR and IDTR: base and limit, the limit as VM exit saves it, expanded to 32 bits (R46). -/
structure TableReg where
  base  : Word
  limit : DWord
deriving DecidableEq, Repr

/-- LDTR and TR: selector, base, 32-bit limit; no busy or unusable bit (R47, R48). -/
structure SysReg where
  sel   : Half
  base  : Word
  limit : DWord
deriving DecidableEq, Repr

/-- Floating-point, vector and extended state (R52, R53). MM0 to MM7 are the low 64 bits of `st`, and OPMASK is eight registers
of 64 bits, the family's (entry 7). -/
structure Fpu where
  st     : List (BitVec 80)
  fcw    : BitVec 16
  fsw    : BitVec 16
  ftw    : BitVec 16
  ymm    : List (BitVec 256)
  mxcsr  : DWord
  opmask : List Word
  pkru   : DWord
deriving DecidableEq, Repr

/-- The debug registers (R51). -/
structure DebugRegs where
  dr0 : Word
  dr1 : Word
  dr2 : Word
  dr3 : Word
  dr6 : Word
  dr7 : Word
deriving DecidableEq, Repr

/-- The MSRs of system calls and of swapped bases (R45, R59, R81). -/
structure SyscallMsrs where
  star         : Word
  lstar        : Word
  cstar        : Word
  fmask        : Word
  sysenterCs   : Word
  sysenterEsp  : Word
  sysenterEip  : Word
  kernelGsBase : Word
deriving DecidableEq, Repr

/-- The CET state (R58) and the shadow-stack pointer. -/
structure CetState where
  uCet         : Word
  sCet         : Word
  pl0Ssp       : Word
  pl1Ssp       : Word
  pl2Ssp       : Word
  pl3Ssp       : Word
  intSspTable  : Word
  ssp          : Word
deriving DecidableEq, Repr

/-- The MSRs of platform control and memory typing (R54, R55, R57, R59, R61). -/
structure PlatformMsrs where
  apicBase       : Word
  sipiPtr        : Word
  mtrrDefType    : Word
  mtrrPhysBase   : List Word
  mtrrPhysMask   : List Word
  pat            : Word
  fredConfig     : Word
  fredStkLvls    : Word
  miscEnable     : Word
  debugCtl       : Word
  smmMonitorCtl  : Word
  xss            : Word
  mcgCap         : Word
  mcgStatus      : Word
  mcCtl          : List Word
  mcStatus       : List Word
  mcAddr         : List Word
  mcMisc         : List Word
deriving DecidableEq, Repr

/-- Counters, timers and trace (R60). Which registers the Intel PT MSRs are is PRESUMED, the family's (entry 7): `rtitAddr` are
the starts and ends of four address ranges. -/
structure CounterMsrs where
  tsc            : Word
  tscAux         : Word
  tscAdjust      : Word
  tscDeadline    : Word
  pmc            : List Word
  perfEvtSel     : List Word
  perfGlobalCtrl : Word
  fixedCtr       : List Word
  fixedCtrCtrl   : Word
  rtitOutputBase : Word
  rtitOutputMask : Word
  rtitCtl        : Word
  rtitStatus     : Word
  rtitCr3Match   : Word
  rtitAddr       : List Word
  lbrCtl         : Word
  lbrDepth       : Word
  lbrFrom        : List Word
  lbrTo          : List Word
  lbrInfo        : List Word
deriving DecidableEq, Repr

/-! ## Hidden state -/

/-- The names of TXT-SHUTDOWN error codes (R401). -/
inductive TxtError where
  | unsupportedACM | authenticateFail | badACMFormat | illegalEvent | badJOINFormat
deriving DecidableEq, Repr

/-- The kinds of shutdown (R460, D11). -/
inductive ShutdownKind where
  | plain
  | nonTripleFault
  | unbreakable
  | tripleFault
  | txt (code : TxtError)
deriving DecidableEq, Repr

/-- The activity state of a logical processor (R66). -/
inductive Activity where
  | running
  /-- After HLT (R461; entry 16). -/
  | halted
  | waitForSipi
  | shutdown (kind : ShutdownKind)
  | senterSleep
deriving DecidableEq, Repr

/-- The messages of the SMX flows to the TXT chipset (R396, R398; the last two are the baseline's SEXIT and WAKEUP,
entry 30). -/
inductive TxtMsg where
  | processorHold | openPrivate | openLocality3 | closeLocality3 | lockSMRAM | processorRelease
  | sexit | wakeup
deriving DecidableEq, Repr

/-- What the SMX flows read from the TXT chipset and the platform, and what they send (entry 29). Every field
but `messages` is an input: no instruction writes it. -/
structure TxtPlatform where
  /-- The TXT chipset is present (R395). -/
  present : Bool
  /-- HASH(KEY) equals TXT.PUBLIC.KEY for the module being launched (R396). -/
  keyMatches : Bool
  /-- What DECRYPT answers for the module being launched (R396). -/
  signature : List Byte
  /-- What HASH answers for it (R396). -/
  computedSignature : List Byte
  /-- The IERR pin is asserted (R395). -/
  ierr : Bool
  /-- Every secondary thread has CR0.CD = 0 and waits for SIPI or sleeps in SENTER (R395). -/
  secondaryReady : Bool
  /-- The TXT register LT.MLE.JOIN (R393). -/
  mleJoin : Word
  /-- Bit 0 of the initiating processor's IA32_SMM_MONITOR_CTL (R399). -/
  ilpSmmMonitorCtl0 : Bool
  /-- The messages sent, newest first. -/
  messages : List TxtMsg
deriving DecidableEq, Repr

/-- A value that eight aligned bytes of memory held until a store in era `era` (R69, U16, entry 3). -/
structure PastEntry where
  pa    : Nat
  value : Word
  era   : Nat
deriving DecidableEq, Repr

/-- A table that CR3 named in era `era` for the PCID `pcid`, and from which a translation cache may still hold translations; after
the flush of the PCID that began era `flushed`, only those of global pages (R69, R272, U16, entry 3). -/
structure PastRoot where
  table   : Nat
  pcid    : Nat
  era     : Nat
  flushed : Option Nat
deriving DecidableEq, Repr

/-- The translation caches (R69): what they may hold beside the tables in memory. An era is the time from one write of CR3 to the
next, and `era` the number of the current one. -/
structure Tlb where
  era   : Nat
  past  : List PastEntry
  roots : List PastRoot
deriving DecidableEq, Repr

/-- Flushed: every translation is that of the tables in memory. -/
def Tlb.empty : Tlb where
  era := 0
  past := []
  roots := []

/-- The SMX flags and event masks that persist across instructions (R67, R68). -/
structure SmxFlags where
  acMode     : Bool
  senter     : Bool
  maskSmi    : Bool
  maskInit   : Bool
  maskA20m   : Bool
  maskNmi    : Bool
  maskWakeup : Bool
deriving DecidableEq, Repr

/-- The guest-state area of the VMCS (Table 12, R361, R366, R371). -/
structure VmcsGuest where
  esSel : Half
  csSel : Half
  ssSel : Half
  dsSel : Half
  fsSel : Half
  gsSel : Half
  ldtrSel : Half
  trSel : Half
  esLimit : DWord
  csLimit : DWord
  ssLimit : DWord
  dsLimit : DWord
  fsLimit : DWord
  gsLimit : DWord
  ldtrLimit : DWord
  trLimit : DWord
  gdtrLimit : DWord
  idtrLimit : DWord
  esAr : DWord
  csAr : DWord
  ssAr : DWord
  dsAr : DWord
  fsAr : DWord
  gsAr : DWord
  ldtrAr : DWord
  trAr : DWord
  esBase : Word
  csBase : Word
  ssBase : Word
  dsBase : Word
  fsBase : Word
  gsBase : Word
  ldtrBase : Word
  trBase : Word
  gdtrBase : Word
  idtrBase : Word
  pdpte0 : Word
  pdpte1 : Word
  pdpte2 : Word
  pdpte3 : Word
  activity : DWord
  rflags : Word
  rip : Word
  rsp : Word
  cr0 : Word
  cr3 : Word
  cr4 : Word
deriving DecidableEq, Repr

/-- The host-state area of the VMCS (R372). -/
structure VmcsHost where
  csSel : Half
  ssSel : Half
  dsSel : Half
  esSel : Half
  fsSel : Half
  gsSel : Half
  trSel : Half
  fsBase : Word
  gsBase : Word
  trBase : Word
  gdtrBase : Word
  idtrBase : Word
  cr0 : Word
  cr3 : Word
  cr4 : Word
  rsp : Word
  rip : Word
deriving DecidableEq, Repr

/-- The controls of the VMCS that rules R362 to R374 name (entry 26). -/
structure VmcsControls where
  /-- VM-exit control "host address-space size" (R362). -/
  hostAddressSpaceSize : Bool
  /-- VM-entry control "IA-32e mode guest" (R363). -/
  ia32eGuest : Bool
  /-- Secondary control "unrestricted guest" (R364). -/
  unrestrictedGuest : Bool
  /-- CR0 and CR4 guest/host masks and read shadows (R270, R374). -/
  cr0Mask : Word
  cr0Shadow : Word
  cr4Mask : Word
  cr4Shadow : Word
  /-- Exception bitmap (R374). -/
  exceptionBitmap : DWord
  /-- I/O instructions cause VM exits: all, or with the I/O bitmaps those to the ports whose bit is set; the bitmaps' physical
  addresses, A for ports below 0x8000 (R298, R374; entry 26). -/
  ioExiting : Bool
  useIoBitmaps : Bool
  ioBitmapA : Word
  ioBitmapB : Word
  /-- VM-entry interruption information and error code (R370). -/
  entryIntrInfo : DWord
  entryErrorCode : DWord
  /-- VM-entry instruction length, of an injected software event (R370, entry 26). -/
  entryInstrLen : DWord
  /-- APIC virtualization (R380, entry 26): virtualize APIC accesses, use TPR shadow, APIC-register virtualization, and the
  physical addresses of the APIC-access page and of the virtual-APIC page. -/
  virtualizeApicAccesses : Bool
  useTprShadow : Bool
  apicRegisterVirtualization : Bool
  apicAccessAddr : Word
  virtualApicAddr : Word
  /-- Launch state: true after VMLAUNCH (R377, entry 26). -/
  launched : Bool
deriving DecidableEq, Repr

/-- What a VM exit records (entry 26). -/
structure VmcsExitInfo where
  reason : DWord
  qualification : Word
  intrInfo : DWord
  intrErrorCode : DWord
  instructionError : DWord
deriving DecidableEq, Repr

/-- A VMCS: the fields the spec names (file 44), as a record and not in its memory image (entry 26). -/
structure Vmcs where
  guest : VmcsGuest
  host  : VmcsHost
  ctl   : VmcsControls
  exit  : VmcsExitInfo
deriving DecidableEq, Repr

/-- VMX operation (R67): off, root with the current VMCS if there is one, or non-root under a VMCS. -/
inductive VmxMode where
  | off
  | root (current : Option Vmcs)
  | nonRoot (current : Vmcs)
deriving DecidableEq, Repr

/-- What RSM reloads: named slots in place of the SMRAM save area, whose layout is not given (R353, entry 28). -/
structure SmmSave where
  gpr    : Gprs
  rip    : Word
  rflags : Word
  cr0    : Word
  cr3    : Word
  cr4    : Word
  cs     : CsReg
  ss     : SsReg
  ds     : Half
  es     : Half
  fs     : BaseReg
  gs     : BaseReg
  gdtr   : TableReg
  idtr   : TableReg
  ldtr   : SysReg
  tr     : SysReg
deriving DecidableEq, Repr

/-- External events waiting to be taken (R17, R422, R426, R428, R450, R451, R399, R373; entry 33). `intr` is the vector
the local APIC presents. They are placed here from outside; a step takes at most one. -/
structure Pending where
  reset   : Bool
  machineCheck : Bool
  smi     : Bool
  init    : Bool
  sipi    : Option (BitVec 8)
  wakeup  : Bool
  stm     : Bool
  nmi     : Bool
  intr    : Option (BitVec 8)
deriving DecidableEq, Repr

/-- No event waits. -/
def Pending.none : Pending where
  reset := false
  machineCheck := false
  smi := false
  init := false
  sipi := Option.none
  wakeup := false
  stm := false
  nmi := false
  intr := Option.none

/-- One write to an I/O port: port, width in bytes, value (R301, R304, R484). -/
structure PortWrite where
  port  : Half
  width : Nat
  value : DWord
deriving DecidableEq, Repr

/-- One write to an x2APIC register: MSR index, value (R454, R458). -/
structure ApicWrite where
  index : Nat
  value : Word
deriving DecidableEq, Repr

/-! ## The state -/

/-- The state of one logical processor, its physical memory and its platform. -/
structure State where
  cfg : Config
  gpr : Gprs
  rip : Word
  nextRip : Word
  rflags : Word
  cr0 : Word
  cr2 : Word
  cr3 : Word
  cr4 : Word
  cr8 : Word
  efer : Word
  xcr0 : Word
  cs : CsReg
  ss : SsReg
  ds : Half
  es : Half
  fs : BaseReg
  gs : BaseReg
  gdtr : TableReg
  idtr : TableReg
  ldtr : SysReg
  tr : SysReg
  dbg : DebugRegs
  fpu : Fpu
  sys : SyscallMsrs
  cet : CetState
  plat : PlatformMsrs
  cnt : CounterMsrs
  nmiBlocked : Bool
  movSsBlocked : Bool
  stiBlocked : Bool
  dbPending : Bool
  bpHits : BitVec 4
  activity : Activity
  smx : SmxFlags
  acram : List Host.Cell
  txt : TxtPlatform
  vmx : VmxMode
  inSmm : Bool
  inSeam : Bool
  smmSave : SmmSave
  biosDone : Bool
  pending : Pending
  portWrites : List PortWrite
  apicWrites : List ApicWrite
  tlb : Tlb
  stored : List Nat
  draws : Nat
  mem : List Host.Cell
deriving DecidableEq, Repr

/-! ## Reset -/

/-- All sixteen registers 0. -/
def Gprs.zero : Gprs where
  rax := 0
  rcx := 0
  rdx := 0
  rbx := 0
  rsp := 0
  rbp := 0
  rsi := 0
  rdi := 0
  r8 := 0
  r9 := 0
  r10 := 0
  r11 := 0
  r12 := 0
  r13 := 0
  r14 := 0
  r15 := 0

/-- R22: the general registers after reset. -/
def Gprs.reset (c : Config) : Gprs :=
  { Gprs.zero with
    rax := if c.bistPassed then 0 else c.bistFailRax
    rdx := c.resetRdx.setWidth 64 }

/-- R52, R53, R80: the extended state after reset. -/
def Fpu.reset : Fpu where
  st := List.replicate 8 0
  fcw := 0x40
  fsw := 0
  ftw := 0x5555
  ymm := List.replicate 16 0
  mxcsr := 0x1F80
  opmask := List.replicate 8 0
  pkru := 0

/-- R51, R80. -/
def DebugRegs.reset : DebugRegs where
  dr0 := 0
  dr1 := 0
  dr2 := 0
  dr3 := 0
  dr6 := 0xFFFF0FF0
  dr7 := 0x400

/-- R80 for STAR, LSTAR and the SYSENTER registers; the others PRESUMED, the family's (entry 7). -/
def SyscallMsrs.reset : SyscallMsrs where
  star := 0
  lstar := 0
  cstar := 0
  fmask := 0
  sysenterCs := 0
  sysenterEsp := 0
  sysenterEip := 0
  kernelGsBase := 0

/-- PRESUMED, the family's (entry 7): R81 lists these as without a reset value. -/
def CetState.reset : CetState where
  uCet := 0
  sCet := 0
  pl0Ssp := 0
  pl1Ssp := 0
  pl2Ssp := 0
  pl3Ssp := 0
  intSspTable := 0
  ssp := 0

/-- R54, R55, R80, R82; the fields R81 lists PRESUMED, the family's (entry 7), and so are the bits of IA32_MTRR_DEF_TYPE other than
bit 11, which R80 calls disabled, its default memory type among them; the machine-check banks, IA32_MCG_CAP and
IA32_MCG_STATUS DESIGN CHOICE (entry 6). -/
def PlatformMsrs.reset (c : Config) : PlatformMsrs where
  apicBase := if c.isBsp then 0xFEE00D00 else 0xFEE00C00
  sipiPtr := 0
  mtrrDefType := 0
  mtrrPhysBase := List.replicate 10 0
  mtrrPhysMask := List.replicate 10 0
  pat := 0x0007040600070406
  fredConfig := 0
  fredStkLvls := 0
  miscEnable := 1
  debugCtl := 0
  smmMonitorCtl := 0
  xss := 0
  mcgCap := 10
  mcgStatus := 0
  mcCtl := List.replicate 10 0
  mcStatus := List.replicate 10 0
  mcAddr := List.replicate 10 0
  mcMisc := List.replicate 10 0

/-- R60, R80; the numbers of counters and LBR entries, and which the Intel PT MSRs are, PRESUMED (entry 7). -/
def CounterMsrs.reset : CounterMsrs where
  tsc := 0
  tscAux := 0
  tscAdjust := 0
  tscDeadline := 0
  pmc := List.replicate 8 0
  perfEvtSel := List.replicate 8 0
  perfGlobalCtrl := 0x7000000FF
  fixedCtr := List.replicate 3 0
  fixedCtrCtrl := 0
  rtitOutputBase := 0
  rtitOutputMask := 0
  rtitCtl := 0
  rtitStatus := 0
  rtitCr3Match := 0
  rtitAddr := List.replicate 8 0
  lbrCtl := 0
  lbrDepth := 0
  lbrFrom := List.replicate 32 0
  lbrTo := List.replicate 32 0
  lbrInfo := List.replicate 32 0

/-- DESIGN CHOICE (entry 6): no SMX flag is set and no event is masked after reset. -/
def SmxFlags.reset : SmxFlags where
  acMode := false
  senter := false
  maskSmi := false
  maskInit := false
  maskA20m := false
  maskNmi := false
  maskWakeup := false

/-- DESIGN CHOICE (entry 29): the platform of State.reset has no TXT chipset. -/
def TxtPlatform.reset : TxtPlatform where
  present := false
  keyMatches := false
  signature := []
  computedSignature := []
  ierr := false
  secondaryReady := true
  mleJoin := 0
  ilpSmmMonitorCtl0 := false
  messages := []

/-- DESIGN CHOICE (entry 28): the SMM save slots hold the reset values of the registers they name. -/
def SmmSave.reset (c : Config) : SmmSave where
  gpr := Gprs.reset c
  rip := 0xFFFFFFF0
  rflags := 2
  cr0 := 0x80000033
  cr3 := 0xFFFFE000
  cr4 := 0x20
  cs := ⟨0, true⟩
  ss := ⟨8, 0, false⟩
  ds := 0
  es := 0
  fs := ⟨0, 0⟩
  gs := ⟨0, 0⟩
  gdtr := ⟨0, 0⟩
  idtr := ⟨0, 0⟩
  ldtr := ⟨0, 0, 0⟩
  tr := ⟨0, 0, 0⟩

/-- The state right after platform reset of a processor with parameters `c` (R80, R470; R455 for an application
processor). Memory holds the parameter BootImage and nothing else (R471, R484, D31; entry 34).
NMI blocking is clear, as R64 and R81 say of the bootstrap processor, after the reset of an application processor too (DESIGN CHOICE,
entry 6). -/
def State.resetOf (c : Config) : State where
  cfg := c
  gpr := Gprs.reset c
  rip := 0xFFFFFFF0
  nextRip := 0xFFFFFFF0
  rflags := 0x2
  cr0 := 0x80000033
  cr2 := 0
  cr3 := 0xFFFFE000
  cr4 := 0x20
  cr8 := 0
  efer := 0xD01
  xcr0 := 1
  cs := ⟨0, true⟩
  ss := ⟨8, 0, false⟩
  ds := 0
  es := 0
  fs := ⟨0, 0⟩
  gs := ⟨0, 0⟩
  gdtr := ⟨0, 0⟩
  idtr := ⟨0, 0⟩
  ldtr := ⟨0, 0, 0⟩
  tr := ⟨0, 0, 0⟩
  dbg := DebugRegs.reset
  fpu := Fpu.reset
  sys := SyscallMsrs.reset
  cet := CetState.reset
  plat := PlatformMsrs.reset c
  cnt := CounterMsrs.reset
  nmiBlocked := false
  movSsBlocked := false
  stiBlocked := false
  dbPending := false
  bpHits := 0
  activity := if c.isBsp then .running else .waitForSipi
  smx := SmxFlags.reset
  acram := []
  txt := TxtPlatform.reset
  vmx := .off
  inSmm := false
  inSeam := false
  smmSave := SmmSave.reset c
  biosDone := false
  pending := Pending.none
  portWrites := []
  apicWrites := []
  tlb := Tlb.empty
  stored := []
  draws := 0
  mem := Memory.writeAll [] c.bootImage

/-- The machine right after reset: the bootstrap processor with the parameters of entry 1 (R470). -/
def State.reset : State := State.resetOf Config.default

end Sys2Proof.Machine
end

