-- ==== Sys2Proof/Machine/Result.lean ====
section
/-! DEFINITION. Exceptions, and how the parts of a meaning end before its end. -/

namespace Sys2Proof.Machine

/-- An exception to deliver (R413, R424): vector, error code where the vector has one, and for a page fault the
address that goes into CR2 (R31). -/
structure Exc where
  vector : BitVec 8
  err    : Option DWord := none
  cr2    : Option Word := none
deriving DecidableEq, Repr

/-- Why a meaning ends early: an exception, one of the model's own stops, or a VM exit with its reason and
qualification (R374). -/
inductive Stop where
  | exc (e : Exc)
  | fault (f : Fault)
  | refuse (r : Refusal)
  | vmExit (reason : DWord) (qualification : Word)
deriving DecidableEq, Repr

abbrev Res (α : Type) := Except Stop α

/-- #UD: no error code (R416). -/
def excUd : Exc := { vector := 6 }

/-- #GP with an error code (R415). -/
def excGp (code : DWord) : Exc := { vector := 13, err := some code }

/-- #TS (R417). -/
def excTs (code : DWord) : Exc := { vector := 10, err := some code }

/-- #AC(0) (R97). -/
def excAc : Exc := { vector := 17, err := some 0 }

/-- #PF: CR2 and the error code (R418). -/
def excPf (la : Word) (code : DWord) : Exc := { vector := 14, err := some code, cr2 := some la }

/-- The error code of `#GP(sel)`: `sel & 0xFFFC` (R424). -/
def selCode (sel : Half) : DWord := (sel &&& 0xFFFC).setWidth 32

/-- Vectors 8, 10 to 14, 17, 21 push an error code (R413). -/
def hasErrorCode (vector : BitVec 8) : Bool :=
  [8, 10, 11, 12, 13, 14, 17, 21].contains vector.toNat

def raise {α : Type} (e : Exc) : Res α := .error (.exc e)
def raiseUd {α : Type} : Res α := raise excUd
def raiseGp0 {α : Type} : Res α := raise (excGp 0)
def raiseGpSel {α : Type} (sel : Half) : Res α := raise (excGp (selCode sel))

/-- Raise `e` when `b` holds. -/
def raiseIf (b : Bool) (e : Exc) : Res Unit := if b then raise e else .ok ()

end Sys2Proof.Machine
end

