-- ==== Sys2Proof/Machine/Setters.lean ====
section
/-! DEFINITION. One named update per field of State that a step writes; Laws/State.lean gives the value of every
field after each of them. -/

namespace Sys2Proof.Machine

/-- The state with `gpr` set to `v`. -/
def State.setGpr (s : State) (v : Gprs) : State := { s with gpr := v }

/-- The state with `rip` set to `v`. -/
def State.setRip (s : State) (v : Word) : State := { s with rip := v }

/-- The state with `nextRip` set to `v`. -/
def State.setNextRip (s : State) (v : Word) : State := { s with nextRip := v }

/-- The state with `rflags` set to `v`. -/
def State.setRflags (s : State) (v : Word) : State := { s with rflags := v }

/-- The state with `cr0` set to `v`. -/
def State.setCr0 (s : State) (v : Word) : State := { s with cr0 := v }

/-- The state with `cr2` set to `v`. -/
def State.setCr2 (s : State) (v : Word) : State := { s with cr2 := v }

/-- The state with `cr3` set to `v`. -/
def State.setCr3 (s : State) (v : Word) : State := { s with cr3 := v }

/-- The state with `cr4` set to `v`. -/
def State.setCr4 (s : State) (v : Word) : State := { s with cr4 := v }

/-- The state with `cr8` set to `v`. -/
def State.setCr8 (s : State) (v : Word) : State := { s with cr8 := v }

/-- The state with `cs` set to `v`. -/
def State.setCs (s : State) (v : CsReg) : State := { s with cs := v }

/-- The state with `ss` set to `v`. -/
def State.setSs (s : State) (v : SsReg) : State := { s with ss := v }

/-- The state with `ds` set to `v`. -/
def State.setDs (s : State) (v : Half) : State := { s with ds := v }

/-- The state with `es` set to `v`. -/
def State.setEs (s : State) (v : Half) : State := { s with es := v }

/-- The state with `fs` set to `v`. -/
def State.setFs (s : State) (v : BaseReg) : State := { s with fs := v }

/-- The state with `gs` set to `v`. -/
def State.setGs (s : State) (v : BaseReg) : State := { s with gs := v }

/-- The state with `gdtr` set to `v`. -/
def State.setGdtr (s : State) (v : TableReg) : State := { s with gdtr := v }

/-- The state with `idtr` set to `v`. -/
def State.setIdtr (s : State) (v : TableReg) : State := { s with idtr := v }

/-- The state with `ldtr` set to `v`. -/
def State.setLdtr (s : State) (v : SysReg) : State := { s with ldtr := v }

/-- The state with `tr` set to `v`. -/
def State.setTr (s : State) (v : SysReg) : State := { s with tr := v }

/-- The state with `dbg` set to `v`. -/
def State.setDbg (s : State) (v : DebugRegs) : State := { s with dbg := v }

/-- The state with `fpu` set to `v`. -/
def State.setFpu (s : State) (v : Fpu) : State := { s with fpu := v }

/-- The state with `sys` set to `v`. -/
def State.setSys (s : State) (v : SyscallMsrs) : State := { s with sys := v }

/-- The state with `cet` set to `v`. -/
def State.setCet (s : State) (v : CetState) : State := { s with cet := v }

/-- The state with `plat` set to `v`. -/
def State.setPlat (s : State) (v : PlatformMsrs) : State := { s with plat := v }

/-- The state with `cnt` set to `v`. -/
def State.setCnt (s : State) (v : CounterMsrs) : State := { s with cnt := v }

/-- The state with `nmiBlocked` set to `v`. -/
def State.setNmiBlocked (s : State) (v : Bool) : State := { s with nmiBlocked := v }

/-- The state with `movSsBlocked` set to `v`. -/
def State.setMovSsBlocked (s : State) (v : Bool) : State := { s with movSsBlocked := v }

/-- The state with `stiBlocked` set to `v`. -/
def State.setStiBlocked (s : State) (v : Bool) : State := { s with stiBlocked := v }

/-- The state with `dbPending` set to `v`. -/
def State.setDbPending (s : State) (v : Bool) : State := { s with dbPending := v }

/-- The state with `bpHits` set to `v`. -/
def State.setBpHits (s : State) (v : BitVec 4) : State := { s with bpHits := v }

/-- The state with `activity` set to `v`. -/
def State.setActivity (s : State) (v : Activity) : State := { s with activity := v }

/-- The state with `smx` set to `v`. -/
def State.setSmx (s : State) (v : SmxFlags) : State := { s with smx := v }

/-- The state with `acram` set to `v`. -/
def State.setAcram (s : State) (v : List Host.Cell) : State := { s with acram := v }

/-- The state with `txt` set to `v`. -/
def State.setTxt (s : State) (v : TxtPlatform) : State := { s with txt := v }

/-- The state with `vmx` set to `v`. -/
def State.setVmx (s : State) (v : VmxMode) : State := { s with vmx := v }

/-- The state with `inSmm` set to `v`. -/
def State.setInSmm (s : State) (v : Bool) : State := { s with inSmm := v }

/-- The state with `pending` set to `v`. -/
def State.setPending (s : State) (v : Pending) : State := { s with pending := v }

/-- The state with `portWrites` set to `v`. -/
def State.setPortWrites (s : State) (v : List PortWrite) : State := { s with portWrites := v }

/-- The state with `apicWrites` set to `v`. -/
def State.setApicWrites (s : State) (v : List ApicWrite) : State := { s with apicWrites := v }

/-- The state with `tlb` set to `v`. -/
def State.setTlb (s : State) (v : Tlb) : State := { s with tlb := v }

/-- The state with `stored` set to `v`. -/
def State.setStored (s : State) (v : List Nat) : State := { s with stored := v }

/-- The state with `draws` set to `v`. -/
def State.setDraws (s : State) (v : Nat) : State := { s with draws := v }

/-- The state with `mem` set to `v`. -/
def State.setMem (s : State) (v : List Host.Cell) : State := { s with mem := v }

end Sys2Proof.Machine
end

