-- ==== Sys2Proof/Syntax.lean ====
section
/-! DEFINITION. The instructions of spec/opcode_table.json, one constructor a row, and their operands
(R131 to R137, R139). A meaning never sees an encoded byte: register numbers, prefixes and the ModRM operand are
read once, by the decoder. -/

namespace Sys2Proof

/-- The sixteen general registers, in the order of their encoding numbers (R20). -/
inductive Reg where
  | rax | rcx | rdx | rbx | rsp | rbp | rsi | rdi
  | r8 | r9 | r10 | r11 | r12 | r13 | r14 | r15
deriving DecidableEq, Repr

/-- The six segment registers, in the order of their encoding numbers (R214). -/
inductive Sreg where
  | es | cs | ss | ds | fs | gs
deriving DecidableEq, Repr

/-- A segment override that changes an address: only FS and GS have a base (R131, R49). The overrides
CS, SS, DS and ES have no effect on an address and are `none`. -/
inductive SegOv where
  | none | fs | gs
deriving DecidableEq, Repr

/-- The prefixes a meaning looks at (R131, R132): `osz` is 0x66, `asz` is 0x67, `w` is REX.W. -/
structure Pfx where
  osz : Bool := false
  asz : Bool := false
  seg : SegOv := .none
  w   : Bool := false
deriving DecidableEq, Repr

/-- The displacement of a memory operand, with the width it is encoded in (R130). -/
inductive Disp where
  | none
  | d8  (v : BitVec 8)
  | d16 (v : BitVec 16)
  | d32 (v : BitVec 32)
deriving DecidableEq, Repr

/-- A memory operand (R133): base register, index register times 2^scale, displacement; `rip` is the
RIP-relative form of 64-bit mode. The 16-bit forms (R189) use BX, BP as base and SI, DI as index. -/
structure Mem where
  base  : Option Reg := Option.none
  index : Option Reg := Option.none
  scale : BitVec 2 := 0
  disp  : Disp := .none
  rip   : Bool := false
deriving DecidableEq, Repr

/-- The r/m operand (R133): a register when `mod = 3`, else memory. -/
inductive RM where
  | reg (r : Reg)
  | mem (m : Mem)
deriving DecidableEq, Repr

/-- The instructions, in the order of spec/opcode_table.json. Fields: `p` prefixes, `cc` condition code
(R191), `rel` branch displacement, `imm` immediate, `sr` the ModRM.reg number of a segment register. -/
inductive Instr where
  | jccRel8 (p : Pfx) (cc : BitVec 4) (rel : BitVec 8)
  | jccRel32 (p : Pfx) (cc : BitVec 4) (rel : BitVec 32)
  | loopneRel8 (p : Pfx) (rel : BitVec 8)
  | loopeRel8 (p : Pfx) (rel : BitVec 8)
  | loopRel8 (p : Pfx) (rel : BitVec 8)
  | jecxzRel8 (p : Pfx) (rel : BitVec 8)
  | jrcxzRel8 (p : Pfx) (rel : BitVec 8)
  | jmpRel8 (p : Pfx) (rel : BitVec 8)
  | jmpRel32 (p : Pfx) (rel : BitVec 32)
  | callRel32 (p : Pfx) (rel : BitVec 32)
  | jmpRM (p : Pfx) (rm : RM)
  | callRM (p : Pfx) (rm : RM)
  | ret (p : Pfx)
  | retImm16 (p : Pfx) (imm : BitVec 16)
  | lea (p : Pfx) (r : Reg) (m : Mem)
  | nop
  | nopRM (p : Pfx) (rm : RM)
  | callPtr (p : Pfx) (off : BitVec 32) (sel : BitVec 16)
  | callFarM (p : Pfx) (m : Mem)
  | jmpPtr (p : Pfx) (off : BitVec 32) (sel : BitVec 16)
  | jmpFarM (p : Pfx) (m : Mem)
  | retFar (p : Pfx)
  | retFarImm16 (p : Pfx) (imm : BitVec 16)
  | iret (p : Pfx)
  | intImm8 (imm : BitVec 8)
  | int3
  | into
  | int1
  | syscall
  | sysenter
  | sysret (p : Pfx)
  | sysexit (p : Pfx)
  | eretu
  | erets
  | rsm
  | movSregRM (p : Pfx) (sr : BitVec 3) (rm : RM)
  | popEs (p : Pfx)
  | popSs (p : Pfx)
  | popDs (p : Pfx)
  | popFs (p : Pfx)
  | popGs (p : Pfx)
  | lds (p : Pfx) (r : Reg) (m : Mem)
  | les (p : Pfx) (r : Reg) (m : Mem)
  | lss (p : Pfx) (r : Reg) (m : Mem)
  | lfs (p : Pfx) (r : Reg) (m : Mem)
  | lgs (p : Pfx) (r : Reg) (m : Mem)
  | lkgs (p : Pfx) (rm : RM)
  | movRMSreg (p : Pfx) (sr : BitVec 3) (rm : RM)
  | pushEs (p : Pfx)
  | pushCs (p : Pfx)
  | pushSs (p : Pfx)
  | pushDs (p : Pfx)
  | pushFs (p : Pfx)
  | pushGs (p : Pfx)
  | sgdt (p : Pfx) (m : Mem)
  | sidt (p : Pfx) (m : Mem)
  | lgdt (p : Pfx) (m : Mem)
  | lidt (p : Pfx) (m : Mem)
  | sldt (p : Pfx) (rm : RM)
  | str (p : Pfx) (rm : RM)
  | lldt (p : Pfx) (rm : RM)
  | ltr (p : Pfx) (rm : RM)
  | verr (p : Pfx) (rm : RM)
  | verw (p : Pfx) (rm : RM)
  | lar (p : Pfx) (r : Reg) (rm : RM)
  | lsl (p : Pfx) (r : Reg) (rm : RM)
  | arpl (p : Pfx) (rm : RM) (r : Reg)
  | swapgs
  | rdfsbase (p : Pfx) (r : Reg)
  | rdgsbase (p : Pfx) (r : Reg)
  | wrfsbase (p : Pfx) (r : Reg)
  | wrgsbase (p : Pfx) (r : Reg)
  | movRCr (crn : BitVec 4) (r : Reg)
  | movCr0R (r : Reg)
  | movCr2R (r : Reg)
  | movCr3R (r : Reg)
  | movCr4R (r : Reg)
  | movCr8R (r : Reg)
  | lmsw (p : Pfx) (rm : RM)
  | rdmsr
  | wrmsr
  | cpuid
  | popf (p : Pfx)
  | popf16 (p : Pfx)
  | pushf (p : Pfx)
  | cli
  | sti
  | inAlImm (imm : BitVec 8)
  | inEaxImm (p : Pfx) (imm : BitVec 8)
  | outImmAl (imm : BitVec 8)
  | outImmEax (p : Pfx) (imm : BitVec 8)
  | inAlDx
  | inEaxDx (p : Pfx)
  | outDxAl
  | outDxEax (p : Pfx)
  | insb
  | insd
  | outsb
  | outsd
  | vmlaunch
  | vmresume
  | seamret
  | getsec
deriving DecidableEq, Repr

end Sys2Proof
end

