-- ==== Sys2Proof/Machine/Registers.lean ====
section
/-! DEFINITION. General registers by name (R20, R21), the mode (R410) and the named bits of the control registers
(R30 to R34). -/

namespace Sys2Proof.Machine

def Gprs.get (g : Gprs) : Reg → Word
  | .rax => g.rax | .rcx => g.rcx | .rdx => g.rdx | .rbx => g.rbx
  | .rsp => g.rsp | .rbp => g.rbp | .rsi => g.rsi | .rdi => g.rdi
  | .r8 => g.r8 | .r9 => g.r9 | .r10 => g.r10 | .r11 => g.r11
  | .r12 => g.r12 | .r13 => g.r13 | .r14 => g.r14 | .r15 => g.r15

def Gprs.set (g : Gprs) (r : Reg) (v : Word) : Gprs :=
  match r with
  | .rax => { g with rax := v } | .rcx => { g with rcx := v }
  | .rdx => { g with rdx := v } | .rbx => { g with rbx := v }
  | .rsp => { g with rsp := v } | .rbp => { g with rbp := v }
  | .rsi => { g with rsi := v } | .rdi => { g with rdi := v }
  | .r8 => { g with r8 := v } | .r9 => { g with r9 := v }
  | .r10 => { g with r10 := v } | .r11 => { g with r11 := v }
  | .r12 => { g with r12 := v } | .r13 => { g with r13 := v }
  | .r14 => { g with r14 := v } | .r15 => { g with r15 := v }

/-- `x[i]` (R12). -/
def State.reg (s : State) (r : Reg) : Word := s.gpr.get r

/-- `x[i] <- v` (R12). -/
def State.setReg (s : State) (r : Reg) (v : Word) : State := s.setGpr (s.gpr.set r v)

/-- The operand sizes: 2, 4 and 8 bytes (R135). -/
inductive OpSize where
  | w16 | w32 | w64
deriving DecidableEq, Repr

def OpSize.bytes : OpSize → Nat
  | .w16 => 2
  | .w32 => 4
  | .w64 => 8

/-- The low bits of `v` that the size has. -/
def OpSize.trunc : OpSize → Word → Word
  | .w16, v => low16 v
  | .w32, v => low32 v
  | .w64, v => v

/-- A write of a 16-bit name keeps bits 63:16, of a 32-bit name clears bits 63:32 (R12, R21). -/
def State.setRegSz (s : State) (sz : OpSize) (r : Reg) (v : Word) : State :=
  match sz with
  | .w16 => s.setReg r (mergeBits (s.reg r) 0xFFFF v)
  | .w32 => s.setReg r (low32 v)
  | .w64 => s.setReg r v

/-- A write of AL keeps bits 63:8 (R21). -/
def State.setAl (s : State) (v : Word) : State := s.setReg .rax (mergeBits (s.reg .rax) 0xFF v)

/-- CPL is always SS.DPL (R41). -/
def State.cpl (s : State) : BitVec 2 := s.ss.dpl

def State.cpl0 (s : State) : Bool := s.ss.dpl == 0
def State.cpl3 (s : State) : Bool := s.ss.dpl == 3

/-- CS.L = 1 (R42). -/
def State.mode64 (s : State) : Bool := s.cs.l

/-- CS.L = 0 (R13). -/
def State.compat (s : State) : Bool := !s.cs.l

/-! RFLAGS bits (R26). -/

def State.cf (s : State) : Bool := bit s.rflags 0
def State.pf (s : State) : Bool := bit s.rflags 2
def State.zf (s : State) : Bool := bit s.rflags 6
def State.sf (s : State) : Bool := bit s.rflags 7
def State.tf (s : State) : Bool := bit s.rflags 8
def State.ifl (s : State) : Bool := bit s.rflags 9
def State.of (s : State) : Bool := bit s.rflags 11
def State.nt (s : State) : Bool := bit s.rflags 14
def State.ac (s : State) : Bool := bit s.rflags 18

/-! CR0 and CR4 bits (R30, R34; positions the family's where R34 gives none, entry 7). -/

def State.ts (s : State) : Bool := bit s.cr0 3
def State.wp (s : State) : Bool := bit s.cr0 16
def State.am (s : State) : Bool := bit s.cr0 18
def State.de (s : State) : Bool := bit s.cr4 3
def State.mce (s : State) : Bool := bit s.cr4 6
def State.pge (s : State) : Bool := bit s.cr4 7
def State.osfxsr (s : State) : Bool := bit s.cr4 9
def State.umip (s : State) : Bool := bit s.cr4 11
def State.la57 (s : State) : Bool := bit s.cr4 12
def State.smxe (s : State) : Bool := bit s.cr4 14
def State.fsgsbase (s : State) : Bool := bit s.cr4 16
def State.osxsave (s : State) : Bool := bit s.cr4 18
def State.pcide (s : State) : Bool := bit s.cr4 17
def State.smep (s : State) : Bool := bit s.cr4 20
def State.smap (s : State) : Bool := bit s.cr4 21
def State.pke (s : State) : Bool := bit s.cr4 22
def State.cetOn (s : State) : Bool := bit s.cr4 23
def State.fred (s : State) : Bool := bit s.cr4 32

/-- `IsCanonical` under the current CR4.LA57 (R13). -/
def State.canonical (s : State) (a : Word) : Bool := isCanonical s.la57 a

/-- In VMX non-root operation, "guest mode" (R67). -/
def State.nonRoot (s : State) : Bool := match s.vmx with
  | .nonRoot _ => true
  | _ => false

/-- The next free 64-bit value (entry 8), and the state that has used it. -/
def State.drawWord (s : State) : Word × State := (Config.freeWord s.draws, s.setDraws (s.draws + 1))

end Sys2Proof.Machine
end

