-- ==== Sys2Proof/Machine/Paging.lean ====
section
/-! DEFINITION. Physical memory (R90, R124), the translation caches (R69, R123, U16), the page walk (R114, R418; the walk
itself is PRESUMED, the family's, entry 3) and accesses at linear addresses (R13, R97, R100, R105). -/

namespace Sys2Proof.Machine

/-! ## Physical memory -/

/-- The physical addresses that ACRAM answers: only in authenticated-code mode (R70, R90, R112). -/
def State.inAcram (s : State) (pa : Nat) : Bool :=
  s.smx.acMode && decide (0xFEB00000 ≤ pa) && decide (pa < 0xFEB00000 + s.cfg.acramCapacity)

/-- The byte at a physical address: the model's read of one byte. -/
def State.byteAt (s : State) (pa : Nat) : Byte :=
  if s.inAcram pa then Memory.read s.acram pa else Memory.read s.mem pa

/-- The state with the byte at a physical address written. -/
def State.setByteAt (s : State) (pa : Nat) (v : Byte) : State :=
  if s.inAcram pa then s.setAcram (Memory.write s.acram pa v) else s.setMem (Memory.write s.mem pa v)

/-- Physical addresses have MAXPA bits (R90). -/
def State.checkPa (s : State) (pa : Nat) : Res Unit :=
  if pa < 2 ^ s.cfg.maxPA then .ok () else .error (.fault .physicalAddressBeyondMaxPA)

def State.physReadByte (s : State) (pa : Nat) : Res Byte := do
  s.checkPa pa
  return s.byteAt pa

/-- `PhysRead(pa, n)` as bytes (R13, R124). -/
def State.physRead (s : State) (pa : Nat) : Nat → Res (List Byte)
  | 0 => .ok []
  | n + 1 => do
    let b ← s.physReadByte pa
    let bs ← State.physRead s (pa + 1) n
    return b :: bs

/-- `PhysRead(pa, 8)`. -/
def State.physRead8 (s : State) (pa : Nat) : Res Word := do
  let bs ← s.physRead pa 8
  return leWord bs

/-! ## The translation caches (R69, R123, R479, U16; entry 3) -/

/-- The eight bytes from `pa` on, read whatever MAXPA. -/
def State.quadAt (s : State) (pa : Nat) : Word := leWord ((List.range 8).map (fun k => s.byteAt (pa + k)))

/-- The values that a store to `pas` ends: of the aligned eight bytes around each address. -/
def State.pastEntries (s : State) (pas : List Nat) : List PastEntry :=
  (pas.map (fun pa => pa / 8 * 8)).dedup.map (fun q => { pa := q, value := s.quadAt q, era := s.tlb.era })

/-- The physical base of the top-level table (R32). -/
def State.pageRoot (s : State) : Nat := (s.cr3.toNat % 2 ^ 52) / 2 ^ 12 * 2 ^ 12

/-- The current PCID (R32). -/
def State.pcid (s : State) : Nat := if s.pcide then s.cr3.toNat % 2 ^ 12 else 0

/-- The eras in which cached translations for `pcid` may have been made: those since its last flush for `none`, the current one
among them where it is the current PCID, and else those that a flush closed. -/
def State.erasOf (s : State) (pcid : Nat) (flushed : Option Nat) : List Nat :=
  (if pcid = s.pcid ∧ flushed = none then [s.tlb.era] else []) ++
  (s.tlb.roots.filter (fun r => r.pcid == pcid && r.flushed == flushed)).map (·.era)

/-- From a past table only translations of global pages may be used, unless it belongs to the current PCID and is not flushed. -/
def State.globalOnly (s : State) (r : PastRoot) : Bool := r.flushed.isSome || r.pcid != s.pcid

/-- The era from which on a value is held: that of the store that ended the one before it, the next of the history, newest first. -/
def heldSince : List PastEntry → Nat
  | [] => 0
  | e :: _ => e.era

/-- The past values of an entry, from its history, that a walk can have read in one of `eras`: held in it, with the P bit set; each
with the first such era. -/
def pastValues (eras : List Nat) : List PastEntry → List (Word × Nat)
  | [] => []
  | e :: older => match (eras.filter (fun k => decide (heldSince older ≤ k) && decide (k ≤ e.era))).min? with
    | some k => if bit e.value 0 then (e.value, k) :: pastValues eras older else pastValues eras older
    | none => pastValues eras older

/-- What was stored at `pa` before, newest first. -/
def State.history (s : State) (pa : Nat) : List PastEntry := s.tlb.past.filter (fun e => e.pa == pa)

/-- Element `n` of a list, if it has one. -/
def pick {α : Type} : List α → Nat → Option α
  | [], _ => none
  | x :: _, 0 => some x
  | _ :: t, n + 1 => pick t n

/-- The value that a walk reads in one of `eras` from the entry at `pa`, of which memory holds `now`: that, or a past one, by free
choice (U16); and the first era in which it can have read it. A value that memory has held only since those eras is none of them, and
the walk finds nothing. -/
def State.entryValue (s : State) (eras : List Nat) (la : Word) (pa : Nat) (now : Word) : Word × Nat :=
  match pick (pastValues eras (s.history pa)) (Config.freeChoice s.draws la pa) with
  | some e => e
  | none => match (eras.filter (fun k => k == s.tlb.era || decide (heldSince (s.history pa) ≤ k))).min? with
    | some k => (now, k)
    | none => (0, 0)

/-- The table from which the cached translation of `la` is taken, if one is, by free choice (U16). -/
def State.staleRoot (s : State) (la : Word) : Option PastRoot :=
  pick (s.tlb.roots.filter (fun r => !s.globalOnly r || s.pge)) (Config.freeChoice s.draws la 0)

/-! ## The page walk -/

/-- The kind of a linear access (R100, R418): write or read, with user or supervisor privilege, an instruction
fetch, implicit, to the shadow stack. An implicit access is not subject to SMAP: D15 says so of the reads of the descriptor tables,
the IDT and the TSS; of the pushes of a delivery and the read of the interrupt shadow-stack table it says nothing (DESIGN CHOICE, entry
48). -/
structure Access where
  write : Bool := false
  user : Bool := false
  fetch : Bool := false
  implicit : Bool := false
  ss : Bool := false
deriving DecidableEq, Repr

/-- The #PF error code (R418): P, W/R, U/S, RSVD, I/D, PK, SS. -/
def pfCode (a : Access) (p rsvd pk : Bool) : DWord :=
  (if p then 1 else 0) ||| (if a.write then 2 else 0) ||| (if a.user then 4 else 0) |||
  (if rsvd then 8 else 0) ||| (if a.fetch then 16 else 0) ||| (if pk then 32 else 0) ||| (if a.ss then 64 else 0)

/-- The rights collected from the entries above the leaf; `global` asks for a global page at the leaf, `eras` are those in which the
next entry can have been read, and `group` those between two flushes (R272, entry 3). -/
structure Rights where
  writable : Bool := true
  user : Bool := true
  nx : Bool := false
  global : Bool := false
  eras : List Nat
  group : List Nat
deriving DecidableEq, Repr

def Rights.meet (r : Rights) (e : Word) : Rights where
  writable := r.writable && bit e 1
  user := r.user && bit e 2
  nx := r.nx || bit e 63
  global := r.global
  eras := r.eras
  group := r.group

/-- The rights under an upper entry and the first era in which the walk can have read it: the walk goes on in that era or a later
one. -/
def Rights.under (r : Rights) (e : Word × Nat) : Rights :=
  { r.meet e.1 with eras := r.group.filter (fun k => decide (e.2 ≤ k)) }

/-- The bits of an entry that must be 0 whatever its level: physical-address bits 51:MAXPA. -/
def State.entryReserved (s : State) (e : Word) : Bool :=
  (e.toNat % 2 ^ 52) / 2 ^ s.cfg.maxPA != 0

/-- The rights check at the leaf `e` under the rights `up` of the upper entries. That SMAP lets the pushes of a delivery through, as
it does the reads of D15, is DESIGN CHOICE (entry 48). The second answer is the PK bit of R418, for which the rule gives no condition:
it is set where the protection key forbids the access, also where other rights forbid it too (PRESUMED, the family's, entry 3). -/
def State.leafAllows (s : State) (a : Access) (up : Rights) (e : Word) : Bool × Bool :=
  let r := up.meet e
  let key := (e >>> 59 &&& 0xF).toNat
  let ad := s.fpu.pkru.getLsbD (2 * key)
  let wd := s.fpu.pkru.getLsbD (2 * key + 1)
  let pkBlocks := s.pke && r.user && !a.fetch && (ad || (a.write && wd && (a.user || s.wp)))
  let ssPage := up.writable && !bit e 1 && bit e 6
  let ok :=
    if a.ss then ssPage && (r.user == a.user)
    else if a.fetch then !r.nx && (if a.user then r.user else !(r.user && s.smep))
    else if a.user then r.user && (!a.write || r.writable)
    else !(r.user && s.smap && !a.implicit && !s.ac) && (!a.write || r.writable || !s.wp)
  (ok && !pkBlocks, pkBlocks)

/-- The end of a walk: the leaf `e` maps `size` bytes. -/
def State.leaf (s : State) (a : Access) (la : Word) (up : Rights) (e : Word) (size : Nat) : Res Nat :=
  if (s.leafAllows a up e).1 && (!up.global || bit e 8) then .ok ((e.toNat % 2 ^ 52) / size * size + la.toNat % size)
  else raise (excPf la (pfCode a true false (s.leafAllows a up e).2))

/-- The walk from the table at physical address `table`; the last argument counts the levels below this one (0 at
the last). Answers the physical address of the byte. -/
def State.walk (s : State) (a : Access) (la : Word) (table : Nat) (up : Rights) : Nat → Res Nat
  | 0 => do
    let now ← s.physRead8 (table + 8 * ((la >>> 12).toNat % 512))
    let e := (s.entryValue up.eras la (table + 8 * ((la >>> 12).toNat % 512)) now).1
    if bit e 0 = false then raise (excPf la (pfCode a false false false))
    else if s.entryReserved e then raise (excPf la (pfCode a true true false))
    else s.leaf a la up e (2 ^ 12)
  | n + 1 => do
    let now ← s.physRead8 (table + 8 * ((la >>> (12 + 9 * (n + 1))).toNat % 512))
    let v := s.entryValue up.eras la (table + 8 * ((la >>> (12 + 9 * (n + 1))).toNat % 512)) now
    let e := v.1
    if bit e 0 = false then raise (excPf la (pfCode a false false false))
    else if s.entryReserved e then raise (excPf la (pfCode a true true false))
    else if bit e 7 then
      if decide (1 < n) || (e.toNat % 2 ^ (12 + 9 * (n + 1))) / 2 ^ 13 != 0 then
        raise (excPf la (pfCode a true true false))
      else s.leaf a la up e (2 ^ (12 + 9 * (n + 1)))
    else State.walk s a la ((e.toNat % 2 ^ 52) / 2 ^ 12 * 2 ^ 12) (up.under v) n

/-- A linear address translated by the tables that CR3 names, 4 levels, or 5 with CR4.LA57 (R114), in the current era; what they
held in an earlier one comes with a past table. -/
def State.walkRoot (s : State) (a : Access) (la : Word) : Res Nat :=
  s.walk a la s.pageRoot { eras := [s.tlb.era], group := [s.tlb.era] } (if s.la57 then 4 else 3)

/-- A linear address translated as a cache can have done it: from a past table while CR3 named it, and from there in that era or a
later one until the flush of its PCID (R272, U16, entry 3). -/
def State.walkPast (s : State) (a : Access) (la : Word) (r : PastRoot) : Res Nat :=
  s.walk a la r.table { global := s.globalOnly r, eras := [r.era], group := s.erasOf r.pcid r.flushed } (if s.la57 then 4 else 3)

/-- A linear address translated for an access: by the tables that CR3 names, or by a cached translation that would succeed
(U16). -/
def State.translate (s : State) (a : Access) (la : Word) : Res Nat :=
  match s.staleRoot la with
  | none => s.walkRoot a la
  | some r => match s.walkPast a la r with
    | .ok pa => .ok pa
    | .error _ => s.walkRoot a la

/-! ## The virtual APIC page (R380; PRESUMED, the family's, entry 26) -/

/-- The controls under which accesses to the APIC-access page are virtualized, if they are. -/
def State.apicControls (s : State) : Option VmcsControls := match s.vmx with
  | .nonRoot v => if v.ctl.virtualizeApicAccesses then some v.ctl else none
  | _ => none

/-- The registers that APIC-register virtualization lets a guest read, by their number, offset / 16. -/
def apicRegisters : List Nat :=
  [2, 3, 8, 0xB, 0xD, 0xE, 0xF, 0x10, 0x11, 0x12, 0x13, 0x14, 0x15, 0x16, 0x17, 0x18, 0x19, 0x1A, 0x1B, 0x1C, 0x1D, 0x1E] ++
  [0x1F, 0x20, 0x21, 0x22, 0x23, 0x24, 0x25, 0x26, 0x27, 0x28, 0x2F, 0x30, 0x31, 0x32, 0x33, 0x34, 0x35, 0x36, 0x37, 0x38, 0x3E]

/-- An access at offset `off` of the APIC-access page that goes to the virtual-APIC page: of the task-priority register with the
TPR shadow, a read of a register with APIC-register virtualization. -/
def apicVirtualized (c : VmcsControls) (a : Access) (off : Nat) : Bool :=
  !a.fetch && decide (off % 16 < 4) &&
  ((c.useTprShadow && decide (off / 16 = 8)) || (c.apicRegisterVirtualization && !a.write && apicRegisters.contains (off / 16)))

/-- The qualification of an APIC-access VM exit: offset and kind of access. -/
def apicQualification (a : Access) (off : Nat) : Word :=
  BitVec.ofNat 64 (off + 4096 * (if a.fetch then 2 else if a.implicit then 3 else if a.write then 1 else 0))

/-- The physical byte that an access to `pa` reaches: on the APIC-access page of a guest the virtual-APIC page, or VM exit 44. -/
def State.apicRedirect (s : State) (a : Access) (pa : Nat) : Res Nat :=
  match s.apicControls with
  | none => .ok pa
  | some c =>
    if pa / 4096 = c.apicAccessAddr.toNat / 4096 then
      if apicVirtualized c a (pa % 4096) then .ok (c.virtualApicAddr.toNat / 4096 * 4096 + pa % 4096)
      else .error (.vmExit 44 (apicQualification a (pa % 4096)))
    else .ok pa

/-! ## Linear accesses -/

/-- One byte's physical address: canonical first, #GP(0) (R91, R105), then the walk. -/
def State.linear (s : State) (a : Access) (la : Word) : Res Nat := do
  raiseIf (!s.canonical la) (excGp 0)
  let t ← s.translate a la
  let pa ← s.apicRedirect a t
  s.checkPa pa
  return pa

/-- The physical addresses of `n` bytes from `la` on, each translated by its own address (entry 5). -/
def State.linears (s : State) (a : Access) (la : Word) : Nat → Res (List Nat)
  | 0 => .ok []
  | n + 1 => do
    let pa ← s.linear a la
    let rest ← State.linears s a (la + 1) n
    return pa :: rest

/-- #AC(0): a misaligned data access at CPL 3 with CR0.AM and RFLAGS.AC (R97, entry 35). -/
def State.alignOk (s : State) (a : Access) (la : Word) (align : Nat) : Bool :=
  !(a.user && s.am && s.ac && la.toNat % align != 0)

/-- The physical addresses that an access of `n` bytes at `la` touches, after every check of the access. -/
def State.accessPas (s : State) (a : Access) (la : Word) (n align : Nat) : Res (List Nat) := do
  raiseIf (!s.canonical la) (excGp 0)
  raiseIf (!s.alignOk a la align) excAc
  s.linears a la n

/-- Read `n` bytes at `la`. -/
def State.readBytes (s : State) (a : Access) (la : Word) (n align : Nat) : Res (List Byte) := do
  let pas ← s.accessPas a la n align
  return pas.map s.byteAt

/-- Each physical byte written in turn. -/
def State.putBytes (s : State) : List Nat → List Byte → State
  | pa :: pas, b :: bs => State.putBytes (s.setByteAt pa b) pas bs
  | _, _ => s

/-- What a store leaves beside memory: the bytes that a fetch may not take yet (R122) and the translations that may be stale
(R69). -/
def State.noteStore (s : State) (pas : List Nat) : State :=
  (s.setStored (pas ++ s.stored)).setTlb { s.tlb with past := s.pastEntries pas ++ s.tlb.past }

/-- THE STORE of an instruction or a delivery at physical addresses. -/
def State.storeAt (s : State) (pas : List Nat) (bs : List Byte) : State := (s.noteStore pas).putBytes pas bs

/-- Write bytes at `la`; nothing is written unless every byte can be (entry 5). -/
def State.writeBytes (s : State) (a : Access) (la : Word) (bs : List Byte) (align : Nat) : Res State := do
  let pas ← s.accessPas { a with write := true } la bs.length align
  return s.storeAt pas bs

/-- The access of an explicit operand: the privilege of CPL (R13). -/
def State.dataAccess (s : State) : Access := { user := s.cpl3 }

/-- `MemRead(la, n)` (R13). -/
def State.memRead (s : State) (la : Word) (n : Nat) : Res Word := do
  let bs ← s.readBytes s.dataAccess la n n
  return leWord bs

/-- `MemWrite(la, n, v)` (R13). -/
def State.memWrite (s : State) (la : Word) (n : Nat) (v : Word) : Res State :=
  s.writeBytes s.dataAccess la (leBytes n v) n

/-- `SupRead(la, n)`: supervisor privilege whatever the CPL (R13, R100). -/
def State.supReadBytes (s : State) (la : Word) (n : Nat) : Res (List Byte) :=
  s.readBytes { implicit := true } la n 1

def State.supRead (s : State) (la : Word) (n : Nat) : Res Word := do
  let bs ← s.supReadBytes la n
  return leWord bs

/-- `SupWrite(la, n, v)` (R13, R100); not subject to SMAP (DESIGN CHOICE, entry 48). -/
def State.supWrite (s : State) (la : Word) (n : Nat) (v : Word) : Res State :=
  s.writeBytes { implicit := true } la (leBytes n v) 1

end Sys2Proof.Machine
end

