-- ==== Sys2Proof/Machine/Operands.lean ====
section
/-! DEFINITION. Operand and address sizes (R135, R136), effective addresses (R92, R133, R189), and operands read
and written (R137). -/

namespace Sys2Proof.Machine

/-! ## Sizes -/

/-- R135, ordinary instructions and far transfers: 32 bits, 16 with 0x66, 64 with REX.W. -/
def State.opSize (s : State) (p : Pfx) : OpSize :=
  if s.mode64 && p.w then .w64 else if p.osz then .w16 else .w32

/-- R135, near branches: 64 in 64-bit mode whatever the prefix; 32 in compatibility mode, 16 with 0x66. -/
def State.nearSize (s : State) (p : Pfx) : OpSize :=
  if s.mode64 then .w64 else if p.osz then .w16 else .w32

/-- R135, PUSH, POP, PUSHF, POPF: 64 in 64-bit mode, 32 in compatibility mode, 16 with 0x66 (REX.W wins). -/
def State.stackSize (s : State) (p : Pfx) : OpSize :=
  if s.mode64 then (if p.osz && !p.w then .w16 else .w64) else if p.osz then .w16 else .w32

/-- R172: compatibility mode with 0x67. -/
def State.addrSize16 (s : State) (p : Pfx) : Bool := s.compat && p.asz

/-- The low bits of an effective address that the address size has (R136, R92, R189). -/
def State.truncAddr (s : State) (p : Pfx) (a : Word) : Word :=
  if s.mode64 then (if p.asz then low32 a else a) else if p.asz then low16 a else low32 a

/-! ## Effective addresses -/

/-- A displacement sign-extended (R133). -/
def Disp.value : Disp → Word
  | .none => 0
  | .d8 v => v.signExtend 64
  | .d16 v => v.signExtend 64
  | .d32 v => v.signExtend 64

def State.optReg (s : State) : Option Reg → Word
  | none => 0
  | some r => s.reg r

/-- The effective address: base, index times 2^scale, displacement, and the address of the next instruction for
the RIP-relative form, truncated to the address size (R133, R136). -/
def State.effAddr (s : State) (p : Pfx) (m : Mem) : Word :=
  s.truncAddr p (s.optReg m.base + (s.optReg m.index <<< m.scale.toNat) + Disp.value m.disp +
    (if m.rip then s.nextRip else 0))

/-- The base that a segment override adds (R45, R49). -/
def State.segBase (s : State) : SegOv → Word
  | .none => 0
  | .fs => s.fs.base
  | .gs => s.gs.base

/-- The linear address of byte 0 of a memory operand: the base is added after the truncation (R49). -/
def State.linAddr (s : State) (p : Pfx) (m : Mem) : Word := s.segBase p.seg + s.effAddr p m

/-- The linear address of a memory operand that is referenced: #GP(0) with 16-bit addressing, before every other
memory-related exception (R174, R176). -/
def State.memOperand (s : State) (p : Pfx) (m : Mem) : Res Word :=
  if s.addrSize16 p then raiseGp0 else .ok (s.linAddr p m)

/-! ## Operands -/

/-- An r/m operand of `sz` bytes read. -/
def State.readRM (s : State) (p : Pfx) (sz : OpSize) : RM → Res Word
  | .reg r => .ok (sz.trunc (s.reg r))
  | .mem m => do
    let la ← s.memOperand p m
    s.memRead la sz.bytes

/-- An r/m16 operand: the low 16 bits of a register, or 2 bytes of memory (R137). -/
def State.readRM16 (s : State) (p : Pfx) (rm : RM) : Res Half := do
  let v ← s.readRM p .w16 rm
  return v.setWidth 16

/-- A 16-bit value stored: zero-extended to the operand size in a register, 2 bytes in memory (R218, R225). -/
def State.writeRMSel (s : State) (p : Pfx) (rm : RM) (v : Half) : Res State :=
  match rm with
  | .reg r => .ok (s.setRegSz (s.opSize p) r (zsel v))
  | .mem m => do
    let la ← s.memOperand p m
    s.memWrite la 2 (zsel v)

/-- A far pointer in memory: the offset, then the selector at the next higher address (R108). -/
def State.readFarPtr (s : State) (p : Pfx) (m : Mem) (sz : OpSize) : Res (Word × Half) := do
  let la ← s.memOperand p m
  let off ← s.memRead la sz.bytes
  let sel ← s.memRead (la + BitVec.ofNat 64 sz.bytes) 2
  return (off, sel.setWidth 16)

end Sys2Proof.Machine
end

