-- ==== Sys2Proof/Machine/Descriptors.lean ====
section
/-! DEFINITION. Selectors, descriptors and the check functions of 41_segment_loads.md (R101 to R103, R201 to R213). -/

namespace Sys2Proof.Machine

/-! ## Selectors (R101) -/

def selRpl (sel : Half) : BitVec 2 := sel.setWidth 2
def selTi (sel : Half) : Bool := sel.getLsbD 2
def selOffset (sel : Half) : Word := zsel (sel &&& 0xFFF8)

/-- `IsNull` (R201, D16). -/
def isNull (sel : Half) : Bool := sel &&& 0xFFFC == 0

/-- A selector with its RPL replaced. -/
def withRpl (sel : Half) (rpl : BitVec 2) : Half := (sel &&& 0xFFFC) ||| rpl.setWidth 16

/-! ## Code and data descriptors (R102) -/

def descCode (d : Word) : Bool := bit d 43
def descS (d : Word) : Bool := bit d 44
def descDpl (d : Word) : BitVec 2 := d.extractLsb' 45 2
def descP (d : Word) : Bool := bit d 47
def descL (d : Word) : Bool := bit d 53
def descDB (d : Word) : Bool := bit d 54
def descG (d : Word) : Bool := bit d 55
def descType (d : Word) : BitVec 4 := d.extractLsb' 40 4

/-- BASE 31:0, zero-extended (R212). -/
def descBase32 (d : Word) : Word := ((d >>> 16) &&& 0xFFFFFF) ||| ((d >>> 56) <<< 24)

/-- LIMIT 19:0. -/
def descLimit (d : Word) : DWord := (((d >>> 32) &&& 0xF0000) ||| (d &&& 0xFFFF)).setWidth 32

/-- `expand` (R103, R224). -/
def expandLimit (limit : DWord) (g : Bool) : DWord := if g then (limit <<< 12) ||| 0xFFF else limit

/-! ## Tables -/

/-- The base of the table a selector names (R203). -/
def State.tableBase (s : State) (sel : Half) : Word := if selTi sel then s.ldtr.base else s.gdtr.base

/-- The limit of the table a selector names (R202). -/
def State.tableLimit (s : State) (sel : Half) : DWord := if selTi sel then s.ldtr.limit else s.gdtr.limit

/-- The limit and canonical tests of `Check_selector` (R202): true when they pass. -/
def State.selectorInTable (s : State) (sel : Half) : Bool :=
  decide ((selOffset sel).toNat + 7 ≤ (s.tableLimit sel).toNat) && s.canonical (s.tableBase sel + selOffset sel)

/-- `Check_selector` for CS (R202): NULL raises #GP(0). -/
def State.checkSelectorCs (s : State) (sel : Half) : Res Unit :=
  if isNull sel then raiseGp0
  else if s.selectorInTable sel then .ok () else raiseGpSel sel

/-- `Check_selector` for the other registers (R202): NULL makes no table access (D16). -/
def State.checkSelector (s : State) (sel : Half) : Res Unit :=
  if isNull sel then .ok ()
  else if s.selectorInTable sel then .ok () else raiseGpSel sel

/-- `Load_descriptor_from_GDT_LDT` (R203): selectors 0 to 7 give the all-zero descriptor. -/
def State.loadDescriptor (s : State) (sel : Half) : Res Word :=
  if sel &&& 0xFFF8 = 0 then .ok 0 else s.supRead (s.tableBase sel + selOffset sel) 8

/-- The 16-byte descriptor of an LDT or TSS, low and high half (R103, D33). -/
def State.loadSysDescriptor (s : State) (sel : Half) : Res (Word × Word) := do
  let bs ← s.supReadBytes (s.gdtr.base + selOffset sel) 16
  return (leWord (bs.take 8), leWord (bs.drop 8))

/-- BASE 63:0 of a 16-byte descriptor (R103). -/
def sysBase (lo hi : Word) : Word := descBase32 lo ||| (hi <<< 32)

/-! ## Check functions -/

/-- The conditions that `Check_CS_desc` and `Check_CS_desc_for_IRET` share (R204, R205): code type, not 16-bit,
DPL 0 or 3, RPL = DPL, no 32-bit ring 0, present. -/
def csDescCommon (sel : Half) (d : Word) : Bool :=
  descS d && descCode d && (descL d != descDB d) && (descDpl d == 0 || descDpl d == 3) &&
  (selRpl sel == descDpl d) && !(!descL d && descDpl d == 0) && descP d

/-- `Check_CS_desc`, not via a gate (R204). -/
def csDescOk (sel : Half) (d : Word) (newCpl : BitVec 2) : Bool := csDescCommon sel d && descDpl d == newCpl

/-- `Check_CS_desc`, via a gate with newCPL = 0 (R204, R432). -/
def csDescOkGate (sel : Half) (d : Word) : Bool := csDescCommon sel d && !(descDpl d > 0)

/-- `Check_CS_desc_for_IRET` (R205). -/
def csDescOkIret (sel : Half) (d : Word) (newCpl : BitVec 2) : Bool := csDescCommon sel d && descDpl d == newCpl

/-- `Check_Data_desc` (R206). -/
def State.dataDescOk (s : State) (sel : Half) (d : Word) : Bool :=
  isNull sel || (s.selectorInTable sel && !(selRpl sel < s.cpl) && descS d && descP d)

/-- `Check_SS_desc` as printed (R207). -/
def State.ssDescPrinted (s : State) (sel : Half) (d : Word) : Bool :=
  s.selectorInTable sel && !isNull sel && (selRpl sel == descDpl d) && descS d && (descDpl d == s.cpl) && descP d

/-- `Check_SS_desc` with the resolution of C35: a NULL selector at CPL 0 in 64-bit mode passes (R207). -/
def State.ssDescOk (s : State) (sel : Half) (d : Word) : Bool :=
  (isNull sel && s.cpl0 && s.mode64) || s.ssDescPrinted sel d

/-- `Check_SS_desc_for_iret` (R208); `to64` is the L bit of the code segment returned to. -/
def State.ssDescOkIret (s : State) (sel : Half) (d : Word) (newCpl : BitVec 2) (to64 : Bool) : Bool :=
  if isNull sel then !(newCpl == 3 || !to64)
  else s.selectorInTable sel && (selRpl sel == descDpl d) && descS d && (descDpl d == newCpl) && descP d

/-! ## What a load stores (R212, R213) -/

def State.loadCs (s : State) (sel : Half) (d : Word) : State := s.setCs ⟨sel, descL d⟩
def State.loadSs (s : State) (sel : Half) (d : Word) : State := s.setSs ⟨sel, descDpl d, descDB d⟩
def State.loadFs (s : State) (sel : Half) (d : Word) : State := s.setFs ⟨sel, descBase32 d⟩
def State.loadGs (s : State) (sel : Half) (d : Word) : State := s.setGs ⟨sel, descBase32 d⟩

/-- The selector and descriptor of a code segment for a far transfer within the current ring, after all the checks
of R321, R324 and R327. -/
def State.fetchCs (s : State) (sel : Half) : Res Word := do
  s.checkSelectorCs sel
  let d ← s.loadDescriptor sel
  if csDescOk sel d s.cpl then return d else raiseGpSel sel

end Sys2Proof.Machine
end

