-- ==== Sys2Proof/Machine/Flags.lean ====
section
/-! DEFINITION. Every flag computation of the spec: condition codes (R191), the writes of RFLAGS by POPF, IRET,
SYSRET, delivery and the queries (R26 to R28, R290, R291, R334, R346, R436), and the fixed bits of CR0 and CR4. -/

namespace Sys2Proof.Machine

/-- The condition of bits 3:1 of `cc`; bit 0 negates it (R191). -/
def State.condBase (s : State) (n : BitVec 3) : Bool :=
  if n = 0 then s.of
  else if n = 1 then s.cf
  else if n = 2 then s.zf
  else if n = 3 then s.cf || s.zf
  else if n = 4 then s.sf
  else if n = 5 then s.pf
  else if n = 6 then s.sf != s.of
  else s.zf || (s.sf != s.of)

/-- `cond(cc)` (R191). -/
def State.cond (s : State) (cc : BitVec 4) : Bool := s.condBase (cc.extractLsb' 1 3) != cc.getLsbD 0

/-- CF, PF, AF, ZF, SF, TF, DF, OF, NT, AC, ID: bits 0, 2, 4, 6, 7, 8, 10, 11, 14, 18, 21 (R290). -/
def popfMask : Word := 0x244DD5

/-- The same set restricted to bits 15:0 (R291). -/
def popf16Mask : Word := 0x4DD5

/-- The set of R334: that of POPF and RF. -/
def iretMask : Word := 0x254DD5

/-- IF, bit 9. -/
def ifMask : Word := 0x200

/-- `mask`, with IF at CPL 0 (R290, R334). -/
def withIf (cpl0 : Bool) (mask : Word) : Word := if cpl0 then mask ||| ifMask else mask

/-- POPF with 32- or 64-bit operand: the set W from the image, RF cleared (R290). -/
def popfFlags (cpl0 : Bool) (old image : Word) : Word :=
  setBit (mergeBits old (withIf cpl0 popfMask) image) 16 false

/-- POPF with 16-bit operand: bits 31:16 unchanged (R291, D18). -/
def popf16Flags (cpl0 : Bool) (old image : Word) : Word := mergeBits old (withIf cpl0 popf16Mask) image

/-- IRET (R334). -/
def iretFlags (cpl0 : Bool) (old image : Word) : Word := mergeBits old (withIf cpl0 iretMask) image

/-- The image PUSHF pushes: VM and RF as 0 (R292). -/
def pushfImage (rflags : Word) : Word := rflags &&& 0x00FCFFFF

/-- SYSRET (R346). -/
def sysretFlags (r11 : Word) : Word := (r11 &&& 0x3C7FD7) ||| 2

/-- IOPL, VIF or VIP non-zero: bits 13:12, 19, 20 (R27). -/
def ioplVifVip (image : Word) : Bool := image &&& 0x183000 != 0

/-- IOPL, VM, VIF or VIP non-zero (R27, rows ERETU, ERETS, VM entry, SEAMRET). -/
def ioplVmVifVip (image : Word) : Bool := image &&& 0x1A3000 != 0

/-- Every flag that can be 1, and bit 1: what a whole image may hold (R26, R27). -/
def definedFlags : Word := 0x254FD7

/-- An image forced to a legal RFLAGS value: reserved bits and IOPL, VM, VIF, VIP 0, bit 1 set (R26, R27). -/
def legalFlags (image : Word) : Word := (image &&& definedFlags) ||| 2

/-- The epilogue of delivery: IF cleared by an interrupt gate; TF, RF, NT cleared (R436). -/
def handlerFlags (intGate : Bool) (rflags : Word) : Word :=
  rflags &&& (if intGate then ~~~(0x14300 : Word) else ~~~(0x14100 : Word))

/-- ZF written alone (R239, R244). -/
def State.setZf (s : State) (z : Bool) : State := s.setRflags (setBit s.rflags 6 z)

/-- The six status flags CF, PF, AF, ZF, SF, OF. -/
def statusMask : Word := 0x8D5

/-- The status flags after MOV to or from a control register: free (U7, entry 9). -/
def State.freeStatus (s : State) : State :=
  (s.drawWord.2).setRflags (mergeBits s.rflags statusMask s.drawWord.1)

/-! ## CR0 and CR4 -/

/-- TS, WP, AM, CD: the flexible bits of CR0 (R30). -/
def cr0Flexible : Word := 0x40050008

/-- The fixed part of CR0 (R30). -/
def cr0FixedValue : Word := 0x80000033

/-- The only values CR0 holds (R30). -/
def cr0Of (v : Word) : Word := cr0FixedValue ||| (v &&& cr0Flexible)

/-- PE, MP, NE, PG = 1 and EM, NW = 0; ET is not examined (R271). -/
def cr0FixedOk (v : Word) : Bool := v &&& 0xA0000027 == 0x80000023

/-- PAE = 1 and PVI = 0 (R33, R273). -/
def cr4FixedOk (v : Word) : Bool := v &&& 0x22 == 0x20

/-- A value with PAE set and PVI clear. -/
def cr4Of (v : Word) : Word := (v ||| 0x20) &&& ~~~(2 : Word)

/-- A bit of CR4_RESERVED is set, LA57 among them where it is not supported (R34, D10). -/
def State.cr4Reserved (s : State) (v : Word) : Bool := v &&& s.cfg.cr4ReservedBits != 0

/-! The VMX capability MSRs of the fixed bits (R62, R369): PE, MP, NE, PG are 1, EM, NW and PVI are 0. -/

def vmxCr0Fixed0 (c : Config) : Word := c.vmxCr0Fixed0 ||| 0x80000023
def vmxCr0Fixed1 (c : Config) : Word := c.vmxCr0Fixed1 &&& ~~~0x20000004
def vmxCr4Fixed0 (c : Config) : Word := c.vmxCr4Fixed0
def vmxCr4Fixed1 (c : Config) : Word := setBit c.vmxCr4Fixed1 1 false

/-- Every bit that `fixed0` has is 1 and every bit that `fixed1` lacks is 0. -/
def fixedOk (v fixed0 fixed1 : Word) : Bool := v &&& fixed0 == fixed0 && v &&& ~~~fixed1 == 0

/-- The value with the fixed bits forced. -/
def forceFixed (v fixed0 fixed1 : Word) : Word := (v ||| fixed0) &&& fixed1

/-- The reserved bits of CR3: 63:MAXPA (R32). -/
def State.cr3Reserved (s : State) (v : Word) : Bool := decide (2 ^ s.cfg.maxPA ≤ v.toNat)

end Sys2Proof.Machine
end

