-- ==== Sys2Proof/Machine/VmExit.lean ====
section
/-! DEFINITION. VM exit: the guest state saved and the host state loaded (R371, R372, R361). What the spec leaves to
the baseline is entry 26. -/

namespace Sys2Proof.Machine

/-- The CS access rights a VM exit saves: L, D = !L, DPL = SS.DPL, the rest 0 (R361, R371). -/
def State.exitCsAr (s : State) : DWord :=
  (s.ss.dpl.setWidth 32 <<< 5) ||| (if s.cs.l then 0x2000 else 0x4000)

/-- The SS access rights a VM exit saves: DPL and B, the rest 0 (R361, R371). -/
def State.exitSsAr (s : State) : DWord := (s.ss.dpl.setWidth 32 <<< 5) ||| (if s.ss.b then 0x4000 else 0)

/-- The encoding of the activity state: active, HLT, shutdown, wait for SIPI (R365). -/
def activityCode : Activity → DWord
  | .running => 0
  | .halted => 1
  | .shutdown _ => 2
  | .waitForSipi => 3
  | .senterSleep => 3

/-- The guest-state area after a VM exit: ignored fields keep their values (R371, D39). RFLAGS is saved as it is, with RF not set for a
fault (DESIGN CHOICE, entry 26). -/
def State.saveGuest (s : State) (g : VmcsGuest) : VmcsGuest :=
  { g with
    esSel := s.es, csSel := s.cs.sel, ssSel := s.ss.sel, dsSel := s.ds
    fsSel := s.fs.sel, gsSel := s.gs.sel, ldtrSel := s.ldtr.sel, trSel := s.tr.sel
    fsBase := s.fs.base, gsBase := s.gs.base, trBase := s.tr.base, ldtrBase := s.ldtr.base
    gdtrBase := s.gdtr.base, idtrBase := s.idtr.base
    trLimit := s.tr.limit, ldtrLimit := s.ldtr.limit, gdtrLimit := s.gdtr.limit, idtrLimit := s.idtr.limit
    csAr := s.exitCsAr, ssAr := s.exitSsAr, activity := activityCode s.activity
    rflags := s.rflags, rip := s.rip, rsp := s.reg .rsp, cr0 := s.cr0, cr3 := s.cr3, cr4 := s.cr4 }

/-- The segment and table registers a VM exit loads (R372). -/
def State.loadHostSegments (s : State) (h : VmcsHost) : State :=
  { s with
    cs := ⟨h.csSel, true⟩, ss := ⟨h.ssSel, 0, false⟩, ds := h.dsSel, es := h.esSel
    fs := ⟨h.fsSel, h.fsBase⟩, gs := ⟨h.gsSel, h.gsBase⟩
    tr := ⟨h.trSel, h.trBase, 0x67⟩, ldtr := ⟨0, 0, 0⟩
    gdtr := ⟨h.gdtrBase, 0xFFFF⟩, idtr := ⟨h.idtrBase, 0xFFFF⟩ }

/-- The host state loaded: R372 for segments, RFLAGS = 2; CR0 and CR4 hold their fixed bits (R369) and
those of the host area, CR0.CD among them (DESIGN CHOICE, entry 26); CR3, RSP, RIP,
DR7 and IA32_DEBUGCTL as the baseline, and no other MSR; no shadow and no debug trap stays, and the translation caches are flushed (entry 26).
NMI blocking is what it was (DESIGN CHOICE, entry 26). -/
def State.loadHost (s : State) (h : VmcsHost) : State :=
  let s := s.loadHostSegments h
  { s.setReg .rsp h.rsp with
    rip := h.rip, nextRip := h.rip, rflags := 2
    cr0 := cr0Of h.cr0, cr3 := h.cr3, cr4 := cr4Of h.cr4
    dbg := { s.dbg with dr7 := 0x400 }
    plat := { s.plat with debugCtl := 0 }
    activity := .running
    movSsBlocked := false, stiBlocked := false, dbPending := false, bpHits := 0
    tlb := Tlb.empty, stored := [] }

/-- The controls after a VM exit: the valid bit of the injected event is cleared (entry 26). -/
def VmcsControls.afterExit (c : VmcsControls) : VmcsControls :=
  { c with entryIntrInfo := c.entryIntrInfo &&& 0x7FFFFFFF }

/-- A VM exit from non-root operation under `v`: save, record, load, and be in root operation. -/
def State.exitFrom (s : State) (v : Vmcs) (info : VmcsExitInfo) : State :=
  { s.loadHost v.host with
    vmx := .root (some { v with guest := s.saveGuest v.guest, ctl := v.ctl.afterExit, exit := info }) }

/-- A VM exit. In any other mode than non-root operation there is none, and the state is unchanged. -/
def State.vmExit (s : State) (reason : DWord) (qualification : Word) (intrInfo intrErrorCode : DWord) : State :=
  match s.vmx with
  | .nonRoot v =>
    s.exitFrom v { reason := reason, qualification := qualification, intrInfo := intrInfo,
                   intrErrorCode := intrErrorCode, instructionError := v.exit.instructionError }
  | _ => s

end Sys2Proof.Machine
end

