-- ==== Sys2Proof/Machine/Ops.lean ====
section
/-! DEFINITION. The shared operations: the stack (R104, R105), taking an event through the IDT (R420 to R438) as one
operation `deliver`, and the return from one (R330 to R334). -/

namespace Sys2Proof.Machine

/-! ## The stack -/

/-- The stack pointer: RSP, or ESP in compatibility mode (R104, R177). -/
def State.sp (s : State) : Word := if s.mode64 then s.reg .rsp else low32 (s.reg .rsp)

/-- `n` bytes below `sp`, modulo 2^64 or, when not `wide`, 2^32 (R104). -/
def stackDown (wide : Bool) (sp : Word) (n : Nat) : Word :=
  if wide then sp - BitVec.ofNat 64 n else low32 (sp - BitVec.ofNat 64 n)

/-- `n` bytes above the stack pointer (R104). -/
def State.spUp (s : State) (n : Nat) : Word :=
  if s.mode64 then s.sp + BitVec.ofNat 64 n else low32 (s.sp + BitVec.ofNat 64 n)

/-- The physical bytes that `k` pushes of `n` bytes from `sp` down write, in the order of the pushes. All are
translated before any is written (entry 5). -/
def State.pushPas (s : State) (a : Access) (wide : Bool) (sp : Word) (n : Nat) : Nat → Res (List Nat)
  | 0 => .ok []
  | k + 1 => do
    let t := stackDown wide sp n
    let pas ← s.accessPas { a with write := true } t n n
    let rest ← State.pushPas s a wide t n k
    return pas ++ rest

/-- The bytes of the pushed values, in the order of `pushPas`. -/
def pushBytes (n : Nat) : List Word → List Byte
  | [] => []
  | v :: vs => leBytes n v ++ pushBytes n vs

/-- `Push_s` of each value in turn (R104). The stack pointer changes only when every access completes. -/
def State.pushAll (s : State) (sz : OpSize) (vs : List Word) : Res State := do
  let pas ← s.pushPas s.dataAccess s.mode64 s.sp sz.bytes vs.length
  return (s.storeAt pas (pushBytes sz.bytes vs)).setReg .rsp (stackDown s.mode64 s.sp (sz.bytes * vs.length))

/-- `Push_s(v)` (R104). -/
def State.push (s : State) (sz : OpSize) (v : Word) : Res State := s.pushAll sz [v]

/-- The item that the pop number `k` (from 0) would read, the stack pointer unchanged (R104). -/
def State.popAt (s : State) (sz : OpSize) (k : Nat) : Res Word := s.memRead (s.spUp (sz.bytes * k)) sz.bytes

/-- The stack pointer after `k` pops and the release of `n` more bytes (R104, R188). -/
def State.popped (s : State) (sz : OpSize) (k n : Nat) : State := s.setReg .rsp (s.spUp (sz.bytes * k + n))

/-! ## Events -/

/-- The kinds of event that delivery distinguishes (R430, R431). -/
inductive EventKind where
  | softInt | int1 | exception | external | nmi
deriving DecidableEq, Repr

/-- An event to deliver (R430): `ext` is EXT of R425, `rip` the address to save (R421). -/
structure Event where
  vector : BitVec 8
  kind   : EventKind
  ext    : Bool
  err    : Option DWord
  rip    : Word
deriving DecidableEq, Repr

def extBit (e : Event) : DWord := if e.ext then 1 else 0

/-- `error_code(vector, 1, EXT)` (R424). -/
def Event.idtCode (e : Event) : DWord := (e.vector.setWidth 32 <<< 3) ||| 2 ||| extBit e

/-- `error_code(sel, 0, EXT)` (R424, R432). -/
def Event.selExtCode (e : Event) (sel : Half) : DWord := selCode sel ||| extBit e

/-! Gate fields (R106): `lo` holds bytes 0 to 7 of the gate, `hi` bytes 8 to 15. -/

def gateSel (lo : Word) : Half := lo.extractLsb' 16 16
def gateIst (lo : Word) : Nat := (lo.extractLsb' 32 3).toNat
def gateType (lo : Word) : BitVec 4 := lo.extractLsb' 40 4
def gateDpl (lo : Word) : BitVec 2 := lo.extractLsb' 45 2
def gateP (lo : Word) : Bool := bit lo 47
def gateRip (lo hi : Word) : Word := (lo &&& 0xFFFF) ||| ((lo >>> 48) <<< 16) ||| (hi <<< 32)

/-- R431: type 14 or 15 with bit 44 clear. -/
def gateTypeOk (lo : Word) : Bool := (gateType lo == 14 || gateType lo == 15) && !bit lo 44

/-- R430 prologue and R431: the gate of an event, or the #GP the checks raise. -/
def State.fetchGate (s : State) (e : Event) : Res (Word × Word) := do
  raiseIf (decide (s.idtr.limit.toNat < e.vector.toNat * 16 + 15)) (excGp e.idtCode)
  let bs ← s.supReadBytes (s.idtr.base + (e.vector.setWidth 64 <<< 4)) 16
  let lo := leWord (bs.take 8)
  raiseIf (!gateTypeOk lo) (excGp e.idtCode)
  raiseIf (e.kind == .softInt && gateDpl lo < s.cpl) (excGp ((e.vector.setWidth 32 <<< 3) ||| 2))
  raiseIf (!gateP lo) (excGp e.idtCode)
  return (lo, leWord (bs.drop 8))

/-- R432: the checks of the handler's code segment; the DPL that R433 dispatches on is then 0. -/
def State.checkHandlerCs (s : State) (e : Event) (sel : Half) : Res Unit := do
  raiseIf (isNull sel) (excGp (extBit e))
  raiseIf (!s.selectorInTable sel) (excGp (e.selExtCode sel))
  let d ← s.loadDescriptor sel
  raiseIf (!csDescOkGate sel d) (excGp (e.selExtCode sel))

/-- The TSS slot of a stack pointer, #TS beyond the limit (R107, R417, R434). -/
def State.tssStack (s : State) (e : Event) (off : Nat) : Res Word := do
  raiseIf (decide (s.tr.limit.toNat < off + 7)) (excTs (e.selExtCode s.tr.sel))
  s.supRead (s.tr.base + BitVec.ofNat 64 off) 8

/-- The new stack pointer before alignment: from the TSS when the ring changes or the gate names an IST entry,
else RSP (R434, R435). -/
def State.handlerRsp (s : State) (e : Event) (inter : Bool) (ist : Nat) : Res Word :=
  if ist ≠ 0 then s.tssStack e (ist * 8 + 28)
  else if inter then s.tssStack e 4
  else .ok (s.reg .rsp)

/-- `RSP & 0xFFFFFFFFFFFFFFF0` (R434, R435, D12). -/
def align16 (a : Word) : Word := a &&& 0xFFFFFFFFFFFFFFF0

/-- The items of the frame in the order of the pushes (R434, R435, R438); from compatibility mode bits 63:32 of RSP are 0. -/
def State.frameItems (s : State) (e : Event) : List Word :=
  [zsel s.ss.sel, s.sp, s.rflags, zsel s.cs.sel, e.rip] ++
  (match e.err with
   | some code => [code.setWidth 64]
   | none => [])

/-! CET state that delivery reads and writes (R437; bit positions the family's, entry 7). -/

/-- `ShadowStackEnabled(0)`: CR4.CET and IA32_S_CET bit 0. -/
def State.ssEnabled0 (s : State) : Bool := s.cetOn && bit s.cet.sCet 0

/-- `ShadowStackEnabled(3)`: CR4.CET and IA32_U_CET bit 0. -/
def State.ssEnabled3 (s : State) : Bool := s.cetOn && bit s.cet.uCet 0

/-- `EndbranchEnabled(0)`: CR4.CET and IA32_S_CET bit 2. -/
def State.endbrEnabled0 (s : State) : Bool := s.cetOn && bit s.cet.sCet 2

/-- `LA_adjust` of R437, which no rule defines: a linear address made canonical by sign extension from bit 47, or 56 with CR4.LA57
(PRESUMED, the family's, entry 40). -/
def State.laAdjust (s : State) (a : Word) : Word :=
  if s.la57 then (a.setWidth 57).signExtend 64 else (a.setWidth 48).signExtend 64

/-- The read part of the locked compare-exchange of the token: checked as a write of the supervisor shadow stack (R121,
entry 40). -/
def State.tokenRead (s : State) (la : Word) : Res Word := do
  let bs ← s.readBytes { implicit := true, ss := true, write := true } la 8 1
  return leWord bs

/-- A write of the supervisor shadow stack. -/
def State.shadowWrite (s : State) (la : Word) (n : Nat) (v : Word) : Res State :=
  s.writeBytes { implicit := true, ss := true } la (leBytes n v) 1

/-- The token check: `SSP & 7 != 0` or a token that is not free raises #GP(0); else it is marked busy (R437, R121).
BUSY_BIT, which no rule numbers, is bit 0 (PRESUMED, the family's, entry 40). -/
def State.takeToken (s : State) (ssp : Word) : Res State := do
  raiseIf (ssp &&& 7 != 0) (excGp 0)
  let tok ← s.tokenRead ssp
  raiseIf (tok != ssp) (excGp 0)
  s.shadowWrite ssp 8 (ssp ||| 1)

def State.setSsp (s : State) (v : Word) : State := s.setCet { s.cet with ssp := v }

/-- End-branch tracking for ring 0: TRACKER (bit 11) waits, SUPPRESS (bit 10) clears (R437). -/
def State.trackEndbranch (s : State) : State :=
  if s.endbrEnabled0 then s.setCet { s.cet with sCet := setBit (setBit s.cet.sCet 11 true) 10 false } else s

/-- What an inter-privilege delivery writes before the token check; `s` is the state after the switch, `old3` says whether
ring 3 had a shadow stack: its SSP goes to IA32_PL3_SSP, and SSP becomes the new one (R437). -/
def State.cetEnter (s : State) (old3 : Bool) (newSsp : Word) : State :=
  s.setCet { s.cet with
    pl3Ssp := if old3 then s.laAdjust s.cet.ssp else s.cet.pl3Ssp
    ssp := if s.ssEnabled0 then newSsp else s.cet.ssp }

/-- The token check of an inter-privilege delivery at the new SSP (R437). -/
def State.cetInter (s : State) : Res State := if s.ssEnabled0 then s.takeToken s.cet.ssp else .ok s

/-- The shadow stack of an intra-privilege delivery: 4 bytes of 0, then CS, RIP and the old SSP (R437). With IST 0
the SSP is kept and no token is checked, as the baseline does. -/
def State.cetIntra (s : State) (ist : Nat) (oldCs : Half) (oldRip : Word) : Res State :=
  if s.ssEnabled0 then do
    let temp := s.cet.ssp
    let new ← if ist ≠ 0 then s.supRead (s.cet.intSspTable + BitVec.ofNat 64 (ist * 8)) 8 else pure temp
    let s ← if ist ≠ 0 then s.takeToken new else pure s
    let s ← s.shadowWrite (new - 4) 4 0
    let top := new &&& 0xFFFFFFFFFFFFFFF8
    let s ← s.shadowWrite (top - 8) 8 (zsel oldCs)
    let s ← s.shadowWrite (top - 16) 8 oldRip
    let s ← s.shadowWrite (top - 24) 8 temp
    return s.setSsp (top - 24)
  else .ok s

/-- What the checks of delivery yield before anything changes (R430 to R435): the gate, the aligned stack pointer, the
new shadow-stack pointer and the physical bytes of the frame. -/
structure Plan where
  lo     : Word
  hi     : Word
  rsp    : Word
  newSsp : Word
  pas    : List Nat
deriving DecidableEq, Repr

/-- The ring changes: the handler's ring 0 is not the interrupted one (R433). -/
def State.inter (s : State) : Bool := !s.cpl0

/-- Every check of R430 to R435, in order. SMAP does not stop the pushes of the frame (DESIGN CHOICE, entry 48). -/
def State.plan (s : State) (e : Event) : Res Plan := do
  let (lo, hi) ← s.fetchGate e
  s.checkHandlerCs e (gateSel lo)
  let rsp ← s.handlerRsp e s.inter (gateIst lo)
  let newSsp ← if s.inter then
      (if gateIst lo = 0 then pure s.cet.pl0Ssp
       else if s.ssEnabled0 then s.supRead (s.cet.intSspTable + BitVec.ofNat 64 (gateIst lo * 8)) 8
       else pure 0)
    else pure 0
  raiseIf (!s.canonical rsp) (excGp (extBit e))
  raiseIf (!s.canonical (gateRip lo hi)) (excGp (extBit e))
  let pas ← s.pushPas { implicit := true } true (align16 rsp) 8 (s.frameItems e).length
  return { lo := lo, hi := hi, rsp := align16 rsp, newSsp := newSsp, pas := pas }

/-- The stack pointer at handler entry (R438). -/
def State.entryRsp (s : State) (e : Event) (p : Plan) : Word :=
  stackDown true p.rsp (8 * (s.frameItems e).length)

/-- The state after the switch and the pushes of R434 and R435, before the CET steps. -/
def State.switch (s : State) (e : Event) (p : Plan) : State :=
  (((((s.storeAt p.pas (pushBytes 8 (s.frameItems e))).setReg .rsp (s.entryRsp e p)).setSs
    (if s.inter then ⟨0, 0, false⟩ else s.ss)).setCs ⟨gateSel p.lo &&& 0xFFFC, true⟩).setRip
    (gateRip p.lo p.hi)).setNextRip (gateRip p.lo p.hi)

/-- Events that an instruction has completed by causing: INT n, INT3, INTO and INT1. A debug trap that MOV SS held off stays pending
over them and over no other delivery (R475; the rest PRESUMED, entry 23). -/
def Event.completes (e : Event) : Bool := e.kind == .softInt || e.kind == .int1

/-- The epilogue of R436: flags, NMI blocking; the handler runs, also from HLT, a debug trap stays pending over a software interrupt
alone (R475, entry 23), and fetches see every store (R122, entry 4). A shadow in which the event came lasts over the handler's first
instruction (DESIGN CHOICE, entry 24). -/
def State.handlerEntry (s : State) (e : Event) (p : Plan) : State :=
  { s.trackEndbranch with
    rflags := handlerFlags (gateType p.lo == 14) s.rflags
    nmiBlocked := s.nmiBlocked || e.kind == .nmi
    activity := .running
    dbPending := e.completes && s.dbPending, bpHits := if e.completes then s.bpHits else 0, stored := [] }

/-- The state after the switch, the pushes, and what an inter-privilege delivery writes of CET state before the token check
(R434, R435, R437). -/
def State.landed (s : State) (e : Event) (p : Plan) : State :=
  if s.inter then (s.switch e p).cetEnter s.ssEnabled3 p.newSsp else s.switch e p

/-- The CET steps of R437 that can fault. -/
def State.cetSteps (s : State) (e : Event) (p : Plan) : Res State :=
  if s.inter then (s.landed e p).cetInter else (s.landed e p).cetIntra (gateIst p.lo) s.cs.sel e.rip

/-- One delivery. A stop comes with the state it leaves: unchanged for the checks and the pushes, the state after the switch
for the CET steps (R421, R437, entry 40). -/
def State.deliverOnce (s : State) (e : Event) : Except (Stop × State) State :=
  if s.fred then .error (.refuse .fredDelivery, s)
  else match s.plan e with
    | .error x => .error (x, s)
    | .ok p => match s.cetSteps e p with
      | .error x => .error (x, s.landed e p)
      | .ok t => .ok (t.handlerEntry e p)

/-! ## Double fault, triple fault, VM exits of events -/

/-- A contributory exception or #PF (R423). -/
def contributory (vector : BitVec 8) : Bool := [0, 10, 11, 12, 13, 14].contains vector.toNat

/-- CR2 takes the faulting address of a page fault (R31, R418). -/
def State.noteCr2 (s : State) (x : Exc) : State :=
  match x.cr2 with
  | some la => s.setCr2 la
  | none => s

/-- An exception as an event; `ext` as R425 gives it. -/
def Exc.event (x : Exc) (ext : Bool) (rip : Word) : Event :=
  { vector := x.vector, kind := .exception, ext := ext, err := x.err, rip := rip }

def doubleFault : Exc := { vector := 8, err := some 0 }

/-- The interruption type of the VM-exit interruption information (entry 26). -/
def EventKind.infoType : EventKind → DWord
  | .external => 0
  | .nmi => 2
  | .exception => 3
  | .softInt => 6
  | .int1 => 5

/-- The exception bitmap of R374 takes the event: exceptions, and INT3, INTO and INT1 as #BP, #OF and #DB; NMI and
external interrupts by the baseline's own controls, which are not held (entry 26). -/
def State.eventExits (s : State) (e : Event) (bitmapped : Bool) : Bool :=
  match s.vmx with
  | .nonRoot v => bitmapped && decide (e.vector.toNat < 32) && v.ctl.exceptionBitmap.getLsbD e.vector.toNat
  | _ => false

/-- The VM exit of an exception: reason 0, the faulting address of a #PF as qualification, CR2 unchanged. -/
def State.exitOnEvent (s : State) (e : Event) (cr2 : Option Word) : State :=
  s.vmExit 0 (cr2.getD 0)
    (e.vector.setWidth 32 ||| (e.kind.infoType <<< 8) ||| (if e.err.isSome then 0x800 else 0) ||| 0x80000000)
    (e.err.getD 0)

/-- Triple fault: VM exit reason 2 in non-root operation, else shutdown (R423, R460). -/
def State.tripleFault (s : State) : State :=
  if s.nonRoot then s.vmExit 2 0 0 0 else s.setActivity (.shutdown .tripleFault)

/-- The outcome of a stop that is no exception. -/
def stopOutcome (s : State) : Stop → Host.Outcome State Fault Refusal
  | .exc _ => .next s
  | .fault f => .fault f
  | .refuse r => .refused r
  | .vmExit reason q => .next (s.vmExit reason q 0 0)

/-- An exception raised in `s`: in non-root operation it causes a VM exit exactly when its own bit of the exception bitmap is set
(R374), also one raised while another event is delivered, which the exit precedes #DF and the triple fault for (entry 21);
else CR2 takes the address of a page fault (R31) and `go` goes on. -/
def State.orExit (s : State) (x : Exc) (go : State → Host.Outcome State Fault Refusal) : Host.Outcome State Fault Refusal :=
  let e := x.event false s.rip
  if s.eventExits e true then .next (s.exitOnEvent e x.cr2) else go (s.noteCr2 x)

/-- #DF: an exception in its delivery is a triple fault (R423), unless it exits (R374). -/
def State.deliverDf (s : State) : Host.Outcome State Fault Refusal :=
  s.orExit doubleFault fun s =>
    match s.deliverOnce (doubleFault.event true s.rip) with
    | .ok t => .next t
    | .error (.exc x, t) => t.orExit x fun u => .next u.tripleFault
    | .error (x, t) => stopOutcome t x

/-- The delivery of an exception that was raised while another event was delivered and made no exit: one more is #DF (R423, R430,
R374). -/
def State.deliverNested (s : State) (x : Exc) (ext : Bool) : Host.Outcome State Fault Refusal :=
  match s.deliverOnce (x.event ext s.rip) with
  | .ok t => .next t
  | .error (.exc y, t) => t.orExit y State.deliverDf
  | .error (y, t) => stopOutcome t y

/-- TAKING AN EVENT: one delivery; an exception in it makes its own VM exit (R374), or is delivered in turn, as #DF when both are
contributory, as a triple fault when the event was #DF (R423, R430). -/
def State.deliver (s : State) (e : Event) (bitmapped : Bool) : Host.Outcome State Fault Refusal :=
  if s.eventExits e bitmapped then .next (s.exitOnEvent e none)
  else match s.deliverOnce e with
    | .ok t => .next t
    | .error (.exc x, t) => t.orExit x fun u =>
      if e.kind = .exception ∧ e.vector = 8 then .next u.tripleFault
      else if e.kind = .exception ∧ contributory e.vector = true ∧ contributory x.vector = true then u.deliverDf
      else u.deliverNested x (decide (e.kind ≠ .softInt))
    | .error (x, t) => stopOutcome t x

/-- TAKING AN EXCEPTION that an instruction raises: the saved RIP is that of the instruction (R421), EXT is 0 (R425). -/
def State.takeException (s : State) (x : Exc) : Host.Outcome State Fault Refusal :=
  s.orExit x fun t => t.deliver (x.event false s.rip) false

/-- The outcome of a meaning that started in `s`: exceptions are delivered from `s`, which is what makes them precise
(R421). -/
def finish (s : State) : Res State → Host.Outcome State Fault Refusal
  | .ok t => .next t
  | .error (.exc x) => s.takeException x
  | .error (.fault f) => .fault f
  | .error (.refuse r) => .refused r
  | .error (.vmExit reason q) => .next (s.vmExit reason q 0 0)

/-! ## The return from an event (R330 to R334) -/

/-- R330 up to the dispatch: the three items every frame has and the descriptor of the code segment. Table 7's six rows of
IRET: IOPL, VIF and VIP are tested by ring 0 alone, for a return within it (R27, C13, C32). -/
structure IretHead where
  rip   : Word
  cs    : Half
  flags : Word
  d     : Word
deriving DecidableEq, Repr

def State.iretHead (s : State) (sz : OpSize) : Res IretHead := do
  let rip ← s.popAt sz 0
  let csItem ← s.popAt sz 1
  let cs : Half := csItem.setWidth 16
  let image ← s.popAt sz 2
  raiseIf (s.cpl0 && selRpl cs != 3 && ioplVifVip image) (excGp 0)
  s.checkSelectorCs cs
  let d ← s.loadDescriptor cs
  if csDescOkIret cs d (selRpl cs) then return { rip := rip, cs := cs, flags := image, d := d }
  else raiseGpSel cs

/-- The instruction pointer a return loads: truncated for compatibility mode, canonical (R24, R331, R333). -/
def State.returnRip (s : State) (l : Bool) (rip : Word) : Res Word :=
  let rip := if l then rip else low32 rip
  if s.canonical rip then .ok rip else raiseGp0

/-- The SS:RSP part of a frame, items 3 and 4 (R332, R333). -/
def State.iretStack (s : State) (sz : OpSize) (h : IretHead) : Res (Word × SsReg) := do
  let rsp ← s.popAt sz 3
  let ssItem ← s.popAt sz 4
  let ss : Half := ssItem.setWidth 16
  s.checkSelector ss
  let d ← s.loadDescriptor ss
  if s.ssDescOkIret ss d (selRpl h.cs) (descL h.d) then
    return (if descL h.d then rsp else low32 rsp, ⟨ss, descDpl d, descDB d⟩)
  else raiseGpSel ss

/-- The writes common to the three exits: CS, RIP, flags by the CPL at the start, NMI unblocked (R331, R333, R334). -/
def State.iretLoad (s : State) (h : IretHead) (rip : Word) : State :=
  (((s.setCs ⟨h.cs, descL h.d⟩).setRip rip).setRflags (iretFlags s.cpl0 s.rflags h.flags)).setNmiBlocked false

/-- R331, reached from compatibility mode: SS is kept and ESP advances past three items. -/
def State.iretSame (s : State) (sz : OpSize) (h : IretHead) : Res State := do
  let rip ← s.returnRip (descL h.d) h.rip
  return (s.popped sz 3 0).iretLoad h rip

/-- R332 (same ring, 64-bit mode) and R333 (ring 0 to ring 3): the frame holds SS:RSP. -/
def State.iretFull (s : State) (sz : OpSize) (h : IretHead) : Res State := do
  let (rsp, ss) ← s.iretStack sz h
  let rip ← s.returnRip (descL h.d) h.rip
  return ((s.iretLoad h rip).setReg .rsp rsp).setSs ss

/-- THE RETURN FROM AN EVENT: the flow of R330 from the pops on; `sz` is the operand size, 4 or 8 bytes. -/
def State.returnFromEvent (s : State) (sz : OpSize) : Res State := do
  let h ← s.iretHead sz
  if selRpl h.cs > s.cpl then
    if s.fred then raiseGpSel h.cs else s.iretFull sz h
  else if selRpl h.cs < s.cpl then raiseGpSel h.cs
  else if s.mode64 then s.iretFull sz h
  else s.iretSame sz h

end Sys2Proof.Machine
end

