-- ==== Sys2Proof/Machine/NearBranch.lean ====
section
/-! DEFINITION. Near branches, LEA and NOP (40_prefix_and_near_branches.md, R170 to R194). -/

namespace Sys2Proof.Machine

/-! ## Shared parts -/

/-- `NearTarget` (R194): truncated in compatibility mode, canonical in 64-bit mode. -/
def State.nearTarget (s : State) (t : Word) : Res Word :=
  if s.mode64 then (if s.canonical t then .ok t else raiseGp0) else .ok (low32 t)

/-- R173: a near branch with 16-bit operand size. -/
def State.rejectNear16 (s : State) (p : Pfx) : Res Unit := raiseIf (s.nearSize p == .w16) excUd

/-- The instruction ends in the next sequential instruction. -/
def State.toNext (s : State) : State := s.setRip s.nextRip

/-- A relative branch, taken or not. -/
def State.branchRel (s : State) (taken : Bool) (rel : Word) : Res State := do
  if taken then
    let t ← s.nearTarget (s.nextRip + rel)
    return s.setRip t
  else return s.toNext

/-- The width of the count register of LOOP and JECXZ (R180, R181, R192). -/
def State.countSize (s : State) (p : Pfx) : OpSize :=
  if s.mode64 then (if p.asz then .w32 else .w64) else if p.asz then .w16 else .w32

/-- The count register. -/
def State.count (s : State) (p : Pfx) : Word := (s.countSize p).trunc (s.reg .rcx)

/-- The count minus one, in the width of the count register. -/
def State.countLess (s : State) (p : Pfx) : Word := (s.countSize p).trunc (s.count p - 1)

/-- R180: the count is decremented whether or not the branch is taken. -/
def State.loopWhile (s : State) (p : Pfx) (rel : BitVec 8) (c : Bool) : Res State := do
  s.rejectNear16 p
  (s.setRegSz (s.countSize p) .rcx (s.countLess p)).branchRel (s.countLess p != 0 && c) (rel.signExtend 64)

/-- R181. -/
def State.jumpIfZero (s : State) (p : Pfx) (rel : BitVec 8) : Res State := do
  s.rejectNear16 p
  s.branchRel (s.count p == 0) (rel.signExtend 64)

/-- R185, R186: the target of an indirect near branch. -/
def State.nearOperand (s : State) (p : Pfx) (rm : RM) : Res Word := do
  s.rejectNear16 p
  let t ← s.readRM p (s.nearSize p) rm
  s.nearTarget t

/-- R184, R186: the return address pushed, then the branch. -/
def State.callTo (s : State) (p : Pfx) (t : Word) : Res State := do
  let s ← s.push (s.nearSize p) s.nextRip
  return s.setRip t

/-- R187, R188. -/
def State.nearReturn (s : State) (p : Pfx) (n : Nat) : Res State := do
  s.rejectNear16 p
  let t ← s.popAt (s.nearSize p) 0
  let t ← s.nearTarget t
  return (s.popped (s.nearSize p) 1 n).setRip t

/-! ## Meanings -/

/-- R178. -/
def execJccRel8 (p : Pfx) (cc : BitVec 4) (rel : BitVec 8) (s : State) : Host.Outcome State Fault Refusal :=
  finish s (do s.rejectNear16 p; s.branchRel (s.cond cc) (rel.signExtend 64))

/-- R179. -/
def execJccRel32 (p : Pfx) (cc : BitVec 4) (rel : BitVec 32) (s : State) : Host.Outcome State Fault Refusal :=
  finish s (do s.rejectNear16 p; s.branchRel (s.cond cc) (rel.signExtend 64))

/-- R180, E0: taken when ZF = 0. -/
def execLoopneRel8 (p : Pfx) (rel : BitVec 8) (s : State) : Host.Outcome State Fault Refusal :=
  finish s (s.loopWhile p rel (!s.zf))

/-- R180, E1: taken when ZF = 1. -/
def execLoopeRel8 (p : Pfx) (rel : BitVec 8) (s : State) : Host.Outcome State Fault Refusal :=
  finish s (s.loopWhile p rel s.zf)

/-- R180, E2. -/
def execLoopRel8 (p : Pfx) (rel : BitVec 8) (s : State) : Host.Outcome State Fault Refusal :=
  finish s (s.loopWhile p rel true)

/-- R181, compatibility mode. -/
def execJecxzRel8 (p : Pfx) (rel : BitVec 8) (s : State) : Host.Outcome State Fault Refusal :=
  finish s (s.jumpIfZero p rel)

/-- R181, 64-bit mode. -/
def execJrcxzRel8 (p : Pfx) (rel : BitVec 8) (s : State) : Host.Outcome State Fault Refusal :=
  finish s (s.jumpIfZero p rel)

/-- R182. -/
def execJmpRel8 (p : Pfx) (rel : BitVec 8) (s : State) : Host.Outcome State Fault Refusal :=
  finish s (do s.rejectNear16 p; s.branchRel true (rel.signExtend 64))

/-- R183. -/
def execJmpRel32 (p : Pfx) (rel : BitVec 32) (s : State) : Host.Outcome State Fault Refusal :=
  finish s (do s.rejectNear16 p; s.branchRel true (rel.signExtend 64))

/-- R184: the target is checked before the push. -/
def execCallRel32 (p : Pfx) (rel : BitVec 32) (s : State) : Host.Outcome State Fault Refusal :=
  finish s (do
    s.rejectNear16 p
    let t ← s.nearTarget (s.nextRip + rel.signExtend 64)
    s.callTo p t)

/-- R185. -/
def execJmpRM (p : Pfx) (rm : RM) (s : State) : Host.Outcome State Fault Refusal :=
  finish s (do
    let t ← s.nearOperand p rm
    return s.setRip t)

/-- R186. -/
def execCallRM (p : Pfx) (rm : RM) (s : State) : Host.Outcome State Fault Refusal :=
  finish s (do
    let t ← s.nearOperand p rm
    s.callTo p t)

/-- R187. -/
def execRet (p : Pfx) (s : State) : Host.Outcome State Fault Refusal := finish s (s.nearReturn p 0)

/-- R188. -/
def execRetImm16 (p : Pfx) (imm : BitVec 16) (s : State) : Host.Outcome State Fault Refusal :=
  finish s (s.nearReturn p imm.toNat)

/-- R189: the effective address, no memory reference and no fault with 0x67. -/
def execLea (p : Pfx) (r : Reg) (m : Mem) (s : State) : Host.Outcome State Fault Refusal :=
  finish s (.ok (s.setRegSz (s.opSize p) r (s.effAddr p m)).toNext)

/-- R190. -/
def execNop (s : State) : Host.Outcome State Fault Refusal := finish s (.ok s.toNext)

/-- R190: the operand is never referenced. -/
def execNopRM (_p : Pfx) (_rm : RM) (s : State) : Host.Outcome State Fault Refusal := finish s (.ok s.toNext)

end Sys2Proof.Machine
end

