-- ==== Sys2Proof/Machine/Segment.lean ====
section
/-! DEFINITION. Loads and stores of segment registers (41_segment_loads.md, R214 to R219). -/

namespace Sys2Proof.Machine

/-! ## Shared parts -/

/-- The number of a segment register in ModRM.reg; CS and the numbers above GS are none to load (R214). -/
def loadableSreg (n : BitVec 3) : Option Sreg :=
  if n = 0 then some .es else if n = 2 then some .ss else if n = 3 then some .ds
  else if n = 4 then some .fs else if n = 5 then some .gs else none

/-- The number of a segment register that can be stored (R218). -/
def storableSreg (n : BitVec 3) : Option Sreg := if n = 1 then some .cs else loadableSreg n

/-- The selector of a segment register (R42 to R45). -/
def State.selectorOf (s : State) : Sreg → Half
  | .es => s.es
  | .cs => s.cs.sel
  | .ss => s.ss.sel
  | .ds => s.ds
  | .fs => s.fs.sel
  | .gs => s.gs.sel

/-- What a load stores (R212, R213). CS is loaded by far transfers only. -/
def State.storeSreg (s : State) (r : Sreg) (sel : Half) (d : Word) : State :=
  match r with
  | .es => s.setEs sel
  | .cs => s
  | .ss => s.loadSs sel d
  | .ds => s.setDs sel
  | .fs => s.loadFs sel d
  | .gs => s.loadGs sel d

/-- The NULL pre-test of MOV SS and LSS (R214, R216). -/
def State.rejectNullSs (s : State) (r : Sreg) (sel : Half) : Res Unit :=
  raiseIf (isNull sel && r == .ss && !(s.cpl0 && s.mode64)) (excGp 0)

/-- The descriptor of a selector after the checks for register `r` (R202, R203, R206, R207). -/
def State.fetchData (s : State) (r : Sreg) (sel : Half) : Res Word := do
  s.checkSelector sel
  let d ← s.loadDescriptor sel
  if (if r = .ss then s.ssDescOk sel d else s.dataDescOk sel d) then return d else raiseGpSel sel

/-- MOV SS and POP SS hold off interrupts and debug traps until after the next instruction (R65, R475). -/
def State.blockAfterSs (s : State) (r : Sreg) : State := if r = .ss then s.setMovSsBlocked true else s

/-- POP of a segment register (R215). -/
def State.popSreg (s : State) (p : Pfx) (r : Sreg) : Res State := do
  let v ← s.popAt (s.stackSize p) 0
  let sel : Half := v.setWidth 16
  let d ← s.fetchData r sel
  return (((s.popped (s.stackSize p) 1 0).storeSreg r sel d).blockAfterSs r).toNext

/-- The one-byte forms are #UD in 64-bit mode (R152, R215, R219). -/
def State.compatOnly (s : State) : Res Unit := raiseIf s.mode64 excUd

/-- LDS, LES, LSS, LFS, LGS (R216). -/
def State.loadFar (s : State) (p : Pfx) (sr : Sreg) (r : Reg) (m : Mem) : Res State := do
  let (off, sel) ← s.readFarPtr p m (s.opSize p)
  s.rejectNullSs sr sel
  let d ← s.fetchData sr sel
  return ((s.storeSreg sr sel d).setRegSz (s.opSize p) r off).toNext

/-- The item that PUSH Sreg pushes: zero-extended, but with a 4-byte operand the upper two bytes are free (R219, U6,
entry 10). -/
def pushSregItem (sz : OpSize) (sel : Half) (free : Word) : Word :=
  if sz = .w32 then zsel sel ||| (free &&& 0xFFFF0000) else zsel sel

/-- PUSH of a segment register (R219). The 4-byte form uses a free value, drawn after the push. -/
def State.pushSreg (s : State) (p : Pfx) (r : Sreg) : Res State := do
  let t ← s.push (s.stackSize p) (pushSregItem (s.stackSize p) (s.selectorOf r) s.drawWord.1)
  return (if s.stackSize p = .w32 then t.drawWord.2 else t).toNext

/-! ## Meanings -/

/-- R214. -/
def execMovSregRM (p : Pfx) (sr : BitVec 3) (rm : RM) (s : State) : Host.Outcome State Fault Refusal :=
  finish s (match loadableSreg sr with
    | none => raiseUd
    | some r => do
      let sel ← s.readRM16 p rm
      s.rejectNullSs r sel
      let d ← s.fetchData r sel
      return ((s.storeSreg r sel d).blockAfterSs r).toNext)

/-- R215. -/
def execPopEs (p : Pfx) (s : State) : Host.Outcome State Fault Refusal :=
  finish s (do s.compatOnly; s.popSreg p .es)

/-- R215. -/
def execPopSs (p : Pfx) (s : State) : Host.Outcome State Fault Refusal :=
  finish s (do s.compatOnly; s.popSreg p .ss)

/-- R215. -/
def execPopDs (p : Pfx) (s : State) : Host.Outcome State Fault Refusal :=
  finish s (do s.compatOnly; s.popSreg p .ds)

/-- R215. -/
def execPopFs (p : Pfx) (s : State) : Host.Outcome State Fault Refusal := finish s (s.popSreg p .fs)

/-- R215. -/
def execPopGs (p : Pfx) (s : State) : Host.Outcome State Fault Refusal := finish s (s.popSreg p .gs)

/-- R216, compatibility mode only (R152). -/
def execLds (p : Pfx) (r : Reg) (m : Mem) (s : State) : Host.Outcome State Fault Refusal :=
  finish s (do s.compatOnly; s.loadFar p .ds r m)

/-- R216, compatibility mode only (R152). -/
def execLes (p : Pfx) (r : Reg) (m : Mem) (s : State) : Host.Outcome State Fault Refusal :=
  finish s (do s.compatOnly; s.loadFar p .es r m)

/-- R216: LSS sets no blocking. -/
def execLss (p : Pfx) (r : Reg) (m : Mem) (s : State) : Host.Outcome State Fault Refusal :=
  finish s (s.loadFar p .ss r m)

/-- R216. -/
def execLfs (p : Pfx) (r : Reg) (m : Mem) (s : State) : Host.Outcome State Fault Refusal :=
  finish s (s.loadFar p .fs r m)

/-- R216. -/
def execLgs (p : Pfx) (r : Reg) (m : Mem) (s : State) : Host.Outcome State Fault Refusal :=
  finish s (s.loadFar p .gs r m)

/-- R217: the selector goes to GS, the descriptor's base to IA32_KERNEL_GS_BASE. -/
def execLkgs (p : Pfx) (rm : RM) (s : State) : Host.Outcome State Fault Refusal :=
  finish s (do
    raiseIf (s.compat || !s.cpl0) excUd
    let sel ← s.readRM16 p rm
    let d ← s.fetchData .gs sel
    return ((s.setGs ⟨sel, s.gs.base⟩).setSys { s.sys with kernelGsBase := descBase32 d }).toNext)

/-- R218. -/
def execMovRMSreg (p : Pfx) (sr : BitVec 3) (rm : RM) (s : State) : Host.Outcome State Fault Refusal :=
  finish s (match storableSreg sr with
    | none => raiseUd
    | some r => do
      let t ← s.writeRMSel p rm (s.selectorOf r)
      return t.toNext)

/-- R219. -/
def execPushEs (p : Pfx) (s : State) : Host.Outcome State Fault Refusal :=
  finish s (do s.compatOnly; s.pushSreg p .es)

/-- R219. -/
def execPushCs (p : Pfx) (s : State) : Host.Outcome State Fault Refusal :=
  finish s (do s.compatOnly; s.pushSreg p .cs)

/-- R219. -/
def execPushSs (p : Pfx) (s : State) : Host.Outcome State Fault Refusal :=
  finish s (do s.compatOnly; s.pushSreg p .ss)

/-- R219. -/
def execPushDs (p : Pfx) (s : State) : Host.Outcome State Fault Refusal :=
  finish s (do s.compatOnly; s.pushSreg p .ds)

/-- R219. -/
def execPushFs (p : Pfx) (s : State) : Host.Outcome State Fault Refusal := finish s (s.pushSreg p .fs)

/-- R219. -/
def execPushGs (p : Pfx) (s : State) : Host.Outcome State Fault Refusal := finish s (s.pushSreg p .gs)

end Sys2Proof.Machine
end

