-- ==== Sys2Proof/Machine/TableRegs.lean ====
section
/-! DEFINITION. GDTR, IDTR, LDTR and TR (R220 to R227), and the FS and GS base instructions (R245 to R247). -/

namespace Sys2Proof.Machine

/-! ## Shared parts -/

/-- Instructions that ring 0 alone may execute: #GP(0) otherwise (R411). -/
def State.requireCpl0 (s : State) : Res Unit := raiseIf (!s.cpl0) (excGp 0)

/-- SGDT, SIDT, SLDT, STR at CPL 3 with CR4.UMIP (R222, R225). -/
def State.checkUmip (s : State) : Res Unit := raiseIf (s.cpl3 && s.umip) (excGp 0)

/-- A table-register image in memory: limit, then base; 10 bytes in 64-bit mode, 6 in compatibility mode
(R108, R222). -/
def State.tableImage (s : State) (t : TableReg) : List Byte :=
  leBytes 2 (t.limit.setWidth 64) ++ leBytes (if s.mode64 then 8 else 4) t.base

/-- SGDT, SIDT (R222, R223). -/
def State.storeTable (s : State) (p : Pfx) (m : Mem) (t : TableReg) : Res State := do
  s.checkUmip
  let la ← s.memOperand p m
  let s ← s.writeBytes s.dataAccess la (s.tableImage t) 2
  return s.toNext

/-- LGDT, LIDT (R220, R221): the image read, its base canonical. -/
def State.readTable (s : State) (p : Pfx) (m : Mem) : Res TableReg := do
  s.requireCpl0
  let la ← s.memOperand p m
  let limit ← s.memRead la 2
  let base ← s.memRead (la + 2) (if s.mode64 then 8 else 4)
  raiseIf (!s.canonical base) (excGp 0)
  return ⟨base, limit.setWidth 32⟩

/-- The 16-byte descriptor of LLDT or LTR after the checks of R224 and R226; `types` are the types that load. Bits 12:8 of its
last doubleword must be 0 (R103); #GP with the selector where they are not is PRESUMED (entry 44). -/
def State.fetchSystem (s : State) (sel : Half) (types : List (BitVec 4)) : Res SysReg := do
  raiseIf (selTi sel) (excGp (selCode sel))
  raiseIf (decide (s.gdtr.limit.toNat < (selOffset sel).toNat + 15)) (excGp (selCode sel))
  let (lo, hi) ← s.loadSysDescriptor sel
  raiseIf (descS lo || !types.contains (descType lo)) (excGp (selCode sel))
  raiseIf (hi.extractLsb' 40 5 != 0) (excGp (selCode sel))
  raiseIf (!descP lo) (excGp (selCode sel))
  raiseIf (!s.canonical (sysBase lo hi)) (excGp (selCode sel))
  return ⟨sel, sysBase lo hi, expandLimit (descLimit lo) (descG lo)⟩

/-- SLDT, STR (R225, R227). -/
def State.storeSel (s : State) (p : Pfx) (rm : RM) (sel : Half) : Res State := do
  s.checkUmip
  let t ← s.writeRMSel p rm sel
  return t.toNext

/-- RDFSBASE and its kin need 64-bit mode and CR4.FSGSBASE (R246, R247). -/
def State.requireFsgsbase (s : State) : Res Unit := raiseIf (s.compat || !s.fsgsbase) excUd

/-- The operand size of the FS and GS base instructions: 64 with REX.W, else 32 (R246), also with 0x66 (PRESUMED, the family's, entry
16). -/
def baseSize (p : Pfx) : OpSize := if p.w then .w64 else .w32

/-- WRFSBASE, WRGSBASE: the new base, canonical (R247). -/
def State.newBase (s : State) (p : Pfx) (r : Reg) : Res Word := do
  s.requireFsgsbase
  raiseIf (!s.canonical ((baseSize p).trunc (s.reg r))) (excGp 0)
  return (baseSize p).trunc (s.reg r)

/-! ## Meanings -/

/-- R222. -/
def execSgdt (p : Pfx) (m : Mem) (s : State) : Host.Outcome State Fault Refusal := finish s (s.storeTable p m s.gdtr)

/-- R223. -/
def execSidt (p : Pfx) (m : Mem) (s : State) : Host.Outcome State Fault Refusal := finish s (s.storeTable p m s.idtr)

/-- R220. -/
def execLgdt (p : Pfx) (m : Mem) (s : State) : Host.Outcome State Fault Refusal :=
  finish s (do
    let t ← s.readTable p m
    return (s.setGdtr t).toNext)

/-- R221. -/
def execLidt (p : Pfx) (m : Mem) (s : State) : Host.Outcome State Fault Refusal :=
  finish s (do
    let t ← s.readTable p m
    return (s.setIdtr t).toNext)

/-- R225. -/
def execSldt (p : Pfx) (rm : RM) (s : State) : Host.Outcome State Fault Refusal :=
  finish s (s.storeSel p rm s.ldtr.sel)

/-- R227. -/
def execStr (p : Pfx) (rm : RM) (s : State) : Host.Outcome State Fault Refusal :=
  finish s (s.storeSel p rm s.tr.sel)

/-- R224: a NULL selector clears base and limit. -/
def execLldt (p : Pfx) (rm : RM) (s : State) : Host.Outcome State Fault Refusal :=
  finish s (do
    s.requireCpl0
    let sel ← s.readRM16 p rm
    if isNull sel then return (s.setLdtr ⟨sel, 0, 0⟩).toNext
    else
      let r ← s.fetchSystem sel [2]
      return (s.setLdtr r).toNext)

/-- R226: both TSS types load; the descriptor is not written. -/
def execLtr (p : Pfx) (rm : RM) (s : State) : Host.Outcome State Fault Refusal :=
  finish s (do
    s.requireCpl0
    let sel ← s.readRM16 p rm
    raiseIf (isNull sel) (excGp 0)
    let r ← s.fetchSystem sel [9, 11]
    return (s.setTr r).toNext)

/-- R245. -/
def execSwapgs (s : State) : Host.Outcome State Fault Refusal :=
  finish s (do
    raiseIf s.compat excUd
    raiseIf s.fred excUd
    s.requireCpl0
    return ((s.setGs ⟨s.gs.sel, s.sys.kernelGsBase⟩).setSys { s.sys with kernelGsBase := s.gs.base }).toNext)

/-- R246. -/
def execRdfsbase (p : Pfx) (r : Reg) (s : State) : Host.Outcome State Fault Refusal :=
  finish s (do
    s.requireFsgsbase
    return (s.setRegSz (baseSize p) r s.fs.base).toNext)

/-- R246. -/
def execRdgsbase (p : Pfx) (r : Reg) (s : State) : Host.Outcome State Fault Refusal :=
  finish s (do
    s.requireFsgsbase
    return (s.setRegSz (baseSize p) r s.gs.base).toNext)

/-- R247. -/
def execWrfsbase (p : Pfx) (r : Reg) (s : State) : Host.Outcome State Fault Refusal :=
  finish s (do
    let b ← s.newBase p r
    return (s.setFs ⟨s.fs.sel, b⟩).toNext)

/-- R247. -/
def execWrgsbase (p : Pfx) (r : Reg) (s : State) : Host.Outcome State Fault Refusal :=
  finish s (do
    let b ← s.newBase p r
    return (s.setGs ⟨s.gs.sel, b⟩).toNext)

end Sys2Proof.Machine
end

