-- ==== Sys2Proof/Machine/Query.lean ====
section
/-! DEFINITION. Descriptor queries LSL, LAR, VERR, VERW, and ARPL (R239 to R244). -/

namespace Sys2Proof.Machine

/-- `Query(sel)` (R239): the descriptor, or none where ZF becomes 0. -/
def State.query (s : State) (sel : Half) : Res (Option Word) := do
  if isNull sel || !s.selectorInTable sel then return none
  else
    let d ← s.loadDescriptor sel
    return (if s.dataDescOk sel d then some d else none)

/-- LSL and LAR: the value `f d` in the operand size and ZF = 1, or ZF = 0 alone (R240, R241). -/
def State.queryValue (s : State) (p : Pfx) (r : Reg) (rm : RM) (f : Word → Word) : Res State := do
  let sel ← s.readRM16 p rm
  let d ← s.query sel
  match d with
  | none => return (s.setZf false).toNext
  | some d => return ((s.setRegSz (s.opSize p) r (f d)).setZf true).toNext

/-- VERR and VERW: ZF says whether the query succeeds (R242, R243). -/
def State.queryOk (s : State) (p : Pfx) (rm : RM) : Res State := do
  let sel ← s.readRM16 p rm
  let d ← s.query sel
  return (s.setZf d.isSome).toNext

/-- The limit LSL answers (R240). -/
def lslValue (d : Word) : Word := (expandLimit (descLimit d) (descG d)).setWidth 64

/-- The access rights LAR answers, the accessed bit forced to 1 (R241). Bits 19:16, which U8 leaves to the baseline, are 0 (DESIGN CHOICE,
entry 47). -/
def larValue (d : Word) : Word := ((d >>> 32) &&& 0x00F0FF00) ||| 0x100

/-- The selector ARPL answers (R244). -/
def arplSel (dest src : Half) : Half := if selRpl dest < selRpl src then withRpl dest (selRpl src) else dest

/-- R240. -/
def execLsl (p : Pfx) (r : Reg) (rm : RM) (s : State) : Host.Outcome State Fault Refusal :=
  finish s (s.queryValue p r rm lslValue)

/-- R241. -/
def execLar (p : Pfx) (r : Reg) (rm : RM) (s : State) : Host.Outcome State Fault Refusal :=
  finish s (s.queryValue p r rm larValue)

/-- R242. -/
def execVerr (p : Pfx) (rm : RM) (s : State) : Host.Outcome State Fault Refusal := finish s (s.queryOk p rm)

/-- R243. -/
def execVerw (p : Pfx) (rm : RM) (s : State) : Host.Outcome State Fault Refusal := finish s (s.queryOk p rm)

/-- An r/m16 destination written: 16 bits of a register, or 2 bytes of memory (R244). -/
def State.writeRM16 (s : State) (p : Pfx) (rm : RM) (v : Half) : Res State :=
  match rm with
  | .reg r => .ok (s.setRegSz .w16 r (zsel v))
  | .mem m => do
    let la ← s.memOperand p m
    s.memWrite la 2 (zsel v)

/-- R244, compatibility mode only (R152). The destination is written only where its RPL is raised. -/
def execArpl (p : Pfx) (rm : RM) (r : Reg) (s : State) : Host.Outcome State Fault Refusal :=
  finish s (do
    s.compatOnly
    let dest ← s.readRM16 p rm
    let src : Half := (s.reg r).setWidth 16
    if selRpl dest < selRpl src then
      let t ← s.writeRM16 p rm (arplSel dest src)
      return (t.setZf true).toNext
    else return (s.setZf false).toNext)

end Sys2Proof.Machine
end

