-- ==== Sys2Proof/WellFormed.lean ====
section
/-! DEFINITION. Which terms of `Instr` an encoding can spell, for each of the two modes (R130 to R137). The checks
say what the encoding admits, not what executes: an instruction that raises #UD is well formed. -/

namespace Sys2Proof

/-- The encoding number of a register (R20). -/
def Reg.num : Reg → Nat
  | .rax => 0 | .rcx => 1 | .rdx => 2 | .rbx => 3 | .rsp => 4 | .rbp => 5 | .rsi => 6 | .rdi => 7
  | .r8 => 8 | .r9 => 9 | .r10 => 10 | .r11 => 11 | .r12 => 12 | .r13 => 13 | .r14 => 14 | .r15 => 15

/-- A register that mode `l` can name: all sixteen in 64-bit mode, the first eight in compatibility mode (R21). -/
def Reg.wf (l : Bool) (r : Reg) : Bool := l || r.num < 8

def Option.regWf (l : Bool) : Option Reg → Bool
  | Option.none => true
  | some r => r.wf l

/-- Prefixes: REX.W exists only in 64-bit mode (R132). -/
def Pfx.wf (l : Bool) (p : Pfx) : Bool := l || !p.w

def Disp.isNone : Disp → Bool | .none => true | _ => false
def Disp.isD16 : Disp → Bool | .d16 _ => true | _ => false
def Disp.isD32 : Disp → Bool | .d32 _ => true | _ => false

/-- The memory forms of 32- and 64-bit addressing (R133): RSP is no index, an absent base needs a 32-bit
displacement, RBP and R13 as base need a displacement, RIP-relative exists in 64-bit mode alone. -/
def Mem.wfLong (l : Bool) (m : Mem) : Bool :=
  Option.regWf l m.base && Option.regWf l m.index && !m.disp.isD16 &&
  (m.index != some .rsp) && (m.index.isSome || m.scale == 0) &&
  (if m.rip then l && m.base.isNone && m.index.isNone && m.disp.isD32
   else match m.base with
     | Option.none => m.disp.isD32
     | some b => !m.disp.isNone || (b != .rbp && b != .r13))

/-- The eight base and index pairs of 16-bit addressing (R189), and the displacement-only form. -/
def Mem.wfShort (m : Mem) : Bool :=
  m.scale == 0 && !m.rip && !m.disp.isD32 &&
  (match m.base, m.index with
   | some .rbx, some .rsi => true
   | some .rbx, some .rdi => true
   | some .rbp, some .rsi => true
   | some .rbp, some .rdi => true
   | some .rsi, Option.none => true
   | some .rdi, Option.none => true
   | some .rbp, Option.none => !m.disp.isNone
   | some .rbx, Option.none => true
   | Option.none, Option.none => m.disp.isD16
   | _, _ => false)

/-- A memory operand that mode `l` with address-size prefix `asz` can encode (R133, R136). -/
def Mem.wf (l asz : Bool) (m : Mem) : Bool := if !l && asz then m.wfShort else m.wfLong l

/-- An r/m operand that mode `l` with address-size prefix `asz` can encode. -/
def RM.wf (l asz : Bool) : RM → Bool
  | .reg r => r.wf l
  | .mem m => m.wf l asz

/-- A 32-bit branch displacement: with 0x66 in compatibility mode it is encoded in 16 bits (R137, R179). -/
def relWf (l : Bool) (p : Pfx) (rel : BitVec 32) : Bool :=
  l || !p.osz || rel == (rel.setWidth 16).signExtend 32

/-- A direct far pointer: with 16-bit operand size the offset is encoded in 16 bits (R137). -/
def ptrWf (p : Pfx) (off : BitVec 32) : Bool := !p.osz || p.w || off == (off.setWidth 16).setWidth 32

/-- The instructions that some byte sequence of mode `l` (CS.L) decodes to. -/
def Instr.wf (l : Bool) : Instr → Bool
  | .jccRel8 p _ _ | .loopneRel8 p _ | .loopeRel8 p _ | .loopRel8 p _ | .jmpRel8 p _ => p.wf l
  | .jccRel32 p _ rel | .jmpRel32 p rel | .callRel32 p rel => p.wf l && relWf l p rel
  | .jecxzRel8 p _ => p.wf l && !l
  | .jrcxzRel8 p _ => p.wf l && l
  | .jmpRM p rm | .callRM p rm | .nopRM p rm | .lkgs p rm | .sldt p rm | .str p rm | .lldt p rm | .ltr p rm
  | .verr p rm | .verw p rm | .lmsw p rm => p.wf l && rm.wf l p.asz
  | .ret p | .retImm16 p _ | .retFar p | .retFarImm16 p _ | .iret p | .sysret p | .sysexit p
  | .popEs p | .popSs p | .popDs p | .popFs p | .popGs p
  | .pushEs p | .pushCs p | .pushSs p | .pushDs p | .pushFs p | .pushGs p | .pushf p
  | .inEaxImm p _ | .outImmEax p _ | .inEaxDx p | .outDxEax p => p.wf l
  | .lea p r m | .lss p r m | .lfs p r m | .lgs p r m => p.wf l && r.wf l && m.wf l p.asz
  | .lds p r m | .les p r m => p.wf l && !l && r.wf l && m.wf l p.asz
  | .callPtr p off _ | .jmpPtr p off _ => p.wf l && ptrWf p off
  | .callFarM p m | .jmpFarM p m | .sgdt p m | .sidt p m | .lgdt p m | .lidt p m => p.wf l && m.wf l p.asz
  | .movSregRM p _ rm | .movRMSreg p _ rm => p.wf l && rm.wf l p.asz
  | .lar p r rm | .lsl p r rm => p.wf l && r.wf l && rm.wf l p.asz
  | .arpl p rm r => p.wf l && !l && r.wf l && rm.wf l p.asz
  | .rdfsbase p r | .rdgsbase p r | .wrfsbase p r | .wrgsbase p r => p.wf l && r.wf l
  | .movRCr crn r => r.wf l && (l || crn.toNat < 8)
  | .movCr0R r | .movCr2R r | .movCr3R r | .movCr4R r => r.wf l
  | .movCr8R r => l && r.wf l
  | .popf p => p.wf l && (!p.osz || p.w)
  | .popf16 p => p.wf l && p.osz && !p.w
  | .nop | .intImm8 _ | .int3 | .into | .int1 | .syscall | .sysenter | .eretu | .erets | .rsm | .swapgs
  | .rdmsr | .wrmsr | .cpuid | .cli | .sti | .inAlImm _ | .outImmAl _ | .inAlDx | .outDxAl
  | .insb | .insd | .outsb | .outsd | .vmlaunch | .vmresume | .seamret | .getsec => true

end Sys2Proof
end

