-- ==== Sys2Proof/Machine/Control.lean ====
section
/-! DEFINITION. MOV to and from control registers, LMSW and CPUID (R270 to R274, R281). -/

namespace Sys2Proof.Machine

/-! ## Shared parts -/

/-- In VMX operation, root or non-root (R67). -/
def State.inVmx (s : State) : Bool := match s.vmx with
  | .off => false
  | _ => true

/-- A control register as an instruction reads it: in non-root operation the bits of the guest/host mask come from
the read shadow (R270, R374). -/
def State.readCr0 (s : State) : Word := match s.vmx with
  | .nonRoot v => mergeBits s.cr0 v.ctl.cr0Mask v.ctl.cr0Shadow
  | _ => s.cr0

def State.readCr4 (s : State) : Word := match s.vmx with
  | .nonRoot v => mergeBits s.cr4 v.ctl.cr4Mask v.ctl.cr4Shadow
  | _ => s.cr4

/-- The controls under which CR8 is the task-priority register of the virtual-APIC page, if it is (R380, entry 26). -/
def State.tprShadow (s : State) : Option VmcsControls := match s.vmx with
  | .nonRoot v => if v.ctl.useTprShadow then some v.ctl else none
  | _ => none

/-- The physical address of that register. -/
def VmcsControls.tprAt (c : VmcsControls) : Nat := c.virtualApicAddr.toNat / 4096 * 4096 + 0x80

/-- CR8 as an instruction reads it: bits 7:4 of the task priority (R272, R380). -/
def State.readCr8 (s : State) : Word := match s.tprShadow with
  | some c => (s.byteAt c.tprAt).setWidth 64 >>> 4
  | none => s.cr8

/-- CR8 written (R272, R380). -/
def State.writeCr8 (s : State) (v : Word) : State := match s.tprShadow with
  | some c => s.storeAt ((List.range 4).map (c.tprAt + ·)) (leBytes 4 (v <<< 4))
  | none => s.setCr8 v

/-- The control register number `n`, none where there is no such register (R270). -/
def State.readCr (s : State) (n : BitVec 4) : Option Word :=
  if n = 0 then some s.readCr0
  else if n = 2 then some s.cr2
  else if n = 3 then some s.cr3
  else if n = 4 then some s.readCr4
  else if n = 8 then some s.readCr8
  else none

/-- The qualification of a control-register VM exit: register, MOV to CR, general register (entry 26). -/
def crQualification (n : Word) (r : Reg) : Word := n ||| (BitVec.ofNat 64 r.num <<< 8)

/-- The value a MOV to CR0 or CR4 would load: the bits of the guest/host mask keep their values; or the VM exit that the
write causes where it differs from the read shadow in a masked bit (R271, R273, R374). The rules print their checks on the general
register and leave the mask to the baseline: that the masked bits keep the processor's values, and that the checks look at the merged
value, is PRESUMED, the family's (entry 26). -/
def State.guestCrWrite (s : State) (n : Word) (r : Reg) (v old : Word) (mask shadow : VmcsControls → Word) : Res Word :=
  match s.vmx with
  | .nonRoot vm =>
    if (v ^^^ shadow vm.ctl) &&& mask vm.ctl != 0 then .error (.vmExit 28 (crQualification n r))
    else .ok (mergeBits v (mask vm.ctl) old)
  | _ => .ok v

/-- The checks of R271 on a CR0 value; clearing WP while CR4.CET = 1 is a baseline fault. What a change of WP does to cached
translations the rule leaves to the baseline: nothing is flushed (PRESUMED, entry 3). -/
def State.cr0WriteOk (s : State) (v : Word) : Bool :=
  (v >>> 32 == 0) && cr0FixedOk v && !(s.cetOn && !bit v 16)

/-- The checks of R273 on a CR4 value: fixed bits, reserved bits, and the baseline consistency rules (LA57 cannot
change, PCIDE needs CR3[11:0] = 0, CET needs CR0.WP, VMX operation needs VMXE; entry 15). The rule that FRED has, which R273 does not
print, is none (DESIGN CHOICE, entry 15). -/
def State.cr4WriteOk (s : State) (v : Word) : Bool :=
  cr4FixedOk v && !s.cr4Reserved v && (bit v 12 == s.la57) &&
  !(bit v 17 && !s.pcide && s.cr3 &&& 0xFFF != 0) && !(bit v 23 && !s.wp) && !(s.inVmx && !bit v 13)

/-- The checks of MOV CR3: bits 63:MAXPA, bit 63 being the request not to flush when PCIDE = 1 (R32, R272). -/
def State.cr3WriteOk (s : State) (v : Word) : Bool := !s.cr3Reserved (if s.pcide then setBit v 63 false else v)

/-- What MOV CR3 stores: the request bit is not stored (R272). -/
def State.cr3Stored (s : State) (v : Word) : Word := if s.pcide then setBit v 63 false else v

/-! The translation caches over MOV CR3 and MOV CR4 (R69, R123; PRESUMED, the family's, entry 3). -/

/-- The caches after a flush of one PCID that begins this era: only its translations of global pages stay, made of
what the tables held until then (R272; that they stay whatever has changed since is PRESUMED, entry 3). -/
def Tlb.flushPcid (t : Tlb) (pcid : Nat) : Tlb :=
  { t with roots := t.roots.map (fun r => if r.pcid = pcid ∧ r.flushed = none then { r with flushed := some t.era } else r) }

/-- The caches with the table of the current CR3 among the past ones, in the next era. -/
def State.leaveRoot (s : State) : Tlb :=
  { s.tlb with era := s.tlb.era + 1, roots := ⟨s.pageRoot, s.pcid, s.tlb.era, none⟩ :: s.tlb.roots }

/-- After MOV CR3 of `v`: with CR4.PCIDE = 0 everything but global pages is flushed (the one PCID is 0), with PCIDE = 1
the new PCID, or nothing where bit 63 of the value asks so. -/
def State.tlbAfterCr3 (s : State) (v : Word) : Tlb :=
  if !s.pcide then (if s.pge then s.leaveRoot.flushPcid 0 else Tlb.empty)
  else if bit v 63 then s.leaveRoot
  else s.leaveRoot.flushPcid (v.toNat % 2 ^ 12)

/-- After MOV CR4 of `v`: everything is flushed where PGE changes, PCIDE is cleared or SMEP is set. -/
def State.tlbAfterCr4 (s : State) (v : Word) : Tlb :=
  if bit v 7 != s.pge || (s.pcide && !bit v 17) || (!s.smep && bit v 20) then Tlb.empty else s.tlb

/-! ## Meanings -/

/-- R270. The status flags are free afterwards (U7). -/
def execMovRCr (crn : BitVec 4) (r : Reg) (s : State) : Host.Outcome State Fault Refusal :=
  finish s (do
    s.requireCpl0
    match s.readCr crn with
    | none => raiseUd
    | some v => return (s.freeStatus.setReg r v).toNext)

/-- R271. -/
def execMovCr0R (r : Reg) (s : State) : Host.Outcome State Fault Refusal :=
  finish s (do
    s.requireCpl0
    let v ← s.guestCrWrite 0 r (s.reg r) s.cr0 (·.cr0Mask) (·.cr0Shadow)
    raiseIf (!s.cr0WriteOk v) (excGp 0)
    return (s.freeStatus.setCr0 (cr0Of v)).toNext)

/-- R272: any value. -/
def execMovCr2R (r : Reg) (s : State) : Host.Outcome State Fault Refusal :=
  finish s (do
    s.requireCpl0
    return (s.freeStatus.setCr2 (s.reg r)).toNext)

/-- R272. -/
def execMovCr3R (r : Reg) (s : State) : Host.Outcome State Fault Refusal :=
  finish s (do
    s.requireCpl0
    raiseIf (!s.cr3WriteOk (s.reg r)) (excGp 0)
    return ((s.freeStatus.setCr3 (s.cr3Stored (s.reg r))).setTlb (s.tlbAfterCr3 (s.reg r))).toNext)

/-- R273. -/
def execMovCr4R (r : Reg) (s : State) : Host.Outcome State Fault Refusal :=
  finish s (do
    s.requireCpl0
    let v ← s.guestCrWrite 4 r (s.reg r) s.cr4 (·.cr4Mask) (·.cr4Shadow)
    raiseIf (!s.cr4WriteOk v) (excGp 0)
    return ((s.freeStatus.setCr4 v).setTlb (s.tlbAfterCr4 v)).toNext)

/-- R272: bits 3:0, #GP(0) on the others. -/
def execMovCr8R (r : Reg) (s : State) : Host.Outcome State Fault Refusal :=
  finish s (do
    s.requireCpl0
    raiseIf (s.reg r >>> 4 != 0) (excGp 0)
    return (s.freeStatus.writeCr8 (s.reg r)).toNext)

/-- R274: removed. -/
def execLmsw (_p : Pfx) (_rm : RM) (s : State) : Host.Outcome State Fault Refusal := finish s raiseUd

/-- The four registers CPUID answers: free, but leaf 7 sub-leaf 1 has ECX bits 2 and 4 set (R3, R63, R281). -/
def cpuidValue (draw : Nat) (leaf sub : DWord) : BitVec 128 :=
  if leaf = 7 ∧ sub = 1 then Config.freeCpuid draw leaf sub ||| ((0x14 : BitVec 128) <<< 64)
  else Config.freeCpuid draw leaf sub

/-- R281. In non-root operation the baseline's unconditional VM exit, reason 10 (entry 26). -/
def execCpuid (s : State) : Host.Outcome State Fault Refusal :=
  finish s (if s.nonRoot then .error (.vmExit 10 0) else
    let v := cpuidValue s.draws ((s.reg .rax).setWidth 32) ((s.reg .rcx).setWidth 32)
    let s := s.setDraws (s.draws + 1)
    let s := s.setReg .rax ((v.extractLsb' 0 32).setWidth 64)
    let s := s.setReg .rbx ((v.extractLsb' 32 32).setWidth 64)
    let s := s.setReg .rcx ((v.extractLsb' 64 32).setWidth 64)
    let s := s.setReg .rdx ((v.extractLsb' 96 32).setWidth 64)
    .ok s.toNext)

end Sys2Proof.Machine
end

