-- ==== Sys2Proof/Machine/FarTransfer.lean ====
section
/-! DEFINITION. Far CALL, JMP and RET, IRET, and the software interrupts (R320 to R343). -/

namespace Sys2Proof.Machine

/-! ## Shared parts -/

/-- R173, R321: a far transfer with 16-bit operand size, in both modes. -/
def State.rejectFar16 (s : State) (p : Pfx) : Res Unit := raiseIf (s.opSize p == .w16) excUd

/-- CS and RIP as a far transfer loads them. -/
def State.loadTarget (s : State) (sel : Half) (d rip : Word) : State := (s.loadCs sel d).setRip rip

/-- `FarCall` (R321): the checks, then CS and the return address pushed, then the load. -/
def State.farCall (s : State) (sz : OpSize) (sel : Half) (off : Word) : Res State := do
  let d ← s.fetchCs sel
  let rip ← s.returnRip (descL d) off
  let t ← s.pushAll sz [zsel s.cs.sel, s.nextRip]
  return t.loadTarget sel d rip

/-- `FarJmp` (R324). -/
def State.farJmp (s : State) (sel : Half) (off : Word) : Res State := do
  let d ← s.fetchCs sel
  let rip ← s.returnRip (descL d) off
  return s.loadTarget sel d rip

/-- `FarRet` (R327): `n` more bytes are released after the two pops. -/
def State.farRet (s : State) (p : Pfx) (n : Nat) : Res State := do
  s.rejectFar16 p
  let off ← s.popAt (s.opSize p) 0
  let csItem ← s.popAt (s.opSize p) 1
  let sel : Half := csItem.setWidth 16
  let d ← s.fetchCs sel
  let rip ← s.returnRip (descL d) off
  return (s.popped (s.opSize p) 2 n).loadTarget sel d rip

/-- A software interrupt: EXT 0, no error code, the saved RIP that of the next instruction (R340). -/
def State.softInt (s : State) (vector : BitVec 8) : Event :=
  { vector := vector, kind := .softInt, ext := false, err := none, rip := s.nextRip }

/-! ## Meanings -/

/-- R322: compatibility mode only (R152). -/
def execCallPtr (p : Pfx) (off : BitVec 32) (sel : BitVec 16) (s : State) : Host.Outcome State Fault Refusal :=
  finish s (do
    s.compatOnly
    s.rejectFar16 p
    s.farCall .w32 sel (off.setWidth 64))

/-- R323. -/
def execCallFarM (p : Pfx) (m : Mem) (s : State) : Host.Outcome State Fault Refusal :=
  finish s (do
    s.rejectFar16 p
    let (off, sel) ← s.readFarPtr p m (s.opSize p)
    s.farCall (s.opSize p) sel off)

/-- R325: compatibility mode only; 0x67 raises #GP(0) although the form is direct (C36). -/
def execJmpPtr (p : Pfx) (off : BitVec 32) (sel : BitVec 16) (s : State) : Host.Outcome State Fault Refusal :=
  finish s (do
    s.compatOnly
    s.rejectFar16 p
    raiseIf (s.addrSize16 p) (excGp 0)
    s.farJmp sel (off.setWidth 64))

/-- R326. -/
def execJmpFarM (p : Pfx) (m : Mem) (s : State) : Host.Outcome State Fault Refusal :=
  finish s (do
    s.rejectFar16 p
    let (off, sel) ← s.readFarPtr p m (s.opSize p)
    s.farJmp sel off)

/-- R327. -/
def execRetFar (p : Pfx) (s : State) : Host.Outcome State Fault Refusal := finish s (s.farRet p 0)

/-- R328. -/
def execRetFarImm16 (p : Pfx) (imm : BitVec 16) (s : State) : Host.Outcome State Fault Refusal :=
  finish s (s.farRet p imm.toNat)

/-- R330. -/
def execIret (p : Pfx) (s : State) : Host.Outcome State Fault Refusal :=
  finish s (do
    s.rejectFar16 p
    raiseIf s.nt (excGp 0)
    s.returnFromEvent (s.opSize p))

/-- R340. -/
def execIntImm8 (imm : BitVec 8) (s : State) : Host.Outcome State Fault Refusal := s.deliver (s.softInt imm) false

/-- R341: in non-root operation #BP may exit. -/
def execInt3 (s : State) : Host.Outcome State Fault Refusal := s.deliver (s.softInt 3) true

/-- R342. -/
def execInto (s : State) : Host.Outcome State Fault Refusal :=
  if s.mode64 then finish s raiseUd
  else if s.of then s.deliver (s.softInt 4) true
  else finish s (.ok s.toNext)

/-- R343: vector 1, exempt from the gate DPL check; EXT = 1 is PRESUMED (entry 22). -/
def execInt1 (s : State) : Host.Outcome State Fault Refusal :=
  s.deliver { vector := 1, kind := .int1, ext := true, err := none, rip := s.nextRip } true

end Sys2Proof.Machine
end

