-- ==== Sys2Proof/Machine/FlagInstr.lean ====
section
/-! DEFINITION. POPF, PUSHF, CLI and STI (R290 to R297). -/

namespace Sys2Proof.Machine

/-- R290. -/
def execPopf (p : Pfx) (s : State) : Host.Outcome State Fault Refusal :=
  finish s (do
    let image ← s.popAt (s.stackSize p) 0
    return ((s.popped (s.stackSize p) 1 0).setRflags (popfFlags s.cpl0 s.rflags image)).toNext)

/-- R291. -/
def execPopf16 (_p : Pfx) (s : State) : Host.Outcome State Fault Refusal :=
  finish s (do
    let image ← s.popAt .w16 0
    return ((s.popped .w16 1 0).setRflags (popf16Flags s.cpl0 s.rflags image)).toNext)

/-- R292. -/
def execPushf (p : Pfx) (s : State) : Host.Outcome State Fault Refusal :=
  finish s (do
    let t ← s.push (s.stackSize p) (pushfImage s.rflags)
    return t.toNext)

/-- CLI and STI fault at CPL 3 always (R296, R297). -/
def State.rejectCpl3 (s : State) : Res Unit := raiseIf s.cpl3 (excGp 0)

/-- R296. -/
def execCli (s : State) : Host.Outcome State Fault Refusal :=
  finish s (do
    s.rejectCpl3
    return (s.setRflags (setBit s.rflags 9 false)).toNext)

/-- R297: the shadow is set only where IF was 0. -/
def execSti (s : State) : Host.Outcome State Fault Refusal :=
  finish s (do
    s.rejectCpl3
    return ((s.setRflags (setBit s.rflags 9 true)).setStiBlocked (!s.ifl)).toNext)

end Sys2Proof.Machine
end

