-- ==== Sys2Proof/Machine/SysCall.lean ====
section
/-! DEFINITION. SYSCALL, SYSENTER, SYSRET and SYSEXIT (R344 to R347). -/

namespace Sys2Proof.Machine

/-- IA32_STAR[47:32] and IA32_STAR[63:48]. -/
def starKernel (star : Word) : Half := star.extractLsb' 32 16
def starUser (star : Word) : Half := star.extractLsb' 48 16

/-- SYSCALL and SYSENTER with CR4.FRED = 1 enter FRED delivery, which the spec does not give (R344, R352). -/
def State.rejectFred (s : State) : Res Unit := if s.fred then .error (.refuse .fredDelivery) else .ok ()

/-- Ring 0 in 64-bit mode, as SYSCALL and SYSENTER load it (R344, R345). -/
def State.enterKernel (s : State) (cs ss : Half) : State := (s.setCs ⟨cs, true⟩).setSs ⟨ss, 0, true⟩

/-- Ring 3, as SYSRET and SYSEXIT load it; `l` selects 64-bit mode (R346, R347). -/
def State.enterUser (s : State) (cs ss : Half) (l : Bool) : State := (s.setCs ⟨cs ||| 3, l⟩).setSs ⟨ss ||| 3, 3, true⟩

/-- The flags after SYSCALL: bit 1 cannot be cleared (R26, R344, entry 38). -/
def syscallFlags (rflags fmask : Word) : Word := setBit (setBit (rflags &&& ~~~fmask) 16 false) 1 true

/-- R344. -/
def execSyscall (s : State) : Host.Outcome State Fault Refusal :=
  finish s (do
    s.rejectFred
    let t := (s.setReg .rcx s.nextRip).setReg .r11 s.rflags
    let t := t.setRip (if s.mode64 then s.sys.lstar else s.sys.cstar)
    let t := t.setRflags (syscallFlags s.rflags s.sys.fmask)
    return t.enterKernel (starKernel s.sys.star &&& 0xFFFC) (starKernel s.sys.star + 8))

/-- R345. -/
def execSysenter (s : State) : Host.Outcome State Fault Refusal :=
  finish s (do
    s.rejectFred
    raiseIf (s.sys.sysenterCs &&& 0xFFFC == 0) (excGp 0)
    let cs : Half := s.sys.sysenterCs.setWidth 16 &&& 0xFFFC
    let t := s.setRflags (setBit (setBit s.rflags 9 false) 16 false)
    let t := (t.setReg .rsp s.sys.sysenterEsp).setRip s.sys.sysenterEip
    return t.enterKernel cs (cs + 8))

/-- R346. -/
def execSysret (p : Pfx) (s : State) : Host.Outcome State Fault Refusal :=
  finish s (do
    s.requireCpl0
    raiseIf s.fred excUd
    raiseIf (ioplVifVip (s.reg .r11)) (excGp 0)
    raiseIf (p.w && !s.canonical (s.reg .rcx)) (excGp 0)
    let t := s.setRip (if p.w then s.reg .rcx else low32 (s.reg .rcx))
    let t := t.setRflags (sysretFlags (s.reg .r11))
    return t.enterUser (starUser s.sys.star + (if p.w then 16 else 0)) (starUser s.sys.star + 8) p.w)

/-- R347. -/
def execSysexit (p : Pfx) (s : State) : Host.Outcome State Fault Refusal :=
  finish s (do
    raiseIf (!s.cpl0 || s.sys.sysenterCs &&& 0xFFFC == 0) (excGp 0)
    raiseIf (p.w && !(s.canonical (s.reg .rcx) && s.canonical (s.reg .rdx))) (excGp 0)
    let cs : Half := s.sys.sysenterCs.setWidth 16
    let t := s.setReg .rsp (if p.w then s.reg .rcx else low32 (s.reg .rcx))
    let t := t.setRip (if p.w then s.reg .rdx else low32 (s.reg .rdx))
    return t.enterUser (cs + (if p.w then 32 else 16)) (cs + (if p.w then 40 else 24)) p.w)

end Sys2Proof.Machine
end

