-- ==== Sys2Proof/Machine/Fred.lean ====
section
/-! DEFINITION. ERETU and ERETS (R350, R351, R27). The frame and the flow are PRESUMED, the family's (entry 19). -/

namespace Sys2Proof.Machine

/-- The FRED return frame: five items above the error code (entry 19). -/
structure FredFrame where
  rip   : Word
  cs    : Word
  flags : Word
  rsp   : Word
  ss    : Word
deriving DecidableEq, Repr

/-- The frame read, the error code skipped. -/
def State.fredFrame (s : State) : Res FredFrame := do
  let rip ← s.popAt .w64 1
  let cs ← s.popAt .w64 2
  let flags ← s.popAt .w64 3
  let rsp ← s.popAt .w64 4
  let ss ← s.popAt .w64 5
  return { rip := rip, cs := cs, flags := flags, rsp := rsp, ss := ss }

/-- ERETU and ERETS exist in 64-bit mode with CR4.FRED = 1, at CPL 0 (R350). -/
def State.requireFred (s : State) : Res Unit := do
  raiseIf (s.compat || !s.fred) excUd
  raiseIf (!s.cpl0) (excGp 0)

/-- IOPL, VM, VIF, VIP and the reserved bits of the image must be 0 (R27, R350, R351). -/
def fredFlagsOk (image : Word) : Bool := image &&& ~~~(definedFlags ||| 2) == 0

/-- The stack level, IA32_FRED_CONFIG bits 1:0 (entry 19). -/
def State.stackLevel (s : State) : Word := s.plat.fredConfig &&& 3

/-- `newCS` and `newSS` are what SYSRET would load from IA32_STAR: the L bit of the target, or none (R350). -/
def State.starCompatible (s : State) (cs ss : Half) : Option Bool :=
  if ss = (starUser s.sys.star + 8) ||| 3 then
    if cs = (starUser s.sys.star + 16) ||| 3 then some true
    else if cs = starUser s.sys.star ||| 3 then some false
    else none
  else none

/-- Bit 18 of the SS image unblocks NMI (R64, R351, entry 19). -/
def State.fredNmi (s : State) (f : FredFrame) : State := s.setNmiBlocked (s.nmiBlocked && !bit f.ss 18)

/-- R350. RSP takes all 64 bits of the frame, also for a return to compatibility mode, and bit 16 of the SS item sets no shadow of STI
(DESIGN CHOICE, entry 19). -/
def execEretu (s : State) : Host.Outcome State Fault Refusal :=
  finish s (do
    s.requireFred
    raiseIf (s.stackLevel != 0) (excGp 0)
    let f ← s.fredFrame
    match s.starCompatible (f.cs.setWidth 16) (f.ss.setWidth 16) with
    | none => raiseGp0
    | some l =>
      raiseIf (!fredFlagsOk f.flags) (excGp 0)
      let rip ← s.returnRip l f.rip
      let t := ((s.setReg .rsp f.rsp).setRip rip).setRflags (legalFlags f.flags)
      let t := (t.setGs ⟨s.gs.sel, s.sys.kernelGsBase⟩).setSys { s.sys with kernelGsBase := s.gs.base }
      return (t.enterUser (f.cs.setWidth 16) (f.ss.setWidth 16) l).fredNmi f)

/-- R351: CS and SS are not written, and the selectors that the frame holds for them, bits 15:0 of the CS and SS items, are neither
compared with the current ones nor checked (DESIGN CHOICE, entry 19). Bit 16 of the SS item sets the shadow of STI (PRESUMED, entry
19). -/
def execErets (s : State) : Host.Outcome State Fault Refusal :=
  finish s (do
    s.requireFred
    let f ← s.fredFrame
    raiseIf (!fredFlagsOk f.flags) (excGp 0)
    let level := (f.cs >>> 16) &&& 3
    raiseIf (level > s.stackLevel) (excGp 0)
    let rip ← s.returnRip true f.rip
    let t := ((s.setReg .rsp f.rsp).setRip rip).setRflags (legalFlags f.flags)
    let t := t.setPlat { s.plat with fredConfig := mergeBits s.plat.fredConfig 3 level }
    return (t.setStiBlocked (bit f.ss 16)).fredNmi f)

end Sys2Proof.Machine
end

