-- ==== Sys2Proof/Machine/Msr.lean ====
section
/-! DEFINITION. Model-specific registers (R54 to R62), RDMSR and WRMSR (R275 to R280). The MSR addresses and the
reserved-bit checks that the spec does not print are entry 15. -/

namespace Sys2Proof.Machine

/-! ## Reads -/

/-- The VMX capability MSRs with the bits of Table 16 forced (R62). -/
def vmxCap (c : Config) (i : Nat) : Option Word :=
  if i = 0x483 then some (setBit (setBit c.vmxExitCtls 9 true) 41 true)
  else if i = 0x484 then some (setBit (setBit c.vmxEntryCtls 9 true) 41 true)
  else if i = 0x485 then some (setBit c.vmxMisc 8 false)
  else if i = 0x486 then some (vmxCr0Fixed0 c)
  else if i = 0x487 then some (vmxCr0Fixed1 c)
  else if i = 0x488 then some (vmxCr4Fixed0 c)
  else if i = 0x489 then some (vmxCr4Fixed1 c)
  else if i = 0x48B then some (setBit c.vmxProcbasedCtls2 39 false)
  else if i = 0x48F then some (setBit (setBit c.vmxTrueExitCtls 9 true) 41 true)
  else if i = 0x490 then some (setBit (setBit c.vmxTrueEntryCtls 9 true) 41 true)
  else none

/-- Entry `i - base` of a bank of registers. -/
def bankRead (l : List Word) (base i : Nat) : Option Word := if base ≤ i then l[i - base]? else none

/-- The bank with entry `i - base` written. -/
def bankWrite (l : List Word) (base i : Nat) (v : Word) : Option (List Word) :=
  if base ≤ i ∧ i < base + l.length then some (l.set (i - base) v) else none

/-- The MSRs that hold a plain value, with their names' addresses; none where `i` is no such MSR (R54 to R61). Bits 63:1 of
IA32_XAPIC_DISABLE_STATUS (0xBD) read 0: the rule gives bit 0 alone (R56, PRESUMED, entry 15). -/
def State.readPlainMsr (s : State) (i : Nat) : Option Word :=
  if i = 0x1B then some s.plat.apicBase
  else if i = 0x3B then some s.cnt.tscAdjust
  else if i = 0x3C then some s.plat.sipiPtr
  else if i = 0x9B then some s.plat.smmMonitorCtl
  else if i = 0xBD then some 1
  else if i = 0xFE then some (setBit s.cfg.mtrrCap 8 false)
  else if i = 0x10A then some (setBit s.cfg.archCapabilities 21 true)
  else if i = 0x174 then some s.sys.sysenterCs
  else if i = 0x175 then some s.sys.sysenterEsp
  else if i = 0x176 then some s.sys.sysenterEip
  else if i = 0x179 then some s.plat.mcgCap
  else if i = 0x17A then some s.plat.mcgStatus
  else if i = 0x1A0 then some s.plat.miscEnable
  else if i = 0x1D0 then some s.plat.fredStkLvls
  else if i = 0x1D4 then some s.plat.fredConfig
  else if i = 0x1D9 then some s.plat.debugCtl
  else if i = 0x277 then some s.plat.pat
  else if i = 0x2FF then some s.plat.mtrrDefType
  else if i = 0x38D then some s.cnt.fixedCtrCtrl
  else if i = 0x38F then some s.cnt.perfGlobalCtrl
  else if i = 0x560 then some s.cnt.rtitOutputBase
  else if i = 0x561 then some s.cnt.rtitOutputMask
  else if i = 0x570 then some s.cnt.rtitCtl
  else if i = 0x571 then some s.cnt.rtitStatus
  else if i = 0x572 then some s.cnt.rtitCr3Match
  else if i = 0x6A0 then some s.cet.uCet
  else if i = 0x6A2 then some s.cet.sCet
  else if i = 0x6A4 then some s.cet.pl0Ssp
  else if i = 0x6A5 then some s.cet.pl1Ssp
  else if i = 0x6A6 then some s.cet.pl2Ssp
  else if i = 0x6A7 then some s.cet.pl3Ssp
  else if i = 0x6A8 then some s.cet.intSspTable
  else if i = 0x6E0 then some s.cnt.tscDeadline
  else if i = 0xDA0 then some s.plat.xss
  else if i = 0x14CE then some s.cnt.lbrCtl
  else if i = 0x14CF then some s.cnt.lbrDepth
  else if i = 0xC0000080 then some s.efer
  else if i = 0xC0000081 then some s.sys.star
  else if i = 0xC0000082 then some s.sys.lstar
  else if i = 0xC0000083 then some s.sys.cstar
  else if i = 0xC0000084 then some s.sys.fmask
  else if i = 0xC0000100 then some s.fs.base
  else if i = 0xC0000101 then some s.gs.base
  else if i = 0xC0000102 then some s.sys.kernelGsBase
  else if i = 0xC0000103 then some s.cnt.tscAux
  else vmxCap s.cfg i

/-- Counter `i` counts: enabled by bit 22 of its event selector and bit `i` of IA32_PERF_GLOBAL_CTRL (R60, entry 13). -/
def State.pmcCounts (s : State) (i : Nat) : Bool := bit (s.cnt.perfEvtSel.getD i 0) 22 && bit s.cnt.perfGlobalCtrl i

/-- Fixed counter `i` counts: enabled by its field of IA32_FIXED_CTR_CTRL and bit `32 + i` of IA32_PERF_GLOBAL_CTRL. -/
def State.fixedCounts (s : State) (i : Nat) : Bool :=
  (s.cnt.fixedCtrCtrl >>> (4 * i)) &&& 3 != 0 && bit s.cnt.perfGlobalCtrl (32 + i)

/-- The registers of one machine-check bank: CTL, STATUS, ADDR, MISC, four apart from 0x400 on (R60, entry 15). -/
def PlatformMsrs.mcRead (m : PlatformMsrs) (i : Nat) : Option Word :=
  if i % 4 = 0 then m.mcCtl[(i - 0x400) / 4]?
  else if i % 4 = 1 then m.mcStatus[(i - 0x400) / 4]?
  else if i % 4 = 2 then m.mcAddr[(i - 0x400) / 4]?
  else m.mcMisc[(i - 0x400) / 4]?

/-- The banks of registers: counters that do not count, event selectors, variable MTRRs, machine-check banks, Intel PT address
ranges, LBRs (R57, R60, R61). -/
def State.readBankMsr (s : State) (i : Nat) : Option Word :=
  if 0xC1 ≤ i ∧ i < 0xC9 then if s.pmcCounts (i - 0xC1) then none else bankRead s.cnt.pmc 0xC1 i
  else if 0x309 ≤ i ∧ i < 0x310 then if s.fixedCounts (i - 0x309) then none else bankRead s.cnt.fixedCtr 0x309 i
  else if 0x186 ≤ i ∧ i < 0x190 then bankRead s.cnt.perfEvtSel 0x186 i
  else if 0x200 ≤ i ∧ i < 0x214 then
    if i % 2 = 0 then s.plat.mtrrPhysBase[(i - 0x200) / 2]? else s.plat.mtrrPhysMask[(i - 0x200) / 2]?
  else if 0x400 ≤ i ∧ i < 0x480 then s.plat.mcRead i
  else if 0x580 ≤ i ∧ i < 0x588 then bankRead s.cnt.rtitAddr 0x580 i
  else if 0x1200 ≤ i ∧ i < 0x1300 then bankRead s.cnt.lbrInfo 0x1200 i
  else if 0x1500 ≤ i ∧ i < 0x1600 then bankRead s.cnt.lbrFrom 0x1500 i
  else if 0x1600 ≤ i ∧ i < 0x1700 then bankRead s.cnt.lbrTo 0x1600 i
  else none

/-- The MSRs whose value no rule fixes: the TSC, the counters that count and the x2APIC registers (R60, R458, entries 13,
14). -/
def State.freeMsr (s : State) (i : Nat) : Bool :=
  decide (i = 0x10) || (decide (0xC1 ≤ i) && decide (i < 0xC1 + s.cnt.pmc.length)) ||
  (decide (0x309 ≤ i) && decide (i < 0x309 + s.cnt.fixedCtr.length)) || s.cfg.x2apicReadable.contains i

/-- The x2APIC registers have 32 bits, but for the interrupt command register (R458, entry 14). -/
def apicIs32 (i : Nat) : Bool := decide (0x800 ≤ i) && decide (i < 0x900) && decide (i ≠ 0x830)

/-- The value of a free MSR: the x2APIC ID is this processor's, the task-priority register shows CR8 in bits 7:4 (R458,
entry 14). -/
def State.freeMsrValue (s : State) (i : Nat) : Word :=
  if i = 0x802 then s.cfg.apicId.setWidth 64
  else if i = 0x808 then (s.cr8 <<< 4) ||| (s.drawWord.1 &&& 0xF)
  else if apicIs32 i then low32 s.drawWord.1
  else s.drawWord.1

/-- `MSR[i]` read: the value and the state, in which a free value may have been used. #GP(0) where there is no such
MSR (R275). -/
def State.readMsr (s : State) (i : Nat) : Res (Word × State) :=
  match s.readPlainMsr i with
  | some v => .ok (v, s)
  | none => match s.readBankMsr i with
    | some v => .ok (v, s)
    | none => if s.freeMsr i then .ok (s.freeMsrValue i, s.drawWord.2) else raiseGp0

/-! ## Writes -/

/-- A memory type of an MTRR (entry 15). -/
def mtrrType (t : Word) : Bool := [0, 1, 4, 5, 6].contains t.toNat

/-- The eight memory types of IA32_PAT (entry 15). -/
def patOk (v : Word) : Bool :=
  [0, 1, 2, 3, 4, 5, 6, 7].all (fun k => [0, 1, 4, 5, 6, 7].contains ((v >>> (8 * k)) &&& 0xFF).toNat)

/-- The check that `WRMSR` makes before it stores `v` in MSR `i` (R276 to R280, R54, R57; entry 15). False is #GP(0). -/
def State.msrWriteOk (s : State) (i : Nat) (v : Word) : Bool :=
  let pa := decide (v.toNat < 2 ^ s.cfg.maxPA)
  if i = 0xC0000080 then bit v 0 && bit v 8 && bit v 11 && v &&& ~~~0xD01 == 0
  else if i = 0x1B then bit v 10 && bit v 11 && v &&& 0x2FF == 0 && pa
  else if i = 0x3C then !s.biosDone && pa && v &&& 0xFFE == 0
  else if i = 0x2FF then !bit v 10 && v &&& ~~~0x8FF == 0 && mtrrType (v &&& 0xFF)
  else if i = 0x277 then patOk v
  else if 0x200 ≤ i ∧ i < 0x214 then
    pa && (if i % 2 = 0 then v &&& 0xF00 == 0 && mtrrType (v &&& 0xFF) else v &&& 0x7FF == 0)
  else if 0x6A4 ≤ i ∧ i ≤ 0x6A7 then s.canonical v && v &&& 3 == 0
  else if i = 0x6A0 ∨ i = 0x6A2 then s.canonical v && v &&& 0x3C0 == 0
  else if (0x580 ≤ i ∧ i < 0x588) ∨ i = 0x6A8 ∨ i = 0x175 ∨ i = 0x176 ∨ i = 0xC0000082 ∨ i = 0xC0000083 ∨ i = 0xC0000100 ∨
      i = 0xC0000101 ∨ i = 0xC0000102 then s.canonical v
  else if i = 0x1D4 then s.canonical v && v &&& s.cfg.fredConfigReserved == 0
  else if i = 0x9B then s.inSmm
  else if i = 0xC0000084 ∨ i = 0xC0000103 then v >>> 32 == 0
  else if 0x400 ≤ i ∧ i < 0x480 then i % 4 == 0 || v == 0
  else if i = 0x808 then v >>> 8 == 0
  else if apicIs32 i then v >>> 32 == 0
  else true

/-- The write of an MSR that holds a plain value; none where `i` is no writable MSR of that kind. -/
def State.writePlainMsr (s : State) (i : Nat) (v : Word) : Option State :=
  if i = 0x10 then some (s.setCnt { s.cnt with tsc := v })
  else if i = 0x1B then some (s.setPlat { s.plat with apicBase := setBit v 8 (bit s.plat.apicBase 8) })
  else if i = 0x3B then some (s.setCnt { s.cnt with tscAdjust := v })
  else if i = 0x3C then some (s.setPlat { s.plat with sipiPtr := v })
  else if i = 0x9B then some (s.setPlat { s.plat with smmMonitorCtl := v })
  else if i = 0x174 then some (s.setSys { s.sys with sysenterCs := v })
  else if i = 0x175 then some (s.setSys { s.sys with sysenterEsp := v })
  else if i = 0x176 then some (s.setSys { s.sys with sysenterEip := v })
  else if i = 0x17A then some (s.setPlat { s.plat with mcgStatus := v })
  else if i = 0x1A0 then some (s.setPlat { s.plat with miscEnable := v })
  else if i = 0x1D0 then some (s.setPlat { s.plat with fredStkLvls := v })
  else if i = 0x1D4 then some (s.setPlat { s.plat with fredConfig := v })
  else if i = 0x1D9 then some (s.setPlat { s.plat with debugCtl := v })
  else if i = 0x277 then some (s.setPlat { s.plat with pat := v })
  else if i = 0x2FF then some (s.setPlat { s.plat with mtrrDefType := v })
  else if i = 0x38D then some (s.setCnt { s.cnt with fixedCtrCtrl := v })
  else if i = 0x38F then some (s.setCnt { s.cnt with perfGlobalCtrl := v })
  else if i = 0x560 then some (s.setCnt { s.cnt with rtitOutputBase := v })
  else if i = 0x561 then some (s.setCnt { s.cnt with rtitOutputMask := v })
  else if i = 0x570 then some (s.setCnt { s.cnt with rtitCtl := v })
  else if i = 0x571 then some (s.setCnt { s.cnt with rtitStatus := v })
  else if i = 0x572 then some (s.setCnt { s.cnt with rtitCr3Match := v })
  else if i = 0x6A0 then some (s.setCet { s.cet with uCet := v })
  else if i = 0x6A2 then some (s.setCet { s.cet with sCet := v })
  else if i = 0x6A4 then some (s.setCet { s.cet with pl0Ssp := v })
  else if i = 0x6A5 then some (s.setCet { s.cet with pl1Ssp := v })
  else if i = 0x6A6 then some (s.setCet { s.cet with pl2Ssp := v })
  else if i = 0x6A7 then some (s.setCet { s.cet with pl3Ssp := v })
  else if i = 0x6A8 then some (s.setCet { s.cet with intSspTable := v })
  else if i = 0x6E0 then some (s.setCnt { s.cnt with tscDeadline := v })
  else if i = 0xDA0 then some (s.setPlat { s.plat with xss := v })
  else if i = 0x14CE then some (s.setCnt { s.cnt with lbrCtl := v })
  else if i = 0x14CF then some (s.setCnt { s.cnt with lbrDepth := v })
  else if i = 0xC0000080 then some s
  else if i = 0xC0000081 then some (s.setSys { s.sys with star := v })
  else if i = 0xC0000082 then some (s.setSys { s.sys with lstar := v })
  else if i = 0xC0000083 then some (s.setSys { s.sys with cstar := v })
  else if i = 0xC0000084 then some (s.setSys { s.sys with fmask := v })
  else if i = 0xC0000100 then some (s.setFs ⟨s.fs.sel, v⟩)
  else if i = 0xC0000101 then some (s.setGs ⟨s.gs.sel, v⟩)
  else if i = 0xC0000102 then some (s.setSys { s.sys with kernelGsBase := v })
  else if i = 0xC0000103 then some (s.setCnt { s.cnt with tscAux := v })
  else none

/-- Each counter that counts takes a free value; `i` is the number of the first, `draw` its draw number (entry 13). -/
def settle (counts : Nat → Bool) (draw : Nat) : Nat → List Word → List Word
  | _, [] => []
  | i, v :: vs => (if counts i then Config.freeWord (draw + i) else v) :: settle counts draw (i + 1) vs

/-- The counters at the moment their enables are about to change: each that counts takes a free value and holds it from then
on (R60, entry 13). -/
def State.settleCounters (s : State) : State :=
  (s.setCnt { s.cnt with
    pmc := settle s.pmcCounts s.draws 0 s.cnt.pmc
    fixedCtr := settle s.fixedCounts (s.draws + s.cnt.pmc.length) 0 s.cnt.fixedCtr }).setDraws
    (s.draws + (s.cnt.pmc.length + s.cnt.fixedCtr.length))

/-- The MSRs that enable counters. -/
def enablesCounters (i : Nat) : Bool := (decide (0x186 ≤ i) && decide (i < 0x190)) || i == 0x38D || i == 0x38F

/-- One register of a machine-check bank written; none where the bank does not exist. -/
def PlatformMsrs.mcWrite (m : PlatformMsrs) (i : Nat) (v : Word) : Option PlatformMsrs :=
  if m.mcCtl.length ≤ (i - 0x400) / 4 then none
  else if i % 4 = 0 then some { m with mcCtl := m.mcCtl.set ((i - 0x400) / 4) v }
  else if i % 4 = 1 then some { m with mcStatus := m.mcStatus.set ((i - 0x400) / 4) v }
  else if i % 4 = 2 then some { m with mcAddr := m.mcAddr.set ((i - 0x400) / 4) v }
  else some { m with mcMisc := m.mcMisc.set ((i - 0x400) / 4) v }

/-- The write of a bank register; none where `i` is none. -/
def State.writeBankMsr (s : State) (i : Nat) (v : Word) : Option State :=
  if 0xC1 ≤ i ∧ i < 0xC9 then (bankWrite s.cnt.pmc 0xC1 i v).map (fun l => s.setCnt { s.cnt with pmc := l })
  else if 0x186 ≤ i ∧ i < 0x190 then
    (bankWrite s.cnt.perfEvtSel 0x186 i v).map (fun l => s.setCnt { s.cnt with perfEvtSel := l })
  else if 0x200 ≤ i ∧ i < 0x214 then
    if i % 2 = 0 then some (s.setPlat { s.plat with mtrrPhysBase := s.plat.mtrrPhysBase.set ((i - 0x200) / 2) v })
    else some (s.setPlat { s.plat with mtrrPhysMask := s.plat.mtrrPhysMask.set ((i - 0x200) / 2) v })
  else if 0x309 ≤ i ∧ i < 0x310 then
    (bankWrite s.cnt.fixedCtr 0x309 i v).map (fun l => s.setCnt { s.cnt with fixedCtr := l })
  else if 0x400 ≤ i ∧ i < 0x480 then (s.plat.mcWrite i v).map s.setPlat
  else if 0x580 ≤ i ∧ i < 0x588 then
    (bankWrite s.cnt.rtitAddr 0x580 i v).map (fun l => s.setCnt { s.cnt with rtitAddr := l })
  else if 0x1200 ≤ i ∧ i < 0x1300 then
    (bankWrite s.cnt.lbrInfo 0x1200 i v).map (fun l => s.setCnt { s.cnt with lbrInfo := l })
  else if 0x1500 ≤ i ∧ i < 0x1600 then
    (bankWrite s.cnt.lbrFrom 0x1500 i v).map (fun l => s.setCnt { s.cnt with lbrFrom := l })
  else if 0x1600 ≤ i ∧ i < 0x1700 then
    (bankWrite s.cnt.lbrTo 0x1600 i v).map (fun l => s.setCnt { s.cnt with lbrTo := l })
  else none

/-- A write to an x2APIC register is reported; the task-priority register is CR8 (R454, R458, entry 14). -/
def State.writeApic (s : State) (i : Nat) (v : Word) : State :=
  let s := s.setApicWrites (⟨i, v⟩ :: s.apicWrites)
  if i = 0x808 then s.setCr8 ((v >>> 4) &&& 0xF) else s

/-- `MSR[i] <- v`: #GP(0) on a check that fails and where there is no writable MSR (R276 to R280). -/
def State.writeMsr (s : State) (i : Nat) (v : Word) : Res State :=
  if s.msrWriteOk i v then
    match s.writePlainMsr i v with
    | some t => .ok t
    | none => match s.writeBankMsr i v with
      | some t => .ok t
      | none => if s.cfg.x2apicWritable.contains i then .ok (s.writeApic i v) else raiseGp0
  else raiseGp0

/-- ECX: the index. -/
def State.msrIndex (s : State) : Nat := (low32 (s.reg .rcx)).toNat

/-- EDX:EAX (R275, R276). -/
def State.edxEax (s : State) : Word := (s.reg .rdx <<< 32) ||| low32 (s.reg .rax)

/-- EDX:EAX written, the upper halves cleared (R275). -/
def State.setEdxEax (s : State) (v : Word) : State := (s.setReg .rax (low32 v)).setReg .rdx (v >>> 32)

/-! ## Meanings -/

/-- R275. -/
def execRdmsr (s : State) : Host.Outcome State Fault Refusal :=
  finish s (do
    s.requireCpl0
    let (v, t) ← s.readMsr s.msrIndex
    return (t.setEdxEax v).toNext)

/-- R276 to R280; the counters settle before their enables change. -/
def execWrmsr (s : State) : Host.Outcome State Fault Refusal :=
  finish s (do
    s.requireCpl0
    let t ← (if enablesCounters s.msrIndex then s.settleCounters else s).writeMsr s.msrIndex s.edxEax
    return t.toNext)

end Sys2Proof.Machine
end

