-- ==== Sys2Proof/Machine/PortIO.lean ====
section
/-! DEFINITION. IN, OUT, INS and OUTS (R94, R298 to R304). -/

namespace Sys2Proof.Machine

/-- The width of an IN or OUT in bytes: 4, or 2 with 0x66 (R299), over which REX.W wins (R135, R160). -/
def ioSize (p : Pfx) : OpSize := if p.osz && !p.w then .w16 else .w32

/-- The qualification of an I/O VM exit (entry 26): size, direction, immediate form, port. -/
def ioQualification (width : Nat) (isIn imm : Bool) (port : Half) : Word :=
  BitVec.ofNat 64 (width - 1) ||| (if isIn then 8 else 0) ||| (if imm then 0x40 else 0) ||| (port.setWidth 64 <<< 16)

/-- The bit of a port in the I/O bitmaps (R298, R374; entry 26): one page for the ports below 0x8000, one for the others. -/
def State.ioBit (s : State) (c : VmcsControls) (port : Nat) : Bool :=
  (s.byteAt ((if port < 0x8000 then c.ioBitmapA else c.ioBitmapB).toNat / 4096 * 4096 + port % 0x8000 / 8)).getLsbD (port % 8)

/-- An access of `width` bytes at `port` exits (R298, R374): with the bitmaps where a bit of its ports is set or it passes port
0xFFFF, without them where every I/O instruction does. -/
def State.ioExits (s : State) (c : VmcsControls) (port : Half) (width : Nat) : Bool :=
  if c.useIoBitmaps then
    decide (0x10000 < port.toNat + width) || (List.range width).any (fun k => s.ioBit c (port.toNat + k))
  else c.ioExiting

/-- R298: #GP(0) at CPL 3 first, then the VM exit of R374. -/
def State.checkIo (s : State) (width : Nat) (isIn imm : Bool) (port : Half) : Res Unit := do
  raiseIf s.cpl3 (excGp 0)
  match s.vmx with
  | .nonRoot v => if s.ioExits v.ctl port width then .error (.vmExit 30 (ioQualification width isIn imm port)) else .ok ()
  | _ => .ok ()

/-- `PortRead(port, n)`: a free value (R94, U18, entry 12). -/
def State.portRead (s : State) (port : Half) (width : Nat) : Word := (Config.freePort s.draws port width).setWidth 64

/-- `PortWrite(port, n, v)`: reported (R94, R484). -/
def State.portWrite (s : State) (port : Half) (width : Nat) (v : DWord) : State :=
  s.setPortWrites (⟨port, width, v⟩ :: s.portWrites)

/-- DX. -/
def State.dx (s : State) : Half := (s.reg .rdx).setWidth 16

/-- `AL <- PortRead(port, 1)`. -/
def State.inAl (s : State) (imm : Bool) (port : Half) : Res State := do
  s.checkIo 1 true imm port
  return ((s.setDraws (s.draws + 1)).setAl (s.portRead port 1)).toNext

/-- `AX / EAX <- PortRead(port, n)`; a 32-bit result zero-extends (R299). -/
def State.inEax (s : State) (p : Pfx) (imm : Bool) (port : Half) : Res State := do
  s.checkIo (ioSize p).bytes true imm port
  return ((s.setDraws (s.draws + 1)).setRegSz (ioSize p) .rax (s.portRead port (ioSize p).bytes)).toNext

/-- `PortWrite(port, 1, AL)`. -/
def State.outAl (s : State) (imm : Bool) (port : Half) : Res State := do
  s.checkIo 1 false imm port
  return (s.portWrite port 1 ((s.reg .rax &&& 0xFF).setWidth 32)).toNext

/-- `PortWrite(port, n, AX / EAX)`. -/
def State.outEax (s : State) (p : Pfx) (imm : Bool) (port : Half) : Res State := do
  s.checkIo (ioSize p).bytes false imm port
  return (s.portWrite port (ioSize p).bytes (((ioSize p).trunc (s.reg .rax)).setWidth 32)).toNext

/-! ## Meanings -/

/-- R299. -/
def execInAlImm (imm : BitVec 8) (s : State) : Host.Outcome State Fault Refusal :=
  finish s (s.inAl true (imm.setWidth 16))

/-- R299. -/
def execInEaxImm (p : Pfx) (imm : BitVec 8) (s : State) : Host.Outcome State Fault Refusal :=
  finish s (s.inEax p true (imm.setWidth 16))

/-- R301. -/
def execOutImmAl (imm : BitVec 8) (s : State) : Host.Outcome State Fault Refusal :=
  finish s (s.outAl true (imm.setWidth 16))

/-- R301. -/
def execOutImmEax (p : Pfx) (imm : BitVec 8) (s : State) : Host.Outcome State Fault Refusal :=
  finish s (s.outEax p true (imm.setWidth 16))

/-- R300. -/
def execInAlDx (s : State) : Host.Outcome State Fault Refusal := finish s (s.inAl false s.dx)

/-- R300. -/
def execInEaxDx (p : Pfx) (s : State) : Host.Outcome State Fault Refusal := finish s (s.inEax p false s.dx)

/-- R304. -/
def execOutDxAl (s : State) : Host.Outcome State Fault Refusal := finish s (s.outAl false s.dx)

/-- R304. -/
def execOutDxEax (p : Pfx) (s : State) : Host.Outcome State Fault Refusal := finish s (s.outEax p false s.dx)

/-- R302: removed, before any privilege check. -/
def execInsb (s : State) : Host.Outcome State Fault Refusal := finish s raiseUd

/-- R302. -/
def execInsd (s : State) : Host.Outcome State Fault Refusal := finish s raiseUd

/-- R303. -/
def execOutsb (s : State) : Host.Outcome State Fault Refusal := finish s raiseUd

/-- R303. -/
def execOutsd (s : State) : Host.Outcome State Fault Refusal := finish s raiseUd

end Sys2Proof.Machine
end

