-- ==== Sys2Proof/Machine/Smm.lean ====
section
/-! DEFINITION. RSM (R353). The save area is held as named slots (entry 28). -/

namespace Sys2Proof.Machine

/-- SS as RSM loads it: the CPL is 0 or 3 (R41, R410, D38). -/
def legalSs (ss : SsReg) : SsReg := ⟨ss.sel, if ss.dpl = 3 then 3 else 0, ss.b⟩

/-- CS as RSM loads it: ring 0 is 64-bit mode (R410, D38). The selector is the saved one, whatever its RPL (DESIGN CHOICE, entry
28). -/
def legalCs (cs : CsReg) (ss : SsReg) : CsReg := ⟨cs.sel, cs.l || !(ss.dpl == 3)⟩

/-- RIP as RSM loads it: 32 bits in compatibility mode (R24). -/
def legalRip (m : SmmSave) : Word := if (legalCs m.cs m.ss).l then m.rip else low32 m.rip

/-- The state RSM restores: fixed bits of CR0 and CR4 forced, IOPL, VM, VIF, VIP forced to 0 (R27, R353, D38); the translation caches are
flushed (entry 3). A saved RIP that is not canonical in 64-bit mode, reserved bits of the saved CR3 and CR4, and bases of FS, GS, GDTR, IDTR, LDTR and
TR that are not canonical are loaded as they are (DESIGN CHOICE, entry 28). -/
def State.restoreSmm (s : State) (m : SmmSave) : State :=
  { s with
    gpr := m.gpr, rip := legalRip m, nextRip := legalRip m, rflags := legalFlags m.rflags
    cr0 := cr0Of m.cr0, cr3 := m.cr3, cr4 := cr4Of m.cr4
    cs := legalCs m.cs m.ss, ss := legalSs m.ss, ds := m.ds, es := m.es, fs := m.fs, gs := m.gs
    gdtr := m.gdtr, idtr := m.idtr, ldtr := m.ldtr, tr := m.tr
    inSmm := false
    tlb := Tlb.empty, stored := [] }

/-- R353: #UD outside SMM. -/
def execRsm (s : State) : Host.Outcome State Fault Refusal :=
  finish s (if s.inSmm then .ok (s.restoreSmm s.smmSave) else raiseUd)

end Sys2Proof.Machine
end

