-- ==== Sys2Proof/Machine/Smx.lean ====
section
/-! DEFINITION. GETSEC and its leaves, and the RLP wake-up (45_smx.md, R390 to R401). What the chipset and the platform
answer are inputs in State (entry 29); the leaves the spec does not describe are the baseline's (entry 30). -/

namespace Sys2Proof.Machine

/-! ## Parts -/

/-- `Shutdown(txt(code))` (R401). -/
def State.txtShutdown (s : State) (code : TxtError) : State := s.setActivity (.shutdown (.txt code))

/-- `SignalTXTMessage`. -/
def State.signal (s : State) (m : TxtMsg) : State := s.setTxt { s.txt with messages := m :: s.txt.messages }

/-- The ACRAM contents that copying `n` bytes from `src` to `dst` leaves, in canonical form (R396). -/
def copyCells (mem : List Host.Cell) (src dst : Nat) : Nat → List Host.Cell
  | 0 => []
  | n + 1 =>
    if Memory.read mem src = unlistedByte then copyCells mem (src + 1) (dst + 1) n
    else (dst, Memory.read mem src) :: copyCells mem (src + 1) (dst + 1) n

/-- ACRAM starts here (R112). -/
def acramBase : Nat := 0xFEB00000

/-- Field of the ACM header, `n` bytes at `off` (R392). -/
def State.acmField (s : State) (off n : Nat) : Word :=
  leWord ((List.range n).map (fun k => Memory.read s.acram (acramBase + off + k)))

/-- A write of 8 bytes at a physical address. The translation caches are empty then, so none can be stale (R396). -/
def State.physWrite8 (s : State) (pa : Nat) (v : Word) : Res State := do
  s.checkPa (pa + 7)
  return s.putBytes [pa, pa + 1, pa + 2, pa + 3, pa + 4, pa + 5, pa + 6, pa + 7] (leBytes 8 v)

/-- The address of slot `k` of the state save area: RIP, RSP, CR4, CR3, FRED_CONFIG, FRED_STKLVLS (R397, D41). -/
def State.ssaSlot (s : State) (base k : Nat) : Nat := base + s.cfg.ssaOffsets.getD k 0

/-- The six slots written (R397). R397 places the area inside the ACRAM and names no consequence of another address: there the slots
are written to the physical memory it names (DESIGN CHOICE, entry 29). -/
def State.saveSsa (s : State) (base : Nat) : Res State := do
  let s1 ← s.physWrite8 (s.ssaSlot base 4) s.plat.fredConfig
  let s2 ← s1.physWrite8 (s.ssaSlot base 5) s.plat.fredStkLvls
  let s3 ← s2.physWrite8 (s.ssaSlot base 2) s.cr4
  let s4 ← s3.physWrite8 (s.ssaSlot base 3) s.cr3
  let s5 ← s4.physWrite8 (s.ssaSlot base 0) s.nextRip
  s5.physWrite8 (s.ssaSlot base 1) (s.reg .rsp)

/-- EBX, ECX. -/
def State.ebx (s : State) : Nat := (low32 (s.reg .rbx)).toNat
def State.ecx (s : State) : Nat := (low32 (s.reg .rcx)).toNat

/-- An uncorrectable error in a machine-check bank: VAL and UC (R395, entry 29). -/
def uncorrectable (status : Word) : Bool := bit status 63 && bit status 61

/-- The machine-check tests of R395. -/
def State.machineCheckClear (s : State) : Bool :=
  (s.cfg.mcaHandling || !(s.plat.mcStatus.take (s.plat.mcgCap &&& 0xFF).toNat).any uncorrectable) &&
  !bit s.plat.mcgStatus 2 && !s.txt.ierr

/-- The module's place and size (R395, R98). -/
def State.acmPlaceOk (s : State) : Bool :=
  s.ebx % 4096 == 0 && s.ecx % 64 == 0 && decide (s.cfg.acmMinSize ≤ s.ecx) &&
  decide (s.ecx ≤ s.cfg.acramCapacity) && decide (s.ebx + s.ecx ≤ 2 ^ 32 - 1)

/-- The checks of R395 after the common ones. -/
def State.enterChecks (s : State) : Res Unit := do
  raiseIf (s.inVmx || bit s.cr0 30 || !s.cpl0 || !bit s.plat.apicBase 8 || !s.txt.present || s.smx.acMode || s.inSmm)
    (excGp 0)
  raiseIf (!s.machineCheckClear) (excGp 0)
  raiseIf (!s.acmPlaceOk) (excGp 0)
  raiseIf (!s.txt.secondaryReady) (excGp 0)

/-- R396 up to the copy: events masked, the translation caches flushed, the module in ACRAM, authenticated-code mode on. -/
def State.loadAcm (s : State) : State :=
  let t := s.setSmx { s.smx with maskSmi := true, maskInit := true, maskA20m := true, maskNmi := true, acMode := true }
  let t := t.setPlat { s.plat with miscEnable := s.plat.miscEnable &&& s.cfg.maskConst, debugCtl := 0 }
  ((t.setTlb Tlb.empty).signal .processorHold).setAcram (copyCells s.mem s.ebx acramBase s.ecx)

/-- What is wrong with the module before its signature is looked at, if anything (R396). -/
def State.acmKeyError (s : State) : Option TxtError :=
  if (s.acmField 8 4).setWidth 32 ≠ s.cfg.acmHeaderVersion ∨ s.acmField 0 2 ≠ 2 then some .unsupportedACM
  else if s.txt.keyMatches = false then some .authenticateFail
  else none

/-- A signature as SIGNATURE_LEN_CONST bytes (R396). -/
def State.fitSignature (s : State) (sig : List Byte) : List Byte := (List.range s.cfg.signatureLen).map (fun k => sig.getD k 0)

/-- SIGNATURE and COMPUTEDSIGNATURE copied to ACRAM, from SCRATCH.0 and from SCRATCH.SIGNATURE_LEN_CONST on (R396). -/
def State.copySignatures (s : State) : State :=
  s.setAcram (Memory.writeFrom
    (Memory.writeFrom s.acram (acramBase + s.cfg.acmScratch) (s.fitSignature s.txt.signature))
    (acramBase + s.cfg.acmScratch + s.cfg.signatureLen) (s.fitSignature s.txt.computedSignature))

/-- What is wrong with the module from its signature on, if anything (R396). -/
def State.acmError (s : State) : Option TxtError :=
  if s.fitSignature s.txt.signature ≠ s.fitSignature s.txt.computedSignature then some .authenticateFail
  else if (s.acmField 32 4).toNat % 64 ≠ 0 then some .badACMFormat
  else if s.acmField 40 4 &&& s.cfg.fredConfigReserved ≠ 0 then some .badACMFormat
  else none

/-- CR4 in the module: FRED, SMXE, PAE (R34, R394). -/
def acmCr4 : Word := 0x0000000100004020

/-- R396 after the save: the environment of the module (R394). -/
def State.enterAcm (s : State) : State :=
  let t := s.setCr0 (cr0Of (setBit (setBit s.cr0 18 false) 16 true))
  let t := (t.setCr4 acmCr4).setRflags 2
  let t := t.setReg .rsp 0xFEB00400
  let t := t.setCr3 (s.acmField 36 4)
  let t := t.setPlat { s.plat with fredStkLvls := 0, fredConfig := s.acmField 40 4, debugCtl := 0 }
  let t := t.setDbg { s.dbg with dr7 := 0x400 }
  ((t.signal .openPrivate).signal .openLocality3).setRip (s.acmField 44 4)

/-- The module authenticated, the state saved and the module entered (R396, R397). No debug trap stays pending (entry 23). -/
def State.runAcm (s : State) : Res State :=
  match s.acmError with
  | some e => .ok (s.txtShutdown e)
  | none => do
    let t ← s.saveSsa (s.acmField 32 4).toNat
    return { t.enterAcm with dbPending := false, bpHits := 0, stored := [] }

/-- ENTERACCS and SENTER (R395 to R397). -/
def State.enterAccs (s : State) : Res State := do
  s.enterChecks
  s.checkPa (s.ebx + s.ecx - 1)
  match s.loadAcm.acmKeyError with
  | some e => return s.loadAcm.txtShutdown e
  | none => s.loadAcm.copySignatures.runAcm

/-- Slot `k` of the area at `base` (R398). -/
def State.ssaRead (s : State) (base k : Nat) : Res Word := s.physRead8 (s.ssaSlot base k)

/-- The events EXITAC unmasks (R398). -/
def State.exitMasks (s : State) : SmxFlags :=
  let f := { s.smx with maskInit := false, acMode := false }
  if s.smx.senter = false then { f with maskSmi := false, maskNmi := false, maskA20m := false }
  else if bit s.plat.smmMonitorCtl 0 = false then { f with maskSmi := false }
  else f

/-- GETSEC[EXITAC] (R398). CR4_MASK_CONST holds at least the reserved bits of CR4 (R9). A saved CR4 whose fixed bits are
wrong is refused (U5, entry 31). That the saved CR4.LA57 decides for the saved IA32_FRED_CONFIG too is DEDUCED (entry 45). -/
def State.exitAc (s : State) : Res State := do
  raiseIf (s.inVmx || (s.mode64 && !s.canonical (s.reg .rbx)) || !s.cpl0 || !s.smx.acMode || s.inSmm ||
    low32 (s.reg .rdx) != 0) (excGp 0)
  let base := (s.reg .r8).toNat
  raiseIf (base % 64 != 0 || decide (2 ^ s.cfg.maxPA ≤ base)) (excGp 0)
  let rip ← s.ssaRead base 0
  let rsp ← s.ssaRead base 1
  let cr4 ← s.ssaRead base 2
  let cr3 ← s.ssaRead base 3
  let config ← s.ssaRead base 4
  let levels ← s.ssaRead base 5
  raiseIf (s.cr3Reserved cr3 || !isCanonical (bit cr4 12) rip || !isCanonical (bit cr4 12) rsp ||
    cr4 &&& s.cfg.cr4MaskConst != 0 || s.cr4Reserved cr4 || config &&& s.cfg.fredConfigReserved != 0 || !isCanonical (bit cr4 12) config)
    (excGp 0)
  if cr4FixedOk cr4 = false then .error (.refuse .exitacFixedBits)
  else
    let t := ((((s.setAcram []).setTlb Tlb.empty).signal .closeLocality3).signal .lockSMRAM).signal .processorRelease
    let t := t.setSmx s.exitMasks
    let t := ((t.setCr3 cr3).setCr4 cr4).setReg .rsp rsp
    let t := t.setPlat { s.plat with fredConfig := config, fredStkLvls := levels }
    return t.setRip rip

/-- GETSEC[CAPABILITIES]: EAX is free (entry 30). -/
def State.getsecCapabilities (s : State) : State := (s.drawWord.2.setReg .rax (low32 s.drawWord.1)).toNext

/-- GETSEC[PARAMETERS]: EAX, EBX, ECX are free (entry 30). -/
def State.getsecParameters (s : State) : State :=
  let t := s.setDraws (s.draws + 3)
  let t := t.setReg .rax (low32 (Config.freeWord s.draws))
  let t := t.setReg .rbx (low32 (Config.freeWord (s.draws + 1)))
  (t.setReg .rcx (low32 (Config.freeWord (s.draws + 2)))).toNext

/-- The preconditions that SEXIT and WAKEUP share (entry 30). -/
def State.inSenter (s : State) : Bool :=
  !s.inVmx && s.cpl0 && bit s.plat.apicBase 8 && s.txt.present && s.smx.senter && !s.smx.acMode && !s.inSmm

/-- GETSEC[SEXIT]: unchanged by X86S (R400); PRESUMED, the baseline's (entry 30). -/
def State.sexit (s : State) : Res State := do
  raiseIf (!s.inSenter) (excGp 0)
  let t := s.setSmx { s.smx with senter := false, maskSmi := false, maskInit := false, maskA20m := false, maskNmi := false }
  return (t.signal .sexit).toNext

/-- GETSEC[SMCTRL]: PRESUMED, the baseline's (entry 30). -/
def State.smctrl (s : State) : Res State := do
  raiseIf (!s.cpl0) (excGp 0)
  raiseIf (!(s.ebx == 0 && s.smx.senter && !s.smx.acMode && !s.inSmm && (!s.inVmx || !bit s.plat.smmMonitorCtl 0))) (excGp 0)
  return (s.setSmx { s.smx with maskSmi := false }).toNext

/-- GETSEC[WAKEUP] on the initiating processor: PRESUMED, the baseline's (entry 30). -/
def State.wakeupIlp (s : State) : Res State := do
  raiseIf (!s.inSenter) (excGp 0)
  return (s.signal .wakeup).toNext

/-- The leaf in EAX (R390). -/
def State.leaf32 (s : State) : Nat := (low32 (s.reg .rax)).toNat

/-- R390: the common checks, then the leaf. -/
def execGetsec (s : State) : Host.Outcome State Fault Refusal :=
  finish s (
    if s.smxe = false then raiseUd
    else if s.nonRoot = true then .error (.vmExit 11 0)
    else if s.cfg.getsecLeaves.contains s.leaf32 = false then raiseUd
    else if s.leaf32 = 0 then .ok s.getsecCapabilities
    else if s.leaf32 = 2 then s.enterAccs
    else if s.leaf32 = 3 then s.exitAc
    else if s.leaf32 = 4 then (do
      let t ← s.enterAccs
      return t.setSmx { t.smx with senter := true })
    else if s.leaf32 = 5 then s.sexit
    else if s.leaf32 = 6 then .ok s.getsecParameters
    else if s.leaf32 = 7 then s.smctrl
    else if s.leaf32 = 8 then s.wakeupIlp
    else raiseUd)

/-! ## The RLP wake-up (R399) -/

/-- The loads of the JOIN structure at LT.MLE.JOIN (R393), of physical memory (PRESUMED, entry 32). -/
def State.joinField (s : State) (off : Nat) : Res Word := s.physRead8 (s.txt.mleJoin.toNat + off)

/-- The masks after the wake-up (R399). -/
def State.wakeMasks (s : State) : SmxFlags :=
  { s.smx with
    maskSmi := bit s.plat.smmMonitorCtl 0, maskA20m := true, maskNmi := true, maskInit := false, maskWakeup := true }

/-- The wake-up of a processor in SENTER sleep (R399). That LA57 of the JOIN structure's CR4 decides whether its RIP is canonical is
DEDUCED (entry 45). A CR4 that passes with PAE = 0 or PVI = 1 is loaded, and these two bits keep the values R33 fixes (DESIGN CHOICE,
entry 32). -/
def State.rlpWake (s : State) : Res State := do
  if bit s.plat.smmMonitorCtl 0 ≠ s.txt.ilpSmmMonitorCtl0 then return s.txtShutdown .illegalEvent
  else
    let t := (s.setSmx s.wakeMasks).setTlb Tlb.empty
    let rip ← s.joinField 0
    let cr3 ← s.joinField 8
    let cr4 ← s.joinField 16
    if s.cr3Reserved cr3 = true ∨ isCanonical (bit cr4 12) rip = false ∨ cr4 &&& s.cfg.cr4ReservedBitMask ≠ 0 ∨
        s.cr4Reserved cr4 = true then
      return t.txtShutdown .badJOINFormat
    else return (((t.setCr3 cr3).setCr4 (cr4Of cr4)).setRip rip).setActivity .running

end Sys2Proof.Machine
end

