-- ==== Sys2Proof/Machine/Vmx.lean ====
section
/-! DEFINITION. VM entry, SEAMRET and STM activation (R360 to R370, R373, R376, R377). What the spec leaves to the
baseline is entries 26 and 27. -/

namespace Sys2Proof.Machine

/-! ## Access-rights fields (R361) -/

def arDpl (ar : DWord) : BitVec 2 := ar.extractLsb' 5 2
def arL (ar : DWord) : Bool := ar.getLsbD 13
def arDB (ar : DWord) : Bool := ar.getLsbD 14

/-! ## Checks -/

/-- The checks of an event to be injected (PRESUMED, the family's, entry 26): a type that exists, NMI with vector 2, a hardware
exception with a vector below 32, an error code of 16 bits with the hardware exceptions that have one, 11 and 12 among them (R370),
and with no other event, no reserved bit, and an instruction length of at most 15 for a software event. The guest's IF is not looked at for
an external interrupt (DESIGN CHOICE, entry 26). -/
def VmcsControls.injectionOk (c : VmcsControls) : Bool :=
  let type := (c.entryIntrInfo.extractLsb' 8 3).toNat
  let vector : BitVec 8 := c.entryIntrInfo.setWidth 8
  !([1, 7].contains type) && (type != 2 || vector == 2) && (type != 3 || decide (vector.toNat < 32)) &&
  (c.entryIntrInfo.getLsbD 11 == (type == 3 && hasErrorCode vector)) && (c.entryIntrInfo &&& 0x7FFFF000 == 0) &&
  (!c.entryIntrInfo.getLsbD 11 || c.entryErrorCode >>> 16 == 0) && (decide (type < 4) || decide (c.entryInstrLen.toNat ≤ 15))

/-- Tables 13 to 15: host address-space size 1, IA-32e mode guest 1, unrestricted guest 0 (R362 to R364); and the event to be
injected, if there is one. -/
def VmcsControls.ok (c : VmcsControls) : Bool :=
  c.hostAddressSpaceSize && c.ia32eGuest && !c.unrestrictedGuest && (!c.entryIntrInfo.getLsbD 31 || c.injectionOk)

/-- A page address in the VMCS: aligned, below 2^MAXPA. -/
def State.pageAddrOk (s : State) (a : Word) : Bool := a &&& 0xFFF == 0 && decide (a.toNat < 2 ^ s.cfg.maxPA)

/-- The controls: R362 to R364, and the APIC-access page, the virtual-APIC page, the TPR shadow and the I/O bitmaps where they are
used (R380, R374, entry 26). -/
def State.ctlOk (s : State) (c : VmcsControls) : Bool :=
  c.ok && (!c.useIoBitmaps || (s.pageAddrOk c.ioBitmapA && s.pageAddrOk c.ioBitmapB)) && (!c.virtualizeApicAccesses || s.pageAddrOk c.apicAccessAddr) && (!c.useTprShadow || s.pageAddrOk c.virtualApicAddr) &&
  (!c.apicRegisterVirtualization || c.useTprShadow)

/-- RPL and TI of a host selector are 0 (entry 26). -/
def hostSelOk (sel : Half) : Bool := sel &&& 7 == 0

/-- CR0 and CR4 agree with the VMX capability MSRs of their fixed bits (R62, R369). -/
def State.fixedCrOk (s : State) (cr0 cr4 : Word) : Bool :=
  fixedOk cr0 (vmxCr0Fixed0 s.cfg) (vmxCr0Fixed1 s.cfg) && fixedOk cr4 (vmxCr4Fixed0 s.cfg) (vmxCr4Fixed1 s.cfg)

/-- CR4.CET needs CR0.WP (entry 26). -/
def cetWpOk (cr0 cr4 : Word) : Bool := !bit cr4 23 || bit cr0 16

/-- The host area: CS and TR not NULL (R372), CR0 and CR4 as their FIXED MSRs say (R369), and the baseline's canonical and
reserved-bit checks (entry 26). R367 and R372 do not say whose CR4.LA57 decides what is canonical: it is bit 12 of the host area's CR4
(DESIGN CHOICE, entry 26). -/
def State.hostOk (s : State) (h : VmcsHost) : Bool :=
  let c := isCanonical (bit h.cr4 12)
  !isNull h.csSel && !isNull h.trSel && hostSelOk h.csSel && hostSelOk h.ssSel && hostSelOk h.dsSel &&
  hostSelOk h.esSel && hostSelOk h.fsSel && hostSelOk h.gsSel && hostSelOk h.trSel &&
  s.fixedCrOk h.cr0 h.cr4 && cr4FixedOk h.cr4 && cetWpOk h.cr0 h.cr4 && !s.cr4Reserved h.cr4 && !s.cr3Reserved h.cr3 &&
  c h.fsBase && c h.gsBase && c h.trBase && c h.gdtrBase && c h.idtrBase && c h.rip

/-- The nine conditions of R367, and no other check on segments. -/
def VmcsGuest.segmentsOk (g : VmcsGuest) (la57 : Bool) : Bool :=
  (arL g.csAr != arDB g.csAr) && !(!arL g.csAr && arDpl g.ssAr == 0) &&
  (arDpl g.ssAr == 0 || arDpl g.ssAr == 3) && (selRpl g.ssSel == arDpl g.ssAr) && (selRpl g.csSel == arDpl g.ssAr) &&
  !selTi g.trSel && !selTi g.ldtrSel && isCanonical la57 g.ldtrBase

/-- R368, and the reserved bits of RFLAGS (entry 26). -/
def guestFlagsOk (rflags : Word) : Bool := rflags &&& ~~~definedFlags == 0 && bit rflags 1

/-- CR0 and CR4 as VM entry loads them: the fixed bits hold their fixed values (R369), the others, CR0.CD among them, those of the
guest area (DESIGN CHOICE, entry 26). -/
def State.guestCr0 (s : State) (g : VmcsGuest) : Word := cr0Of (forceFixed g.cr0 (vmxCr0Fixed0 s.cfg) (vmxCr0Fixed1 s.cfg))
def State.guestCr4 (s : State) (g : VmcsGuest) : Word := cr4Of (forceFixed g.cr4 (vmxCr4Fixed0 s.cfg) (vmxCr4Fixed1 s.cfg))

/-- R369: a bit of CR0 or CR4 that differs from its FIXED MSR fails, or is forced, by the parameter; PAE = 0 always fails. -/
def State.guestCrOk (s : State) (g : VmcsGuest) : Bool :=
  bit g.cr4 5 && !s.cr4Reserved (s.guestCr4 g) && cetWpOk (s.guestCr0 g) (s.guestCr4 g) && !s.cr3Reserved g.cr3 &&
  (!s.cfg.vmentryFixedCrFail || s.fixedCrOk g.cr0 g.cr4)

/-- R365: wait-for-SIPI is no activity state of a guest; active is, HLT of ring 0 and shutdown where IA32_VMX_MISC says so
(entry 26). -/
def State.guestActivityOk (s : State) (g : VmcsGuest) : Bool :=
  g.activity == 0 || (g.activity == 1 && bit s.cfg.vmxMisc 6 && arDpl g.ssAr == 0) || (g.activity == 2 && bit s.cfg.vmxMisc 7)

/-- The events that may be injected in an activity state: any into active; external interrupts, NMI, #DB and #MC into HLT; NMI
and #MC into shutdown (PRESUMED, entry 26). -/
def injectedActivityOk (activity info : DWord) : Bool :=
  let type := (info.extractLsb' 8 3).toNat
  let mc := type == 3 && (info.setWidth 8 : BitVec 8) == 18
  !info.getLsbD 31 || activity == 0 || type == 2 || mc ||
  (activity == 1 && (type == 0 || (type == 3 && (info.setWidth 8 : BitVec 8) == 1)))

/-- The baseline checks that R367 keeps: bases and RIP canonical, table limits of 16 bits (entry 26). -/
def VmcsGuest.addressesOk (g : VmcsGuest) (la57 : Bool) : Bool :=
  let c := isCanonical la57
  c g.fsBase && c g.gsBase && c g.trBase && c g.gdtrBase && c g.idtrBase &&
  g.gdtrLimit >>> 16 == 0 && g.idtrLimit >>> 16 == 0 && (if arL g.csAr then c g.rip else g.rip >>> 32 == 0)

/-- Every check of the guest-state area (R365 to R369). R367 does not say whose CR4.LA57 decides whether the LDTR base, the other
bases and RIP are canonical: it is bit 12 of the guest's CR4 with its fixed bits forced (DESIGN CHOICE, entry 26). -/
def State.guestOk (s : State) (g : VmcsGuest) : Bool :=
  g.segmentsOk (bit (s.guestCr4 g) 12) && guestFlagsOk g.rflags && s.guestCrOk g && s.guestActivityOk g &&
  g.addressesOk (bit (s.guestCr4 g) 12)

/-! ## Loads -/

/-- The segment and table registers VM entry loads (R366). -/
def State.loadGuestSegments (s : State) (g : VmcsGuest) : State :=
  { s with
    cs := ⟨g.csSel, arL g.csAr⟩, ss := ⟨g.ssSel, arDpl g.ssAr, arDB g.ssAr⟩, ds := g.dsSel, es := g.esSel
    fs := ⟨g.fsSel, g.fsBase⟩, gs := ⟨g.gsSel, g.gsBase⟩
    tr := ⟨g.trSel, g.trBase, g.trLimit⟩, ldtr := ⟨g.ldtrSel, g.ldtrBase, g.ldtrLimit⟩
    gdtr := ⟨g.gdtrBase, g.gdtrLimit⟩, idtr := ⟨g.idtrBase, g.idtrLimit⟩ }

/-- The activity state VM entry loads (R365); the shutdown is the plain one of D11 (DESIGN CHOICE, entry 26). -/
def loadedActivity (code : DWord) : Activity := if code = 0 then .running else if code = 1 then .halted else .shutdown .plain

/-- The guest state loaded: R366, R369; CR3, RSP, RIP, RFLAGS by the baseline; no shadow and no debug trap stays, and the
translation caches are flushed (entry 26). NMI blocking is what it was (DESIGN CHOICE, entry 26). -/
def State.loadGuest (s : State) (g : VmcsGuest) : State :=
  let s := s.loadGuestSegments g
  { s.setReg .rsp g.rsp with
    rip := g.rip, nextRip := g.rip, rflags := g.rflags
    cr0 := s.guestCr0 g, cr3 := g.cr3, cr4 := s.guestCr4 g
    activity := loadedActivity g.activity
    movSsBlocked := false, stiBlocked := false, dbPending := false, bpHits := 0
    tlb := Tlb.empty, stored := [] }

/-- Invalid guest state: an early exit with reason 33 and bit 31; the guest area is not saved (R367). -/
def State.entryFailure (s : State) (v : Vmcs) : State :=
  { s.loadHost v.host with
    vmx := .root (some { v with exit :=
      { v.exit with reason := 0x80000021, qualification := 0 } }) }

/-- VMfailInvalid: CF alone (entry 26). -/
def State.vmFailInvalid (s : State) : State := (s.setRflags (mergeBits s.rflags statusMask 1)).toNext

/-- VMfailValid: ZF alone, and the error number in the VMCS (entry 26). -/
def State.vmFailValid (s : State) (v : Vmcs) (n : DWord) : State :=
  ((s.setVmx (.root (some { v with exit := { v.exit with instructionError := n } }))).setRflags
    (mergeBits s.rflags statusMask 0x40)).toNext

/-! ## Event injection (R370) -/

/-- The kind of an injected event, by its type (entry 26). -/
def injectedKind (type : Nat) : EventKind :=
  if type = 0 then .external
  else if type = 2 then .nmi
  else if type = 3 then .exception
  else if type = 5 then .int1
  else .softInt

/-- The event that VM entry injects: any vector, #NP and #SS included, with the error code supplied (R370); a software event
returns behind the instruction that caused it, by the length supplied (PRESUMED, entry 26). -/
def VmcsControls.injected (c : VmcsControls) (rip : Word) : Event :=
  { vector := c.entryIntrInfo.setWidth 8
    kind := injectedKind (c.entryIntrInfo.extractLsb' 8 3).toNat
    ext := decide ((c.entryIntrInfo.extractLsb' 8 3).toNat < 4) || c.entryIntrInfo.extractLsb' 8 3 == 5
    err := if c.entryIntrInfo.getLsbD 11 then some c.entryErrorCode else none
    rip := if (c.entryIntrInfo.extractLsb' 8 3).toNat < 4 then rip else rip + c.entryInstrLen.setWidth 64 }

/-- The guest entered, and the injected event taken. -/
def State.enterGuest (s : State) (v : Vmcs) : Host.Outcome State Fault Refusal :=
  let t := (s.loadGuest v.guest).setVmx (.nonRoot { v with ctl := { v.ctl with launched := true } })
  if v.ctl.entryIntrInfo.getLsbD 31 then t.deliver (v.ctl.injected v.guest.rip) false else .next t

/-- VMEntry: `launch` says VMLAUNCH (R360 to R370, R377). That #UD in compatibility mode comes before the VM exit is PRESUMED,
that the blocking of MOV SS makes no entry fail DESIGN CHOICE (entry 26). No file of the spec orders the checks (N17): the launch state
(errors 4, 5), the controls (7), the host area (8), then the guest area (exit reason 33) is PRESUMED (entry 26). -/
def State.vmEntry (s : State) (launch : Bool) : Host.Outcome State Fault Refusal :=
  match s.vmx with
  | .off => finish s raiseUd
  | .nonRoot _ => if s.compat then finish s raiseUd else .next (s.vmExit (if launch then 20 else 24) 0 0 0)
  | .root cur =>
    if s.compat then finish s raiseUd
    else if !s.cpl0 then finish s raiseGp0
    else match cur with
      | none => .next s.vmFailInvalid
      | some v =>
        if launch && v.ctl.launched then .next (s.vmFailValid v 4)
        else if !launch && !v.ctl.launched then .next (s.vmFailValid v 5)
        else if !s.ctlOk v.ctl then .next (s.vmFailValid v 7)
        else if !s.hostOk v.host then .next (s.vmFailValid v 8)
        else if !(s.guestOk v.guest && injectedActivityOk v.guest.activity v.ctl.entryIntrInfo) then .next (s.entryFailure v)
        else s.enterGuest v

/-! ## Meanings -/

/-- R377. -/
def execVmlaunch (s : State) : Host.Outcome State Fault Refusal := s.vmEntry true

/-- R377. -/
def execVmresume (s : State) : Host.Outcome State Fault Refusal := s.vmEntry false

/-- R376, R368: #UD outside SEAM; in SEAM the guest area of the current VMCS is checked and loaded, and SEAM is left.
A guest area that fails loads the host area and leaves the processor in SEAM, and in non-root operation it is VMfailInvalid. The
controls and the host area are not checked, so that the host area loaded may hold what VM entry would not accept, a NULL CS or TR among
it, and no event is injected (DESIGN CHOICE, entry 27). -/
def execSeamret (s : State) : Host.Outcome State Fault Refusal :=
  if !s.inSeam || s.compat then finish s raiseUd
  else if !s.cpl0 then finish s raiseGp0
  else match s.vmx with
    | .root (some v) =>
      if s.guestOk v.guest then .next { s.loadGuest v.guest with inSeam := false }
      else .next (s.entryFailure v)
    | _ => .next s.vmFailInvalid

/-- STM activation (R373). What else it loads is left to the baseline; that nothing else changes is DESIGN CHOICE (entry 46). -/
def State.stmActivate (s : State) : State :=
  { s with
    cs := ⟨8, true⟩, ss := ⟨16, 0, false⟩, ds := 16, es := 16
    fs := ⟨16, 0⟩, gs := ⟨16, 0⟩
    cr4 := setBit s.cr4 32 false }

end Sys2Proof.Machine
end

