-- ==== Sys2Proof/Machine/Dispatch.lean ====
section
/-! DEFINITION. One arm per instruction: a direct call of its meaning. -/

namespace Sys2Proof.Machine

def exec (i : Instr) (s : State) : Host.Outcome State Fault Refusal :=
  match i with
  | .jccRel8 p cc rel => Sys2Proof.Machine.execJccRel8 p cc rel s
  | .jccRel32 p cc rel => Sys2Proof.Machine.execJccRel32 p cc rel s
  | .loopneRel8 p rel => Sys2Proof.Machine.execLoopneRel8 p rel s
  | .loopeRel8 p rel => Sys2Proof.Machine.execLoopeRel8 p rel s
  | .loopRel8 p rel => Sys2Proof.Machine.execLoopRel8 p rel s
  | .jecxzRel8 p rel => Sys2Proof.Machine.execJecxzRel8 p rel s
  | .jrcxzRel8 p rel => Sys2Proof.Machine.execJrcxzRel8 p rel s
  | .jmpRel8 p rel => Sys2Proof.Machine.execJmpRel8 p rel s
  | .jmpRel32 p rel => Sys2Proof.Machine.execJmpRel32 p rel s
  | .callRel32 p rel => Sys2Proof.Machine.execCallRel32 p rel s
  | .jmpRM p rm => Sys2Proof.Machine.execJmpRM p rm s
  | .callRM p rm => Sys2Proof.Machine.execCallRM p rm s
  | .ret p => Sys2Proof.Machine.execRet p s
  | .retImm16 p imm => Sys2Proof.Machine.execRetImm16 p imm s
  | .lea p r m => Sys2Proof.Machine.execLea p r m s
  | .nop => Sys2Proof.Machine.execNop s
  | .nopRM p rm => Sys2Proof.Machine.execNopRM p rm s
  | .callPtr p off sel => Sys2Proof.Machine.execCallPtr p off sel s
  | .callFarM p m => Sys2Proof.Machine.execCallFarM p m s
  | .jmpPtr p off sel => Sys2Proof.Machine.execJmpPtr p off sel s
  | .jmpFarM p m => Sys2Proof.Machine.execJmpFarM p m s
  | .retFar p => Sys2Proof.Machine.execRetFar p s
  | .retFarImm16 p imm => Sys2Proof.Machine.execRetFarImm16 p imm s
  | .iret p => Sys2Proof.Machine.execIret p s
  | .intImm8 imm => Sys2Proof.Machine.execIntImm8 imm s
  | .int3 => Sys2Proof.Machine.execInt3 s
  | .into => Sys2Proof.Machine.execInto s
  | .int1 => Sys2Proof.Machine.execInt1 s
  | .syscall => Sys2Proof.Machine.execSyscall s
  | .sysenter => Sys2Proof.Machine.execSysenter s
  | .sysret p => Sys2Proof.Machine.execSysret p s
  | .sysexit p => Sys2Proof.Machine.execSysexit p s
  | .eretu => Sys2Proof.Machine.execEretu s
  | .erets => Sys2Proof.Machine.execErets s
  | .rsm => Sys2Proof.Machine.execRsm s
  | .movSregRM p sr rm => Sys2Proof.Machine.execMovSregRM p sr rm s
  | .popEs p => Sys2Proof.Machine.execPopEs p s
  | .popSs p => Sys2Proof.Machine.execPopSs p s
  | .popDs p => Sys2Proof.Machine.execPopDs p s
  | .popFs p => Sys2Proof.Machine.execPopFs p s
  | .popGs p => Sys2Proof.Machine.execPopGs p s
  | .lds p r m => Sys2Proof.Machine.execLds p r m s
  | .les p r m => Sys2Proof.Machine.execLes p r m s
  | .lss p r m => Sys2Proof.Machine.execLss p r m s
  | .lfs p r m => Sys2Proof.Machine.execLfs p r m s
  | .lgs p r m => Sys2Proof.Machine.execLgs p r m s
  | .lkgs p rm => Sys2Proof.Machine.execLkgs p rm s
  | .movRMSreg p sr rm => Sys2Proof.Machine.execMovRMSreg p sr rm s
  | .pushEs p => Sys2Proof.Machine.execPushEs p s
  | .pushCs p => Sys2Proof.Machine.execPushCs p s
  | .pushSs p => Sys2Proof.Machine.execPushSs p s
  | .pushDs p => Sys2Proof.Machine.execPushDs p s
  | .pushFs p => Sys2Proof.Machine.execPushFs p s
  | .pushGs p => Sys2Proof.Machine.execPushGs p s
  | .sgdt p m => Sys2Proof.Machine.execSgdt p m s
  | .sidt p m => Sys2Proof.Machine.execSidt p m s
  | .lgdt p m => Sys2Proof.Machine.execLgdt p m s
  | .lidt p m => Sys2Proof.Machine.execLidt p m s
  | .sldt p rm => Sys2Proof.Machine.execSldt p rm s
  | .str p rm => Sys2Proof.Machine.execStr p rm s
  | .lldt p rm => Sys2Proof.Machine.execLldt p rm s
  | .ltr p rm => Sys2Proof.Machine.execLtr p rm s
  | .verr p rm => Sys2Proof.Machine.execVerr p rm s
  | .verw p rm => Sys2Proof.Machine.execVerw p rm s
  | .lar p r rm => Sys2Proof.Machine.execLar p r rm s
  | .lsl p r rm => Sys2Proof.Machine.execLsl p r rm s
  | .arpl p rm r => Sys2Proof.Machine.execArpl p rm r s
  | .swapgs => Sys2Proof.Machine.execSwapgs s
  | .rdfsbase p r => Sys2Proof.Machine.execRdfsbase p r s
  | .rdgsbase p r => Sys2Proof.Machine.execRdgsbase p r s
  | .wrfsbase p r => Sys2Proof.Machine.execWrfsbase p r s
  | .wrgsbase p r => Sys2Proof.Machine.execWrgsbase p r s
  | .movRCr crn r => Sys2Proof.Machine.execMovRCr crn r s
  | .movCr0R r => Sys2Proof.Machine.execMovCr0R r s
  | .movCr2R r => Sys2Proof.Machine.execMovCr2R r s
  | .movCr3R r => Sys2Proof.Machine.execMovCr3R r s
  | .movCr4R r => Sys2Proof.Machine.execMovCr4R r s
  | .movCr8R r => Sys2Proof.Machine.execMovCr8R r s
  | .lmsw p rm => Sys2Proof.Machine.execLmsw p rm s
  | .rdmsr => Sys2Proof.Machine.execRdmsr s
  | .wrmsr => Sys2Proof.Machine.execWrmsr s
  | .cpuid => Sys2Proof.Machine.execCpuid s
  | .popf p => Sys2Proof.Machine.execPopf p s
  | .popf16 p => Sys2Proof.Machine.execPopf16 p s
  | .pushf p => Sys2Proof.Machine.execPushf p s
  | .cli => Sys2Proof.Machine.execCli s
  | .sti => Sys2Proof.Machine.execSti s
  | .inAlImm imm => Sys2Proof.Machine.execInAlImm imm s
  | .inEaxImm p imm => Sys2Proof.Machine.execInEaxImm p imm s
  | .outImmAl imm => Sys2Proof.Machine.execOutImmAl imm s
  | .outImmEax p imm => Sys2Proof.Machine.execOutImmEax p imm s
  | .inAlDx => Sys2Proof.Machine.execInAlDx s
  | .inEaxDx p => Sys2Proof.Machine.execInEaxDx p s
  | .outDxAl => Sys2Proof.Machine.execOutDxAl s
  | .outDxEax p => Sys2Proof.Machine.execOutDxEax p s
  | .insb => Sys2Proof.Machine.execInsb s
  | .insd => Sys2Proof.Machine.execInsd s
  | .outsb => Sys2Proof.Machine.execOutsb s
  | .outsd => Sys2Proof.Machine.execOutsd s
  | .vmlaunch => Sys2Proof.Machine.execVmlaunch s
  | .vmresume => Sys2Proof.Machine.execVmresume s
  | .seamret => Sys2Proof.Machine.execSeamret s
  | .getsec => Sys2Proof.Machine.execGetsec s

end Sys2Proof.Machine
end

