-- ==== Sys2Proof/Machine/Debug.lean ====
section
/-! DEFINITION. Debug exceptions: the breakpoints of DR0 to DR3 and DR7 (R51) and the single-step trap (R26, R413, R422, R475).
What the spec leaves to the baseline is PRESUMED, the family's (entry 23). -/

namespace Sys2Proof.Machine

/-! ## Breakpoints -/

/-- One access that a breakpoint can see: to `bytes` bytes from the linear address, or the port, `first` on. -/
structure Touch where
  io    : Bool
  first : Nat
  bytes : Nat
  write : Bool
deriving DecidableEq, Repr

/-- The address of breakpoint `i`. -/
def State.bpAddr (s : State) (i : Nat) : Nat :=
  (if i = 0 then s.dbg.dr0 else if i = 1 then s.dbg.dr1 else if i = 2 then s.dbg.dr2 else s.dbg.dr3).toNat

/-- Breakpoint `i` is enabled, locally or globally. -/
def State.bpEnabled (s : State) (i : Nat) : Bool := (s.dbg.dr7 >>> (2 * i)) &&& 3 != 0

/-- What breakpoint `i` waits for: 0 a fetch, 1 a write, 2 an I/O access, 3 a read or write. -/
def State.bpKind (s : State) (i : Nat) : BitVec 2 := s.dbg.dr7.extractLsb' (16 + 4 * i) 2

/-- The bytes that breakpoint `i` covers. -/
def State.bpBytes (s : State) (i : Nat) : Nat :=
  let len := s.dbg.dr7.extractLsb' (18 + 4 * i) 2
  if len = 0 then 1 else if len = 1 then 2 else if len = 2 then 8 else 4

/-- Breakpoint `i` sees the access. -/
def State.bpSees (s : State) (t : Touch) (i : Nat) : Bool :=
  s.bpEnabled i &&
  (if t.io then s.de && s.bpKind i == 2 else s.bpKind i == 3 || (s.bpKind i == 1 && t.write)) &&
  decide (s.bpAddr i / s.bpBytes i * s.bpBytes i < t.first + t.bytes) &&
  decide (t.first < s.bpAddr i / s.bpBytes i * s.bpBytes i + s.bpBytes i)

/-- The four breakpoints for which `f` holds, one bit each. -/
def fourBits (f : Nat → Bool) : BitVec 4 :=
  BitVec.ofBool (f 3) ++ BitVec.ofBool (f 2) ++ BitVec.ofBool (f 1) ++ BitVec.ofBool (f 0)

/-- The breakpoints that see one of the accesses. -/
def State.bpWatch (s : State) (ts : List Touch) : BitVec 4 := fourBits (fun i => ts.any (fun t => s.bpSees t i))

/-- The instruction breakpoints at RIP; RF and the shadow of MOV SS hold them off. -/
def State.codeHits (s : State) : BitVec 4 :=
  if bit s.rflags 16 || s.movSsBlocked then 0
  else fourBits (fun i => s.bpEnabled i && s.bpKind i == 0 && decide (s.bpAddr i = s.rip.toNat))

/-! ## The accesses of an instruction -/

def State.touchM (s : State) (p : Pfx) (m : Mem) (n : Nat) (write : Bool) : List Touch :=
  [⟨false, (s.linAddr p m).toNat, n, write⟩]

def State.touchRM (s : State) (p : Pfx) (rm : RM) (n : Nat) (write : Bool) : List Touch :=
  match rm with
  | .reg _ => []
  | .mem m => s.touchM p m n write

def State.touchPush (s : State) (sz : OpSize) (k : Nat) : List Touch :=
  [⟨false, (stackDown s.mode64 s.sp (sz.bytes * k)).toNat, sz.bytes * k, true⟩]

def State.touchPop (s : State) (sz : OpSize) (k : Nat) : List Touch := [⟨false, s.sp.toNat, sz.bytes * k, false⟩]

def touchPort (port : Half) (n : Nat) (write : Bool) : List Touch := [⟨true, port.toNat, n, write⟩]

/-- The operands in memory, the stack and the ports that an instruction accesses with the privilege of CPL; the tables and the
stack that delivery reaches are none of them. RIP is that of the instruction, `nextRip` is set. -/
def State.touches (s : State) : Instr → List Touch
  | .jmpRM p rm => s.touchRM p rm (s.nearSize p).bytes false
  | .callRM p rm => s.touchRM p rm (s.nearSize p).bytes false ++ s.touchPush (s.nearSize p) 1
  | .callRel32 p _ => s.touchPush (s.nearSize p) 1
  | .ret p | .retImm16 p _ => s.touchPop (s.nearSize p) 1
  | .callPtr p _ _ => s.touchPush (s.opSize p) 2
  | .callFarM p m => s.touchM p m ((s.opSize p).bytes + 2) false ++ s.touchPush (s.opSize p) 2
  | .jmpFarM p m => s.touchM p m ((s.opSize p).bytes + 2) false
  | .retFar p | .retFarImm16 p _ => s.touchPop (s.opSize p) 2
  | .iret p => s.touchPop (s.opSize p) (if s.mode64 then 5 else 3)
  | .eretu | .erets => s.touchPop .w64 6
  | .movSregRM p _ rm | .lkgs p rm | .lldt p rm | .ltr p rm | .verr p rm | .verw p rm | .lar p _ rm | .lsl p _ rm =>
    s.touchRM p rm 2 false
  | .movRMSreg p _ rm | .sldt p rm | .str p rm | .arpl p rm _ => s.touchRM p rm 2 true
  | .popEs p | .popSs p | .popDs p | .popFs p | .popGs p | .popf p => s.touchPop (s.stackSize p) 1
  | .popf16 _ => s.touchPop .w16 1
  | .pushEs p | .pushCs p | .pushSs p | .pushDs p | .pushFs p | .pushGs p | .pushf p => s.touchPush (s.stackSize p) 1
  | .lds p _ m | .les p _ m | .lss p _ m | .lfs p _ m | .lgs p _ m => s.touchM p m ((s.opSize p).bytes + 2) false
  | .sgdt p m | .sidt p m => s.touchM p m (if s.mode64 then 10 else 6) true
  | .lgdt p m | .lidt p m => s.touchM p m (if s.mode64 then 10 else 6) false
  | .inAlImm port => touchPort (port.setWidth 16) 1 false
  | .inEaxImm p port => touchPort (port.setWidth 16) (ioSize p).bytes false
  | .outImmAl port => touchPort (port.setWidth 16) 1 true
  | .outImmEax p port => touchPort (port.setWidth 16) (ioSize p).bytes true
  | .inAlDx => touchPort s.dx 1 false
  | .inEaxDx p => touchPort s.dx (ioSize p).bytes false
  | .outDxAl => touchPort s.dx 1 true
  | .outDxEax p => touchPort s.dx (ioSize p).bytes true
  | .jccRel8 .. | .jccRel32 .. | .loopneRel8 .. | .loopeRel8 .. | .loopRel8 .. | .jecxzRel8 .. | .jrcxzRel8 .. => []
  | .jmpRel8 .. | .jmpRel32 .. | .lea .. | .nop | .nopRM .. | .jmpPtr .. | .intImm8 _ | .int3 | .into | .int1 => []
  | .syscall | .sysenter | .sysret _ | .sysexit _ | .rsm | .swapgs => []
  | .rdfsbase .. | .rdgsbase .. | .wrfsbase .. | .wrgsbase .. => []
  | .movRCr .. | .movCr0R _ | .movCr2R _ | .movCr3R _ | .movCr4R _ | .movCr8R _ | .lmsw .. | .rdmsr | .wrmsr | .cpuid => []
  | .cli | .sti | .insb | .insd | .outsb | .outsd | .vmlaunch | .vmresume | .seamret | .getsec => []

/-! ## #DB -/

/-- The bits of DR6 that the pending debug traps set: B3 to B0, and BS for the single step. -/
def State.trapCauses (s : State) : Word := s.bpHits.setWidth 64 ||| (if s.dbPending then 0x4000 else 0)

/-- #DB with the causes `causes`: in non-root operation the exception bitmap first, the causes as qualification; else DR6 takes
the causes. The saved RIP is the state's: of the instruction for a fault, of the next one for a trap (R421). -/
def State.takeDb (s : State) (causes : Word) : Host.Outcome State Fault Refusal :=
  let e : Event := { vector := 1, kind := .exception, ext := false, err := none, rip := s.rip }
  if s.eventExits e true then .next (s.exitOnEvent e (some causes))
  else (s.setDbg { s.dbg with dr6 := s.dbg.dr6 ||| causes }).deliver e false

/-- The pending debug traps taken: single step, data and I/O breakpoints. -/
def State.takeTraps (s : State) : Host.Outcome State Fault Refusal :=
  ((s.setDbPending false).setBpHits 0).takeDb s.trapCauses

end Sys2Proof.Machine
end

