-- ==== Sys2Proof/Machine/Events.lean ====
section
/-! DEFINITION. Events taken in place of an instruction: reset, machine check, SMI, INIT, SIPI, SignalWAKEUP, STM activation,
debug traps, NMI, maskable interrupts and instruction breakpoints (R17, R373, R399, R413, R426 to R429, R450 to R453, R470), and
which is taken first (R422). -/

namespace Sys2Proof.Machine

/-! ## INIT -/

/-- INIT is blocked in VMX root operation, in SMM, by the SMX mask (R450), and in the shutdowns that only reset leaves
(R460). The mask holds an INIT off whether the pin or the APIC brings it (DESIGN CHOICE, entry 33). -/
def State.initBlocked (s : State) : Bool :=
  (match s.vmx with
   | .root _ => true
   | _ => false) || s.inSmm || s.smx.maskInit ||
  (match s.activity with
   | .shutdown .unbreakable => true
   | .shutdown (.txt _) => true
   | _ => false)

/-- The registers after INIT, but for CR3, RIP and the activity state (R450, R80): the translation caches flushed, the counters
stopped; NMI blocking and the interrupt shadows are kept, a pending debug trap is not (entries 23, 33). -/
def State.initRegisters (s : State) : State :=
  { s.settleCounters with
    rflags := 2, cr0 := cr0Of (s.cr0 &&& 0x40000000), cr4 := 0x20, cr2 := 0
    cs := ⟨0, true⟩, ss := ⟨8, 0, false⟩, ds := 0, es := 0, fs := ⟨0, 0⟩, gs := ⟨0, 0⟩
    gdtr := ⟨0, 0⟩, idtr := ⟨0, 0⟩, ldtr := ⟨0, 0, 0⟩, tr := ⟨0, 0, 0⟩
    gpr := { Gprs.zero with rdx := s.cfg.resetRdx.setWidth 64 }
    dbg := DebugRegs.reset
    fpu := { s.fpu with fcw := 0x37F, fsw := 0, ftw := 0xFFFF }
    cnt := { s.settleCounters.cnt with perfGlobalCtrl := 0 }
    tlb := Tlb.empty, stored := []
    dbPending := false, bpHits := 0 }

/-- INIT (R450): the bootstrap processor restarts at the reset vector, another waits for SIPI. In non-root operation the
VM exit, reason 3, is the whole effect (R375, D40). An interrupt or an NMI that waits stays in `pending`, where R450 leaves it to the
baseline (DESIGN CHOICE, entry 33). -/
def State.initEvent (s : State) : State :=
  if s.nonRoot then s.vmExit 3 0 0 0
  else if bit s.plat.apicBase 8 then
    { s.initRegisters with cr3 := 0xFFFFE000, rip := 0xFFFFFFF0, nextRip := 0xFFFFFFF0, activity := .running }
  else { s.initRegisters with cr3 := 0, activity := .waitForSipi }

/-! ## SIPI -/

/-- The address of the entry structure (R451). Physical memory is one space, so a key identifier in its upper bits names a
different address (entry 1). -/
def State.sipiStruct (s : State) : Nat := (s.plat.sipiPtr.toNat % 2 ^ s.cfg.maxPA) / 2 ^ 12 * 2 ^ 12

/-- The key identifier in the upper bits of a physical address is a TDX private key (R124; which ones are is the parameters',
entry 1). -/
def tdxPrivate (c : Config) (pa : Nat) : Bool :=
  decide (1 ≤ c.tdxFirstKey) && decide (c.tdxFirstKey ≤ pa / 2 ^ c.keyIdLow)

/-- CR0 of the entry structure: the fixed bits, ET ignored, no reserved bit (R452, R109). -/
def sipiCr0Ok (v : Word) : Bool := cr0FixedOk v && v &&& ~~~(cr0FixedValue ||| cr0Flexible) == 0

/-- CR4 of the entry structure: the rules of MOV CR4 but that LA57 may change; CET needs the new CR0.WP, PCIDE needs bits 11:0
of the new CR3 to be 0 (R109, R273, R452). -/
def State.sipiCr4Ok (s : State) (cr4 cr0 cr3 : Word) : Bool :=
  cr4FixedOk cr4 && !s.cr4Reserved cr4 && !(bit cr4 23 && !bit cr0 16) && !(bit cr4 17 && cr3 &&& 0xFFF != 0)

/-- R451, R452; an entry structure under a TDX private key cannot be read, which shuts the processor down as a wrong FEATURES
field does (R124, PRESUMED, entry 33). -/
def State.sipiEvent (s : State) (vector : BitVec 8) : Res State :=
  if bit s.plat.sipiPtr 0 = false then .ok (s.setActivity (.shutdown .plain))
  else if tdxPrivate s.cfg s.sipiStruct then .ok (s.setActivity (.shutdown .nonTripleFault))
  else do
    let features ← s.physRead8 s.sipiStruct
    if features ≠ 1 then return s.setActivity (.shutdown .nonTripleFault)
    else
      let cr4 ← s.physRead8 (s.sipiStruct + 32)
      let rip ← s.physRead8 (s.sipiStruct + 8)
      let cr0 ← s.physRead8 (s.sipiStruct + 24)
      let cr3 ← s.physRead8 (s.sipiStruct + 16)
      if s.sipiCr4Ok cr4 cr0 cr3 && sipiCr0Ok cr0 && !s.cr3Reserved cr3 && isCanonical (bit cr4 12) rip then
        let t := ((s.setCr4 cr4).setCr3 cr3).setCr0 (cr0Of cr0)
        let t := (t.setReg .r10 (vector.setWidth 64)).setNmiBlocked true
        return ((t.setRip rip).setNextRip rip).setActivity .running
      else return s.setActivity (.shutdown .unbreakable)

/-! ## Interrupts -/

/-- The processor runs, or waits in HLT for an interrupt (R461). -/
def State.awake (s : State) : Bool := decide (s.activity = .running) || decide (s.activity = .halted)

/-- An NMI is delivered unless blocked or masked (R428, R475). The SMX mask is of the external pin event (R68, R428): that it holds
off an NMI of the APIC too is DESIGN CHOICE (entry 33). -/
def State.nmiDue (s : State) : Bool :=
  s.pending.nmi && s.awake && !s.nmiBlocked && !s.movSsBlocked && !s.smx.maskNmi

/-- A maskable interrupt is taken when IF = 1, no shadow is active and its class exceeds CR8 (R427). -/
def State.intrDue (s : State) : Option (BitVec 8) :=
  match s.pending.intr with
  | none => none
  | some v =>
    if s.awake && s.ifl && !s.movSsBlocked && !s.stiBlocked &&
        decide ((s.cr8 &&& 0xF).toNat < (v >>> 4).toNat) then some v else none

/-- NMI as an event (R425, R428). -/
def State.nmiEvent (s : State) : Event := { vector := 2, kind := .nmi, ext := true, err := none, rip := s.rip }

/-- A maskable interrupt as an event (R425, R426). -/
def State.intrEvent (s : State) (v : BitVec 8) : Event :=
  { vector := v, kind := .external, ext := true, err := none, rip := s.rip }

/-- Debug traps are taken after the instruction, unless the shadow of MOV SS holds them off (R475, entry 23). -/
def State.trapDue (s : State) : Bool := (s.dbPending || s.bpHits != 0) && s.awake && !s.movSsBlocked

/-- The machine-check exception (R413); the saved RIP is that of the next instruction, and EXT is 1 for a fault in its delivery, where
R425 does not name it (PRESUMED, entry 33). -/
def State.mcEvent (s : State) : Event := { vector := 18, kind := .exception, ext := true, err := none, rip := s.rip }

/-- A machine check: shutdown with CR4.MCE = 0 or with one in progress; else it is in progress (IA32_MCG_STATUS.MCIP) and #MC is
delivered (R413; PRESUMED, the family's; that the shutdown is the plain one of D11 is DESIGN CHOICE; entry 33). -/
def State.machineCheck (s : State) : Host.Outcome State Fault Refusal :=
  if !s.mce || bit s.plat.mcgStatus 2 then .next (s.setActivity (.shutdown .plain))
  else
    let t := s.setPlat { s.plat with mcgStatus := setBit s.plat.mcgStatus 2 true }
    t.deliver t.mcEvent true

/-! ## Which event is due -/

/-- The events a step can take in place of an instruction. -/
inductive Due where
  | reset | machineCheck | smi | init
  | sipi (vector : BitVec 8)
  | wakeup | stm | trap | nmi
  | intr (vector : BitVec 8)
  | codeBreak
deriving DecidableEq, Repr

/-- The processor is shut down, which an SMI does not end (R460, D11). -/
def State.shutDown (s : State) : Bool := match s.activity with
  | .shutdown _ => true
  | _ => false

/-- The first due event, in the order of R422; of those R422 does not list, SIPI, SignalWAKEUP and STM activation come
after INIT (entry 33). STM activation is due in every activity state (DESIGN CHOICE, entry 46). A masked or blocked event stays
pending, and the SMX masks see an SMI, an INIT and an NMI from the pin and from the APIC alike (DESIGN CHOICE, entry 33); so does a
SignalWAKEUP that comes to a processor which is not in SENTER sleep, until it sleeps (DESIGN CHOICE, entry 33); so do a machine
check, an NMI and an interrupt that come in wait-for-SIPI or SENTER sleep, until the processor runs (DESIGN CHOICE, entry 33). -/
def State.due (s : State) : Option Due :=
  if s.pending.reset then some .reset
  else if s.pending.machineCheck && s.awake then some .machineCheck
  else if s.pending.smi && !s.smx.maskSmi && !s.inSmm && !s.shutDown then some .smi
  else if s.pending.init && !s.initBlocked then some .init
  else match s.pending.sipi with
    | some v => some (.sipi v)
    | none =>
      if s.pending.wakeup && decide (s.activity = .senterSleep) && !s.smx.maskWakeup then some .wakeup
      else if s.pending.stm then some .stm
      else if s.trapDue then some .trap
      else if s.nmiDue then some .nmi
      else match s.intrDue with
        | some v => some (.intr v)
        | none => if decide (s.activity = .running) && s.codeHits != 0 then some .codeBreak else none

/-- The pending events without the one taken. -/
def Pending.without (p : Pending) : Due → Pending
  | .reset => p
  | .machineCheck => { p with machineCheck := false }
  | .smi => { p with smi := false }
  | .init => { p with init := false }
  | .sipi _ => { p with sipi := Option.none }
  | .wakeup => { p with wakeup := false }
  | .stm => { p with stm := false }
  | .trap => p
  | .nmi => { p with nmi := false }
  | .intr _ => { p with intr := Option.none }
  | .codeBreak => p

/-- Platform reset (R470): every register at its reset value; memory, the platform's inputs and the logs stay. It is a cold
reset: the TSC, Intel PT and LBRs become 0 also where memory is kept (R81, entry 43). -/
def State.platformReset (s : State) : State :=
  { State.resetOf s.cfg with
    mem := s.mem, txt := s.txt, draws := s.draws, portWrites := s.portWrites, apicWrites := s.apicWrites }

/-- The event `d` taken in `s`. -/
def State.takeDue (s : State) (d : Due) : Host.Outcome State Fault Refusal :=
  let t := s.setPending (s.pending.without d)
  match d with
  | .reset => .next s.platformReset
  | .machineCheck => t.machineCheck
  | .smi => .refused .smmEntry
  | .init => .next t.initEvent
  | .sipi v => if t.activity = .waitForSipi then finish t (t.sipiEvent v) else .next t
  | .wakeup => finish t t.rlpWake
  | .stm => .next t.stmActivate
  | .trap => t.takeTraps
  | .nmi => t.deliver t.nmiEvent false
  | .intr v => t.deliver (t.intrEvent v) false
  | .codeBreak => t.takeDb (t.codeHits.setWidth 64)

end Sys2Proof.Machine
end

