-- ==== Sys2Proof/Decode.lean ====
section
/-! DEFINITION. The decoder: total on any bytes, it answers an instruction and its length or a named reason
(30_encoding.md, R130 to R153, and spec/opcode_table.json); and the encoder, from the same tables. -/

namespace Sys2Proof

/-- The units of the baseline whose instructions have data in memory, by the faults they raise before an access to it (R176, D21;
PRESUMED, the family's, entry 17). -/
inductive MemUnit where
  | integer
  /-- x87; the instructions that wait report a pending floating-point error first. -/
  | x87 | x87Wait
  | mmx
  /-- FXSAVE, FXRSTOR. -/
  | fx
  | sse
  /-- XSAVE and its kind. -/
  | xsave
  | evex
  /-- The shadow-stack instructions: RSTORSSP, WRSS, WRUSS, CLRSSBSY. -/
  | rstorssp | wrss | wruss | clrssbsy
  /-- AES with a key-locker handle. -/
  | keyLocker
deriving DecidableEq, Repr

/-- Where an instruction has the mask of its elements (R176): an opmask register, or the bytes of an MMX or XMM register. -/
inductive MaskReg where
  | opmask (k : BitVec 3)
  | mmx (r : BitVec 3)
  | xmm (r : BitVec 3)
deriving DecidableEq, Repr

/-- Why bytes are no instruction of the table. -/
inductive DErr where
  /-- The bytes end inside the instruction. -/
  | truncated
  /-- The encoding raises #UD: a form the spec calls invalid (R152, R154, R189). -/
  | invalid
  /-- LOCK on an instruction that does not take it, which is no form that raises #UD: R415 counts it among the causes of #GP. That the
  error code is 0 is DEDUCED, and that no instruction of the table takes LOCK PRESUMED (entry 16). -/
  | lockMisuse
  /-- The bytes are no row of the opcode table (R18, entry 17). -/
  | notInTable (opcode : Byte)
  /-- An instruction that is no row of the table and references memory with 16-bit addressing: R176 gives it #GP(0), after the
  faults of its unit (entry 17). -/
  | addr16 (unit : MemUnit)
  /-- A string instruction of that kind with a repeat prefix: the fault comes where the count is not 0 (R176). -/
  | addr16Rep (opcode : Byte)
  /-- An instruction of that kind whose elements have a mask: the fault comes where one of the first `n` is not masked (R176). -/
  | addr16Mask (unit : MemUnit) (mask : MaskReg) (n : Nat) (opcode : Byte)
  /-- HLT, no row of the table, which R461 and R484 name; the argument is how many bytes follow it (entry 16). -/
  | halt (rest : Nat)
deriving DecidableEq, Repr

abbrev DRes (α : Type) := Except DErr α

/-- The repeat prefixes (R131): the last one decides (entry 16). -/
inductive Rep where
  | none | f2 | f3
deriving DecidableEq, Repr

/-- What the prefixes of an instruction say (R131, R132). -/
structure DCtx where
  l    : Bool
  osz  : Bool := false
  asz  : Bool := false
  seg  : SegOv := .none
  rep  : Rep := .none
  lock : Bool := false
  w    : Bool := false
  r    : Bool := false
  x    : Bool := false
  b    : Bool := false
deriving DecidableEq, Repr

def DCtx.pfx (c : DCtx) : Pfx := { osz := c.osz, asz := c.asz, seg := c.seg, w := c.w }

/-- What bytes with these prefixes are that would be `e` without LOCK and do not take it (R415). -/
def DCtx.locked (c : DCtx) (e : DErr) : DErr := if c.lock then .lockMisuse else e

/-- The register with encoding number `n` (R20). -/
def Reg.ofNum : Nat → Reg
  | 0 => .rax | 1 => .rcx | 2 => .rdx | 3 => .rbx | 4 => .rsp | 5 => .rbp | 6 => .rsi | 7 => .rdi
  | 8 => .r8 | 9 => .r9 | 10 => .r10 | 11 => .r11 | 12 => .r12 | 13 => .r13 | 14 => .r14 | _ => .r15

/-- The register named by a 3-bit field and its REX extension bit (R132). -/
def regOf (ext : Bool) (n : BitVec 3) : Reg := Reg.ofNum (n.toNat + (if ext then 8 else 0))

def Reg.lo (r : Reg) : BitVec 3 := BitVec.ofNat 3 r.num
def Reg.hi (r : Reg) : Bool := decide (8 ≤ r.num)

/-! ## Fields (R93, R130: little-endian) -/

def take8 : List Byte → DRes (BitVec 8 × List Byte)
  | b :: bs => .ok (b, bs)
  | [] => .error .truncated

def take16 : List Byte → DRes (BitVec 16 × List Byte)
  | b0 :: b1 :: bs => .ok (b1 ++ b0, bs)
  | _ => .error .truncated

def take32 : List Byte → DRes (BitVec 32 × List Byte)
  | b0 :: b1 :: b2 :: b3 :: bs => .ok (b3 ++ b2 ++ b1 ++ b0, bs)
  | _ => .error .truncated

def bytes16 (v : BitVec 16) : List Byte := [v.extractLsb' 0 8, v.extractLsb' 8 8]
def bytes32 (v : BitVec 32) : List Byte :=
  [v.extractLsb' 0 8, v.extractLsb' 8 8, v.extractLsb' 16 8, v.extractLsb' 24 8]

/-! ## Prefixes (R131, R132) -/

/-- One legacy prefix, or none. Any order is accepted; a later segment or repeat prefix replaces an earlier one, but the
overrides of CS, SS, DS and ES are no prefixes of 64-bit mode and replace nothing there (entry 16). -/
def legacyPrefix (c : DCtx) (b : Byte) : Option DCtx :=
  if b = 0x66 then some { c with osz := true }
  else if b = 0x67 then some { c with asz := true }
  else if b = 0xF2 then some { c with rep := .f2 }
  else if b = 0xF3 then some { c with rep := .f3 }
  else if b = 0xF0 then some { c with lock := true }
  else if b = 0x64 then some { c with seg := .fs }
  else if b = 0x65 then some { c with seg := .gs }
  else if b = 0x2E ∨ b = 0x36 ∨ b = 0x3E ∨ b = 0x26 then some (if c.l then c else { c with seg := .none })
  else none

def takePrefixes (c : DCtx) : List Byte → DCtx × List Byte
  | [] => (c, [])
  | b :: bs => match legacyPrefix c b with
    | some c' => takePrefixes c' bs
    | none => (c, b :: bs)

/-- REX, recognised only in 64-bit mode and immediately before the opcode (R132). -/
def takeRex (c : DCtx) : List Byte → DCtx × List Byte
  | [] => (c, [])
  | b :: bs =>
    if c.l ∧ b.extractLsb' 4 4 = 4 then
      ({ c with w := b.getLsbD 3, r := b.getLsbD 2, x := b.getLsbD 1, b := b.getLsbD 0 }, bs)
    else (c, b :: bs)

/-! ## ModRM, SIB and displacement (R133) -/

def takeDisp (mod : BitVec 2) (bs : List Byte) : DRes (Disp × List Byte) :=
  if mod = 0 then .ok (.none, bs)
  else if mod = 1 then do let (v, bs) ← take8 bs; return (.d8 v, bs)
  else do let (v, bs) ← take32 bs; return (.d32 v, bs)

/-- The 16-bit ModRM addressing table (R189). -/
def shortPair (rm : BitVec 3) : Option Reg × Option Reg :=
  if rm = 0 then (some .rbx, some .rsi)
  else if rm = 1 then (some .rbx, some .rdi)
  else if rm = 2 then (some .rbp, some .rsi)
  else if rm = 3 then (some .rbp, some .rdi)
  else if rm = 4 then (some .rsi, none)
  else if rm = 5 then (some .rdi, none)
  else if rm = 6 then (some .rbp, none)
  else (some .rbx, none)

def takeMemShort (mod : BitVec 2) (rm : BitVec 3) (bs : List Byte) : DRes (Mem × List Byte) :=
  if mod = 0 then
    if rm = 6 then do let (v, bs) ← take16 bs; return ({ disp := .d16 v }, bs)
    else .ok ({ base := (shortPair rm).1, index := (shortPair rm).2 }, bs)
  else if mod = 1 then do
    let (v, bs) ← take8 bs
    return ({ base := (shortPair rm).1, index := (shortPair rm).2, disp := .d8 v }, bs)
  else do
    let (v, bs) ← take16 bs
    return ({ base := (shortPair rm).1, index := (shortPair rm).2, disp := .d16 v }, bs)

def takeSib (c : DCtx) (mod : BitVec 2) (sib : Byte) (bs : List Byte) : DRes (Mem × List Byte) :=
  let index := if sib.extractLsb' 3 3 = 4 ∧ c.x = false then none else some (regOf c.x (sib.extractLsb' 3 3))
  let scale := if sib.extractLsb' 3 3 = 4 ∧ c.x = false then 0 else sib.extractLsb' 6 2
  if sib.extractLsb' 0 3 = 5 ∧ mod = 0 then do
    let (v, bs) ← take32 bs
    return ({ index := index, scale := scale, disp := .d32 v }, bs)
  else do
    let (d, bs) ← takeDisp mod bs
    return ({ base := some (regOf c.b (sib.extractLsb' 0 3)), index := index, scale := scale, disp := d }, bs)

def takeMemLong (c : DCtx) (mod : BitVec 2) (rm : BitVec 3) (bs : List Byte) : DRes (Mem × List Byte) :=
  if rm = 4 then do
    let (sib, bs) ← take8 bs
    takeSib c mod sib bs
  else if rm = 5 ∧ mod = 0 then do
    let (v, bs) ← take32 bs
    return ({ disp := .d32 v, rip := c.l }, bs)
  else do
    let (d, bs) ← takeDisp mod bs
    return ({ base := some (regOf c.b rm), disp := d }, bs)

/-- ModRM and what follows it: the reg field and the r/m operand. -/
def takeModRM (c : DCtx) (bs : List Byte) : DRes (BitVec 3 × RM × List Byte) := do
  let (m, bs) ← take8 bs
  if m.extractLsb' 6 2 = 3 then return (m.extractLsb' 3 3, .reg (regOf c.b (m.extractLsb' 0 3)), bs)
  else if c.l = false ∧ c.asz = true then do
    let (mem, bs) ← takeMemShort (m.extractLsb' 6 2) (m.extractLsb' 0 3) bs
    return (m.extractLsb' 3 3, .mem mem, bs)
  else do
    let (mem, bs) ← takeMemLong c (m.extractLsb' 6 2) (m.extractLsb' 0 3) bs
    return (m.extractLsb' 3 3, .mem mem, bs)

/-- An instruction whose operand must be memory: `mod = 3` is #UD (R189). -/
def memOnly (rm : RM) (f : Mem → Instr) (bs : List Byte) : DRes (Instr × List Byte) :=
  match rm with
  | .mem m => .ok (f m, bs)
  | .reg _ => .error .invalid

/-- The displacement of a near branch with a rel32 form: rel16 with 0x66 in compatibility mode (R137, R179). -/
def takeRel (c : DCtx) (bs : List Byte) : DRes (BitVec 32 × List Byte) :=
  if c.l = false ∧ c.osz = true then do
    let (v, bs) ← take16 bs
    return (v.signExtend 32, bs)
  else take32 bs

/-- A direct far pointer: offset, then selector; the offset has 2 bytes with 16-bit operand size (R137). -/
def takePtr (c : DCtx) (bs : List Byte) : DRes (BitVec 32 × BitVec 16 × List Byte) :=
  if c.osz = true ∧ c.w = false then do
    let (v, bs) ← take16 bs
    let (sel, bs) ← take16 bs
    return (v.setWidth 32, sel, bs)
  else do
    let (v, bs) ← take32 bs
    let (sel, bs) ← take16 bs
    return (v, sel, bs)

/-! ## Instructions outside the table, with 16-bit addressing (R176)

The lists of the baseline's opcodes are PRESUMED, the family's (entry 17). -/

/-- One-byte opcodes of the baseline's integer instructions whose r/m operand is data; `reg` is ModRM.reg. -/
def dataRM (op : Byte) (reg : BitVec 3) : Bool :=
  (decide (op.toNat < 0x40) && decide (op.toNat % 8 < 4)) || (decide (0x80 ≤ op.toNat) && decide (op.toNat < 0x8C)) ||
  (decide (0xD0 ≤ op.toNat) && decide (op.toNat < 0xD4)) ||
  [0x62, 0x69, 0x6B, 0xC0, 0xC1, 0xF6, 0xF7].contains op.toNat ||
  ([0x8F, 0xC6, 0xC7].contains op.toNat && reg == 0) || (op == 0xFE && reg < 2) || (op == 0xFF && (reg < 2 || reg == 6))

/-- The same for the opcodes after 0F: SETcc and CMOVcc, the bit instructions, XADD, CMPXCHG, MOVNTI, SMSW, and POPCNT and PTWRITE,
whose F3 prefix is part of the opcode. -/
def dataRM2 (rep : Rep) (op : Byte) (reg : BitVec 3) : Bool :=
  (op.extractLsb' 4 4 == 4) || (op.extractLsb' 4 4 == 9) ||
  [0xA3, 0xA4, 0xA5, 0xAB, 0xAC, 0xAD, 0xAF, 0xB0, 0xB1, 0xB3, 0xB6, 0xB7].contains op.toNat ||
  [0xBB, 0xBC, 0xBD, 0xBE, 0xBF, 0xC0, 0xC1, 0xC3].contains op.toNat || (op == 0xB8 && rep == .f3) ||
  (op == 0xAE && rep == .f3 && reg == 4) ||
  (op == 0xBA && 4 ≤ reg) || (op == 0xC7 && reg == 1) || (op == 0x01 && reg == 4)

/-- The opcodes that LOCK may precede, with an operand in memory. -/
def lockable (op : Byte) (reg : BitVec 3) : Bool :=
  [0x00, 0x01, 0x08, 0x09, 0x10, 0x11, 0x18, 0x19, 0x20, 0x21, 0x28, 0x29, 0x30, 0x31, 0x86, 0x87].contains op.toNat ||
  ([0x80, 0x81, 0x82, 0x83].contains op.toNat && reg != 7) || ([0xF6, 0xF7].contains op.toNat && (reg == 2 || reg == 3)) ||
  ([0xFE, 0xFF].contains op.toNat && reg < 2)

/-- The same after 0F. -/
def lockable2 (op : Byte) (reg : BitVec 3) : Bool :=
  [0xAB, 0xB0, 0xB1, 0xB3, 0xBB, 0xC0, 0xC1].contains op.toNat || (op == 0xBA && 5 ≤ reg) || (op == 0xC7 && reg == 1)

/-- MOV with a moffs operand and XLAT. -/
def dataImplicit (op : Byte) : Bool := [0xA0, 0xA1, 0xA2, 0xA3, 0xD7].contains op.toNat

/-- MOVS, CMPS, STOS, LODS, SCAS. -/
def dataString (op : Byte) : Bool :=
  [0xA4, 0xA5, 0xA6, 0xA7, 0xAA, 0xAB, 0xAC, 0xAD, 0xAE, 0xAF].contains op.toNat

/-- The unit whose instruction, with a one-byte opcode, has data in memory: D8 to DF are x87. -/
def memUnit (lock : Bool) (op : Byte) (reg : BitVec 3) : Option MemUnit :=
  if lock then (if lockable op reg then some .integer else none)
  else if dataRM op reg then some .integer
  else if op.extractLsb' 3 5 == 0x1B then
    if [(0xD9, 1), (0xDB, 4), (0xDB, 6), (0xDD, 5)].contains (op.toNat, reg.toNat) then none
    else some (if [(0xD9, 6), (0xD9, 7), (0xDD, 6), (0xDD, 7)].contains (op.toNat, reg.toNat) then .x87 else .x87Wait)
  else none

/-- Opcodes after 0F of SSE alone. -/
def sseOp (op : Byte) : Bool :=
  (decide (0x10 ≤ op.toNat) && decide (op.toNat < 0x18)) || (decide (0x28 ≤ op.toNat) && decide (op.toNat < 0x30)) ||
  (decide (0x51 ≤ op.toNat) && decide (op.toNat < 0x60)) || op == 0xC2 || op == 0xC6

/-- Opcodes after 0F of MMX, and with 66, F2 or F3 of SSE. -/
def mmxOp (op : Byte) : Bool :=
  (decide (0x60 ≤ op.toNat) && decide (op.toNat < 0x71)) || [0x74, 0x75, 0x76, 0x7C, 0x7D, 0x7E, 0x7F, 0xC4].contains op.toNat ||
  (decide (0xD0 ≤ op.toNat) && decide (op.toNat < 0xFF) && op != 0xD7 && op != 0xF7)

/-- Those of them that exist only with a prefix. -/
def sseOnlyOp (op : Byte) : Bool := [0x6C, 0x6D, 0x7C, 0x7D, 0xD0, 0xD6, 0xE6, 0xF0].contains op.toNat

/-- A prefix that selects an SSE form is present. -/
def DCtx.ssePfx (c : DCtx) : Bool := c.osz || c.rep != .none

/-- The unit whose instruction, with an opcode after 0F, has data in memory. -/
def memUnit2 (c : DCtx) (op : Byte) (reg : BitVec 3) : Option MemUnit :=
  if c.lock then (if lockable2 op reg then some .integer else none)
  else if dataRM2 c.rep op reg then some .integer
  else if sseOp op then some .sse
  else if mmxOp op then (if c.ssePfx then some .sse else if sseOnlyOp op then none else some .mmx)
  else if op = 0xAE ∧ c.ssePfx = false then
    if reg < 2 then some .fx else if reg < 4 then some .sse else if reg < 7 then some .xsave else none
  else if op = 0xC7 ∧ c.ssePfx = false ∧ (reg = 3 ∨ reg = 4 ∨ reg = 5) then some .xsave
  else if op = 0x01 ∧ c.rep = .f3 ∧ reg = 5 then some .rstorssp
  else if op = 0xAE ∧ c.rep = .f3 ∧ reg = 6 then some .clrssbsy
  else none

/-- Opcodes after 66 0F 38 and 66 0F 3A. -/
def sseOp38 (op : Byte) : Bool :=
  [0x10, 0x14, 0x15, 0x17, 0x20, 0x21, 0x22, 0x23, 0x24, 0x25, 0x28, 0x29, 0x2A, 0x2B].contains op.toNat ||
  [0xCF, 0xDB, 0xDC, 0xDD, 0xDE, 0xDF].contains op.toNat || (decide (0x30 ≤ op.toNat) && decide (op.toNat < 0x42) && op != 0x36)
def sseOp3A (op : Byte) : Bool :=
  (decide (0x08 ≤ op.toNat) && decide (op.toNat < 0x10)) ||
  [0x14, 0x15, 0x16, 0x17, 0x20, 0x21, 0x22, 0x40, 0x41, 0x42, 0x44, 0x60, 0x61, 0x62, 0x63, 0xCE, 0xCF, 0xDF].contains op.toNat

/-- The same for the opcodes after 0F 38: MOVBE, CRC32, ADCX, ADOX, MOVDIRI, MOVDIR64B, ENQCMD, INVPCID, AADD and its kind, WRSS,
WRUSS, and the vector and key-locker ones. -/
def memUnit38 (c : DCtx) (op : Byte) : Option MemUnit :=
  if c.lock then none
  else if op = 0xF0 ∨ op = 0xF1 ∨ op = 0xFC ∨ ((op = 0xF6 ∨ op = 0xF8) ∧ c.ssePfx = true) then some .integer
  else if (op = 0xF9 ∧ c.ssePfx = false) ∨ (op = 0x82 ∧ c.osz = true) then some .integer
  else if op = 0xF6 then some .wrss
  else if op = 0xF5 ∧ c.osz = true then some .wruss
  else if c.rep = .f3 ∧ (op = 0xD8 ∨ (0xDC ≤ op.toNat ∧ op.toNat < 0xE0)) then some .keyLocker
  else if op.toNat < 0x0C ∨ op = 0x1C ∨ op = 0x1D ∨ op = 0x1E then some (if c.ssePfx then .sse else .mmx)
  else if c.osz && sseOp38 op then some .sse
  else if c.ssePfx = false ∧ 0xC8 ≤ op.toNat ∧ op.toNat < 0xCE then some .sse
  else none

/-- The same for the opcodes after 0F 3A. -/
def memUnit3A (c : DCtx) (op : Byte) : Option MemUnit :=
  if c.lock then none
  else if op = 0x0F then some (if c.ssePfx then .sse else .mmx)
  else if (c.osz && sseOp3A op) || (!c.ssePfx && op == 0xCC) then some .sse
  else none

/-- `e`, once `n` more bytes have been fetched: a fault in their fetch comes first (R422). -/
def afterBytes (n : Nat) (bs : List Byte) (e : DErr) : DErr := if bs.length < n then .truncated else e

/-- How many bytes of immediate follow the memory operand of a one-byte opcode of `dataRM` (PRESUMED, the family's, entry 17). -/
def immBytes (c : DCtx) (op : Byte) (reg : BitVec 3) : Nat :=
  if [0x6B, 0x80, 0x82, 0x83, 0xC0, 0xC1, 0xC6].contains op.toNat || (op == 0xF6 && reg < 2) then 1
  else if [0x69, 0x81, 0xC7].contains op.toNat || (op == 0xF7 && reg < 2) then (if c.osz then 2 else 4)
  else 0

/-- The same for the opcodes after 0F. -/
def immBytes2 (op : Byte) : Nat := if [0x70, 0xA4, 0xAC, 0xBA, 0xC2, 0xC4, 0xC6].contains op.toNat then 1 else 0

/-- An opcode with a ModRM byte that is no row of the table: `unit` says for which ModRM.reg its r/m operand is data, `imm` how many
bytes of immediate follow, which are fetched before the fault of that operand. LOCK on another instruction is misused (R415, entry
17). -/
def outsideRM (c : DCtx) (op : Byte) (unit : BitVec 3 → Option MemUnit) (imm : BitVec 3 → Nat) (bs : List Byte) : DErr :=
  let other := c.locked (.notInTable op)
  match takeModRM c bs with
  | .ok (reg, .mem _, rest) => match unit reg with
    | some u => afterBytes (imm reg) rest (.addr16 u)
    | none => other
  | .ok _ => other
  | .error e => if (unit 0).isSome || (unit 1).isSome then e else other

/-! EVEX: the opcode map is `map`, the mandatory prefix `pp` is 0 for none, 1 for 66, 2 for F3, 3 for F2. The rows below are
PRESUMED, the family's (entry 17). -/

/-- The elements of an EVEX instruction: it does not exist, it takes no opmask, it has `n` of them, or as many of `n` bytes as its
vector length holds. -/
inductive EvexElems where
  | absent
  | unmasked
  | count (n : Nat)
  | bytes (n : Nat)
deriving DecidableEq, Repr

/-- EVEX opcodes with the same elements, with W = 0 and with W = 1. -/
structure EvexRow where
  map : Nat
  pp  : Nat
  w0  : EvexElems
  w1  : EvexElems
  ops : List Nat
deriving DecidableEq, Repr

/-- The EVEX instructions after 0F with an operand in memory. -/
def evexMap1 : List EvexRow :=
  [⟨1, 0, .bytes 4, .absent, [0x10, 0x11, 0x14, 0x15, 0x28, 0x29, 0x51, 0x54, 0x55, 0x56, 0x57, 0x58, 0x59, 0x5C, 0x5D, 0x5E, 0x5F, 0xC2, 0xC6]⟩,
   ⟨1, 0, .unmasked, .absent, [0x12, 0x13, 0x16, 0x17, 0x2B, 0x2E, 0x2F]⟩,
   ⟨1, 0, .bytes 8, .absent, [0x5A]⟩,
   ⟨1, 0, .bytes 4, .bytes 8, [0x5B, 0x78, 0x79]⟩,
   ⟨1, 1, .absent, .bytes 8, [0x10, 0x11, 0x14, 0x15, 0x28, 0x29, 0x51, 0x54, 0x55, 0x56, 0x57, 0x58, 0x59, 0x5A, 0x5C, 0x5D, 0x5E, 0x5F, 0x6C, 0x6D]⟩,
   ⟨1, 1, .absent, .bytes 8, [0xC2, 0xC6, 0xD3, 0xD4, 0xE6, 0xF3, 0xF4, 0xFB]⟩,
   ⟨1, 1, .absent, .unmasked, [0x12, 0x13, 0x16, 0x17, 0x2B, 0x2E, 0x2F, 0xD6]⟩,
   ⟨1, 1, .bytes 4, .absent, [0x5B, 0x62, 0x66, 0x6A, 0x70, 0x76, 0xD2, 0xF2, 0xFA, 0xFE]⟩,
   ⟨1, 1, .bytes 8, .bytes 8, [0x78, 0x79, 0x7A, 0x7B]⟩,
   ⟨1, 1, .bytes 1, .bytes 1, [0x60, 0x63, 0x64, 0x67, 0x68, 0x74, 0xD8, 0xDA, 0xDC, 0xDE, 0xE0, 0xE8, 0xEC, 0xF8, 0xFC]⟩] ++
  [⟨1, 1, .bytes 2, .bytes 2, [0x61, 0x65, 0x69, 0x75, 0xD1, 0xD5, 0xD9, 0xDD, 0xE1, 0xE3, 0xE4, 0xE5, 0xE9, 0xEA, 0xED, 0xEE, 0xF1, 0xF9, 0xFD]⟩,
   ⟨1, 1, .bytes 2, .absent, [0x6B]⟩,
   ⟨1, 1, .bytes 4, .bytes 8, [0x6F, 0x7F, 0xDB, 0xDF, 0xE2, 0xEB, 0xEF]⟩,
   ⟨1, 1, .bytes 4, .bytes 4, [0xF5]⟩,
   ⟨1, 1, .unmasked, .unmasked, [0x6E, 0x7E, 0xC4, 0xF6]⟩,
   ⟨1, 1, .unmasked, .absent, [0xE7]⟩,
   ⟨1, 2, .count 1, .absent, [0x10, 0x11, 0x51, 0x58, 0x59, 0x5A, 0x5C, 0x5D, 0x5E, 0x5F, 0xC2]⟩,
   ⟨1, 2, .bytes 4, .absent, [0x12, 0x16, 0x5B]⟩,
   ⟨1, 2, .unmasked, .unmasked, [0x2A, 0x2C, 0x2D, 0x78, 0x79, 0x7B]⟩,
   ⟨1, 2, .bytes 8, .bytes 8, [0x7A, 0xE6]⟩] ++
  [⟨1, 2, .bytes 2, .bytes 2, [0x70]⟩,
   ⟨1, 2, .bytes 4, .bytes 8, [0x6F, 0x7F]⟩,
   ⟨1, 2, .absent, .unmasked, [0x7E]⟩,
   ⟨1, 3, .absent, .count 1, [0x10, 0x11, 0x51, 0x58, 0x59, 0x5A, 0x5C, 0x5D, 0x5E, 0x5F, 0xC2]⟩,
   ⟨1, 3, .absent, .bytes 8, [0x12, 0xE6]⟩,
   ⟨1, 3, .unmasked, .unmasked, [0x2A, 0x2C, 0x2D, 0x78, 0x79, 0x7B]⟩,
   ⟨1, 3, .bytes 4, .bytes 8, [0x7A]⟩,
   ⟨1, 3, .bytes 2, .bytes 2, [0x70]⟩,
   ⟨1, 3, .bytes 1, .bytes 2, [0x6F, 0x7F]⟩]

/-- The EVEX instructions after 0F 38 with an operand in memory. -/
def evexMap2 : List EvexRow :=
  [⟨2, 1, .bytes 1, .bytes 1, [0x00, 0x1C, 0x38, 0x3C]⟩,
   ⟨2, 1, .bytes 1, .absent, [0x78, 0x8F, 0xCF]⟩,
   ⟨2, 1, .absent, .bytes 1, [0x83]⟩,
   ⟨2, 1, .bytes 2, .bytes 2, [0x04, 0x0B, 0x1D, 0x20, 0x30, 0x3A, 0x3E]⟩,
   ⟨2, 1, .bytes 2, .absent, [0x2B, 0x79]⟩,
   ⟨2, 1, .absent, .bytes 2, [0x10, 0x11, 0x12, 0x70, 0x72]⟩,
   ⟨2, 1, .bytes 4, .bytes 4, [0x21, 0x23, 0x31, 0x33]⟩,
   ⟨2, 1, .bytes 4, .absent, [0x0C, 0x13, 0x18, 0x1E, 0x50, 0x51, 0x52, 0x53, 0x58]⟩,
   ⟨2, 1, .bytes 8, .bytes 8, [0x22, 0x24, 0x32, 0x34]⟩,
   ⟨2, 1, .bytes 8, .absent, [0x25, 0x35]⟩] ++
  [⟨2, 1, .absent, .bytes 8, [0x0D, 0x1F, 0x28, 0x29, 0x37, 0xB4, 0xB5]⟩,
   ⟨2, 1, .bytes 4, .bytes 8, [0x14, 0x15, 0x16, 0x19, 0x1A, 0x1B, 0x27, 0x2C, 0x36, 0x39, 0x3B, 0x3D, 0x3F, 0x40, 0x42, 0x44, 0x45, 0x46, 0x47, 0x4C]⟩,
   ⟨2, 1, .bytes 4, .bytes 8, [0x4E, 0x55, 0x59, 0x5A, 0x5B, 0x64, 0x65, 0x71, 0x73, 0x76, 0x77, 0x7E, 0x7F, 0x88, 0x89, 0x8A, 0x8B, 0x96, 0x97, 0x98]⟩,
   ⟨2, 1, .bytes 4, .bytes 8, [0x9A, 0x9C, 0x9E, 0xA6, 0xA7, 0xA8, 0xAA, 0xAC, 0xAE, 0xB6, 0xB7, 0xB8, 0xBA, 0xBC, 0xBE, 0xC4, 0xC8, 0xCA, 0xCC]⟩,
   ⟨2, 1, .count 1, .count 1, [0x2D, 0x43, 0x4D, 0x4F, 0x99, 0x9B, 0x9D, 0x9F, 0xA9, 0xAB, 0xAD, 0xAF, 0xB9, 0xBB, 0xBD, 0xBF, 0xCB, 0xCD]⟩,
   ⟨2, 1, .bytes 1, .bytes 2, [0x26, 0x54, 0x62, 0x63, 0x66, 0x75, 0x7D, 0x8D]⟩,
   ⟨2, 1, .unmasked, .absent, [0x2A]⟩,
   ⟨2, 1, .unmasked, .unmasked, [0xDC, 0xDD, 0xDE, 0xDF]⟩,
   ⟨2, 2, .bytes 2, .absent, [0x10, 0x20, 0x30]⟩,
   ⟨2, 2, .bytes 4, .absent, [0x11, 0x13, 0x21, 0x23, 0x31, 0x33, 0x52, 0x72]⟩] ++
  [⟨2, 2, .bytes 8, .absent, [0x12, 0x14, 0x15, 0x22, 0x24, 0x25, 0x32, 0x34, 0x35]⟩,
   ⟨2, 2, .bytes 1, .bytes 2, [0x26]⟩,
   ⟨2, 2, .bytes 4, .bytes 8, [0x27]⟩,
   ⟨2, 3, .bytes 4, .absent, [0x52, 0x53, 0x9A, 0xAA]⟩,
   ⟨2, 3, .count 1, .absent, [0x9B, 0xAB]⟩,
   ⟨2, 3, .bytes 2, .absent, [0x72]⟩,
   ⟨2, 3, .unmasked, .unmasked, [0x68]⟩]

/-- The EVEX instructions after 0F 3A with an operand in memory. -/
def evexMap3 : List EvexRow :=
  [⟨3, 0, .bytes 2, .absent, [0x08, 0x26, 0x56, 0x66, 0xC2]⟩,
   ⟨3, 0, .count 1, .absent, [0x0A, 0x27, 0x57, 0x67]⟩,
   ⟨3, 1, .absent, .bytes 8, [0x00, 0x01, 0x05, 0x09]⟩,
   ⟨3, 1, .bytes 4, .bytes 8, [0x03, 0x18, 0x1A, 0x1E, 0x1F, 0x23, 0x25, 0x26, 0x38, 0x3A, 0x43, 0x50, 0x54, 0x56, 0x66, 0x71, 0x73]⟩,
   ⟨3, 1, .bytes 4, .absent, [0x04, 0x08, 0x1D]⟩,
   ⟨3, 1, .count 1, .absent, [0x0A]⟩,
   ⟨3, 1, .absent, .count 1, [0x0B]⟩,
   ⟨3, 1, .count 1, .count 1, [0x27, 0x51, 0x55, 0x57, 0x67]⟩,
   ⟨3, 1, .bytes 1, .bytes 1, [0x0F]⟩,
   ⟨3, 1, .absent, .bytes 1, [0xCE, 0xCF]⟩] ++
  [⟨3, 1, .bytes 2, .absent, [0x42]⟩,
   ⟨3, 1, .absent, .bytes 2, [0x70, 0x72]⟩,
   ⟨3, 1, .bytes 1, .bytes 2, [0x3E, 0x3F]⟩,
   ⟨3, 1, .count 4, .count 2, [0x19, 0x39]⟩,
   ⟨3, 1, .count 8, .count 4, [0x1B, 0x3B]⟩,
   ⟨3, 1, .unmasked, .unmasked, [0x14, 0x15, 0x16, 0x17, 0x20, 0x22, 0x44]⟩,
   ⟨3, 1, .unmasked, .absent, [0x21]⟩,
   ⟨3, 2, .count 1, .absent, [0xC2]⟩]

/-- The EVEX instructions of the half-precision map 5 with an operand in memory. -/
def evexMap5 : List EvexRow :=
  [⟨5, 0, .bytes 2, .absent, [0x51, 0x58, 0x59, 0x5C, 0x5D, 0x5E, 0x5F, 0x7C, 0x7D]⟩,
   ⟨5, 0, .count 1, .absent, [0x1D]⟩,
   ⟨5, 0, .bytes 8, .absent, [0x5A]⟩,
   ⟨5, 0, .bytes 4, .bytes 8, [0x5B]⟩,
   ⟨5, 0, .bytes 4, .absent, [0x78, 0x79]⟩,
   ⟨5, 0, .unmasked, .absent, [0x2E, 0x2F]⟩,
   ⟨5, 1, .bytes 2, .absent, [0x7C, 0x7D]⟩,
   ⟨5, 1, .bytes 4, .absent, [0x1D, 0x5B]⟩,
   ⟨5, 1, .absent, .bytes 8, [0x5A]⟩,
   ⟨5, 1, .bytes 8, .absent, [0x78, 0x79, 0x7A, 0x7B]⟩] ++
  [⟨5, 1, .unmasked, .unmasked, [0x6E, 0x7E]⟩,
   ⟨5, 2, .bytes 2, .absent, [0x7D]⟩,
   ⟨5, 2, .count 1, .absent, [0x10, 0x11, 0x51, 0x58, 0x59, 0x5A, 0x5C, 0x5D, 0x5E, 0x5F]⟩,
   ⟨5, 2, .bytes 4, .absent, [0x5B]⟩,
   ⟨5, 2, .unmasked, .unmasked, [0x2A, 0x2C, 0x2D, 0x78, 0x79, 0x7B]⟩,
   ⟨5, 3, .bytes 2, .absent, [0x7D]⟩,
   ⟨5, 3, .absent, .count 1, [0x5A]⟩,
   ⟨5, 3, .bytes 4, .bytes 8, [0x7A]⟩]

/-- The EVEX instructions of the half-precision map 6 with an operand in memory. -/
def evexMap6 : List EvexRow :=
  [⟨6, 0, .count 1, .absent, [0x13]⟩,
   ⟨6, 1, .bytes 2, .absent, [0x2C, 0x42, 0x4C, 0x4E, 0x96, 0x97, 0x98, 0x9A, 0x9C, 0x9E, 0xA6, 0xA7, 0xA8, 0xAA, 0xAC, 0xAE, 0xB6, 0xB7, 0xB8, 0xBA]⟩,
   ⟨6, 1, .bytes 2, .absent, [0xBC, 0xBE]⟩,
   ⟨6, 1, .count 1, .absent, [0x2D, 0x43, 0x4D, 0x4F, 0x99, 0x9B, 0x9D, 0x9F, 0xA9, 0xAB, 0xAD, 0xAF, 0xB9, 0xBB, 0xBD, 0xBF]⟩,
   ⟨6, 1, .bytes 4, .absent, [0x13]⟩,
   ⟨6, 2, .bytes 4, .absent, [0x56, 0xD6]⟩,
   ⟨6, 2, .count 1, .absent, [0x57, 0xD7]⟩,
   ⟨6, 3, .bytes 4, .absent, [0x56, 0xD6]⟩,
   ⟨6, 3, .count 1, .absent, [0x57, 0xD7]⟩]

/-- The EVEX shifts by an immediate, 66 0F 71 to 73, which ModRM.reg tells apart; the byte shifts of 73 take no opmask. -/
def evexShift (op reg : Nat) (w : Bool) : EvexElems :=
  if op = 0x71 then (if [2, 4, 6].contains reg then .bytes 2 else .absent)
  else if op = 0x72 then
    if [0, 1, 4].contains reg then .bytes (if w then 8 else 4)
    else if [2, 6].contains reg && !w then .bytes 4 else .absent
  else if [2, 6].contains reg && w then .bytes 8
  else if [3, 7].contains reg then .unmasked else .absent

/-- The elements of the EVEX instruction with these fields. -/
def evexElems (map pp op reg : Nat) (w : Bool) : EvexElems :=
  if map = 1 ∧ pp = 1 ∧ 0x71 ≤ op ∧ op < 0x74 then evexShift op reg w
  else
    let rows := (evexMap1 ++ evexMap2 ++ evexMap3 ++ evexMap5 ++ evexMap6).filter
      (fun r => r.map == map && r.pp == pp && r.ops.contains op)
    ((rows.map (fun r => if w then r.w1 else r.w0)).find? (· != .absent)).getD .absent

/-- How many elements have a bit of the opmask, at vector length LL. -/
def EvexElems.number (ll : Nat) : EvexElems → Nat
  | .count n => n
  | .bytes n => 16 * 2 ^ ll / n
  | _ => 0

/-- EVEX gathers and scatters, and their prefetches: a vector of indices has no 16-bit form (PRESUMED, the family's, entry 17). -/
def evexVsib (map op : Nat) : Bool :=
  map == 2 && ((0x90 ≤ op && op < 0x94) || (0xA0 ≤ op && op < 0xA4) || op == 0xC6 || op == 0xC7)

/-- How many bytes of immediate follow the operand of an EVEX instruction (PRESUMED, the family's, entry 17). -/
def evexImm (map op : Nat) : Nat :=
  if map = 3 ∨ (map = 1 ∧ [0x70, 0x71, 0x72, 0x73, 0xC2, 0xC4, 0xC6].contains op) then 1 else 0

/-- EVEX in compatibility mode: 62, two bits 11, and after two more bytes opcode and ModRM; with no opmask (aaa = 0) no element is
masked off, and an opmask on an instruction that takes none is #UD. An instruction the rows do not hold is refused. -/
def outsideEvex (c : DCtx) (bs : List Byte) : DErr :=
  match bs with
  | p0 :: p1 :: p2 :: op :: m :: rest =>
    if p0.extractLsb' 6 2 = 3 then
      let map := (p0.extractLsb' 0 3).toNat
      if c.ssePfx = true ∨ p0.getLsbD 3 = true ∨ p1.getLsbD 2 = false then .invalid
      else if [1, 2, 3, 5, 6].contains map = false then .invalid
      else if m.extractLsb' 6 2 = 3 then c.locked (.notInTable 0x62)
      else if evexVsib map op.toNat then .invalid
      else
        let elems := evexElems map (p1.extractLsb' 0 2).toNat op.toNat (m.extractLsb' 3 3).toNat (p1.getLsbD 7)
        let ll := (p2.extractLsb' 5 2).toNat
        if elems = .absent ∨ ll = 3 then c.locked (.notInTable 0x62)
        else match takeModRM c (m :: rest) with
          | .error e => e
          | .ok (_, _, rest) => afterBytes (evexImm map op.toNat) rest
            (if p2.extractLsb' 0 3 = 0 then c.locked (.addr16 .evex)
             else if elems = .unmasked then .invalid
             else c.locked (.addr16Mask .evex (.opmask (p2.extractLsb' 0 3)) (elems.number ll) 0x62))
    else outsideRM c 0x62 (memUnit c.lock 0x62) (fun _ => 0) bs
  | p0 :: _ => if p0.extractLsb' 6 2 = 3 then .truncated else outsideRM c 0x62 (memUnit c.lock 0x62) (fun _ => 0) bs
  | [] => .truncated

/-- MASKMOVQ and MASKMOVDQU (0F F7), which store to the address in DI the bytes that the mask register selects. -/
def outsideMaskmov (c : DCtx) (bs : List Byte) : DErr :=
  match bs with
  | [] => .truncated
  | m :: _ =>
    if m.extractLsb' 6 2 ≠ 3 ∨ c.rep ≠ .none then .invalid
    else c.locked (if c.osz then .addr16Mask .sse (.xmm (m.extractLsb' 0 3)) 16 0xF7
      else .addr16Mask .mmx (.mmx (m.extractLsb' 0 3)) 8 0xF7)

/-- Why an opcode outside the table is no instruction of it. The offset of a MOV with moffs, 2 bytes, is fetched before its fault
(R422, entry 17). -/
def outside (c : DCtx) (op : Byte) (bs : List Byte) : DErr :=
  if c.l = true ∨ c.asz = false then .notInTable op
  else if dataImplicit op then afterBytes (if op = 0xD7 then 0 else 2) bs (c.locked (.addr16 .integer))
  else if dataString op then c.locked (if c.rep = .none then .addr16 .integer else .addr16Rep op)
  else if op = 0x62 then outsideEvex c bs
  else outsideRM c op (memUnit c.lock op) (immBytes c op) bs

/-- The same after 0F. -/
def outside2 (c : DCtx) (op : Byte) (bs : List Byte) : DErr :=
  if c.l = true ∨ c.asz = false then .notInTable op
  else if op = 0x38 ∨ op = 0x3A then
    match bs with
    | third :: rest =>
      outsideRM c op (fun _ => if op = 0x38 then memUnit38 c third else memUnit3A c third) (fun _ => if op = 0x3A then 1 else 0) rest
    | [] => .truncated
  else if op = 0xF7 then outsideMaskmov c bs
  else outsideRM c op (memUnit2 c op) (fun _ => immBytes2 op) bs

/-! ## Opcodes -/

/-- 0F 00 (R142). -/
def decodeGroup6 (c : DCtx) (bs : List Byte) : DRes (Instr × List Byte) := do
  let (reg, rm, bs) ← takeModRM c bs
  let p := c.pfx
  if reg = 0 then return (.sldt p rm, bs)
  else if reg = 1 then return (.str p rm, bs)
  else if reg = 2 then return (.lldt p rm, bs)
  else if reg = 3 then return (.ltr p rm, bs)
  else if reg = 4 then return (.verr p rm, bs)
  else if reg = 5 then return (.verw p rm, bs)
  else if reg = 6 ∧ c.rep = .f2 then return (.lkgs p rm, bs)
  else .error (.notInTable 0x00)

/-- 0F 01 (R141 to R144): the forms with a fixed third byte first, then the ModRM forms. LGDT and LIDT with `mod = 3` are #UD
(R220, R221), but where the third byte is another instruction of the baseline: D0, D1, D4 to D7 (entry 16). A prefix that is
part of no form is ignored (R131 is silent; PRESUMED, entry 16). -/
def decodeGroup7 (c : DCtx) (bs : List Byte) : DRes (Instr × List Byte) := do
  let (reg, rm, rest) ← takeModRM c bs
  let p := c.pfx
  match rm with
  | .mem m =>
    if reg = 0 then return (.sgdt p m, rest)
    else if reg = 1 then return (.sidt p m, rest)
    else if reg = 2 then return (.lgdt p m, rest)
    else if reg = 3 then return (.lidt p m, rest)
    else if reg = 6 then return (.lmsw p rm, rest)
    else .error (outside2 c 0x01 bs)
  | .reg _ => do
    let (third, _) ← take8 bs
    if third = 0xC2 then return (.vmlaunch, rest)
    else if third = 0xC3 then return (.vmresume, rest)
    else if third = 0xCA ∧ c.rep = .f3 then return (.eretu, rest)
    else if third = 0xCA ∧ c.rep = .f2 then return (.erets, rest)
    else if third = 0xCD ∧ c.osz = true ∧ c.rep = .none then return (.seamret, rest)
    else if third = 0xF8 then return (.swapgs, rest)
    else if reg = 6 then return (.lmsw p rm, rest)
    else if reg = 3 ∨ third = 0xD2 ∨ third = 0xD3 then .error .invalid
    else .error (.notInTable 0x01)

/-- F3 0F AE with mod = 3 (R142). -/
def decodeFsGsBase (c : DCtx) (bs : List Byte) : DRes (Instr × List Byte) := do
  let (reg, rm, rest) ← takeModRM c bs
  match rm with
  | .reg r =>
    if c.rep ≠ .f3 then .error (.notInTable 0xAE)
    else if reg = 0 then return (.rdfsbase c.pfx r, rest)
    else if reg = 1 then return (.rdgsbase c.pfx r, rest)
    else if reg = 2 then return (.wrfsbase c.pfx r, rest)
    else if reg = 3 then return (.wrgsbase c.pfx r, rest)
    else .error (.notInTable 0xAE)
  | .mem _ => .error (outside2 c 0xAE bs)

/-- 0F 20 and 0F 22: the `mod` field is not looked at, the operand is always a register (R143, entry 16). -/
def takeCrOperands (c : DCtx) (bs : List Byte) : DRes (BitVec 3 × Reg × List Byte) := do
  let (m, bs) ← take8 bs
  return (m.extractLsb' 3 3, regOf c.b (m.extractLsb' 0 3), bs)

def decodeMovToCr (c : DCtx) (bs : List Byte) : DRes (Instr × List Byte) := do
  let (n, r, bs) ← takeCrOperands c bs
  if n = 0 ∧ c.r = true then return (.movCr8R r, bs)
  else if c.r = true then .error .invalid
  else if n = 0 then return (.movCr0R r, bs)
  else if n = 2 then return (.movCr2R r, bs)
  else if n = 3 then return (.movCr3R r, bs)
  else if n = 4 then return (.movCr4R r, bs)
  else .error .invalid

/-- The two-byte opcodes, after 0F. -/
def decodeTwo (c : DCtx) (bs : List Byte) : DRes (Instr × List Byte) := do
  let (op, bs) ← take8 bs
  let p := c.pfx
  if op.extractLsb' 4 4 = 8 then
    let (rel, bs) ← takeRel c bs
    return (.jccRel32 p (op.extractLsb' 0 4) rel, bs)
  else if op = 0x00 then decodeGroup6 c bs
  else if op = 0x01 then decodeGroup7 c bs
  else if op = 0x02 then
    let (reg, rm, bs) ← takeModRM c bs
    return (.lar p (regOf c.r reg) rm, bs)
  else if op = 0x03 then
    let (reg, rm, bs) ← takeModRM c bs
    return (.lsl p (regOf c.r reg) rm, bs)
  else if op = 0x05 then return (.syscall, bs)
  else if op = 0x07 then return (.sysret p, bs)
  else if op = 0x1F then
    let (reg, rm, bs) ← takeModRM c bs
    if reg = 0 then return (.nopRM p rm, bs) else .error (.notInTable 0x1F)
  else if op = 0x20 then
    let (n, r, bs) ← takeCrOperands c bs
    return (.movRCr (n.setWidth 4 + (if c.r then 8 else 0)) r, bs)
  else if op = 0x22 then decodeMovToCr c bs
  else if op = 0x30 then return (.wrmsr, bs)
  else if op = 0x32 then return (.rdmsr, bs)
  else if op = 0x34 then return (.sysenter, bs)
  else if op = 0x35 then return (.sysexit p, bs)
  else if op = 0x37 then return (.getsec, bs)
  else if op = 0xA0 then return (.pushFs p, bs)
  else if op = 0xA1 then return (.popFs p, bs)
  else if op = 0xA2 then return (.cpuid, bs)
  else if op = 0xA8 then return (.pushGs p, bs)
  else if op = 0xA9 then return (.popGs p, bs)
  else if op = 0xAA then return (.rsm, bs)
  else if op = 0xAE then decodeFsGsBase c bs
  else if op = 0xB2 then
    let (reg, rm, bs) ← takeModRM c bs
    memOnly rm (.lss p (regOf c.r reg)) bs
  else if op = 0xB4 then
    let (reg, rm, bs) ← takeModRM c bs
    memOnly rm (.lfs p (regOf c.r reg)) bs
  else if op = 0xB5 then
    let (reg, rm, bs) ← takeModRM c bs
    memOnly rm (.lgs p (regOf c.r reg)) bs
  else .error (outside2 c op bs)

/-- FF: the branch forms /2 to /5; /0, /1 and /6 are baseline, /7 is undefined (entry 16). -/
def decodeGroup5 (c : DCtx) (bs : List Byte) : DRes (Instr × List Byte) := do
  let (reg, rm, rest) ← takeModRM c bs
  if reg = 2 then return (.callRM c.pfx rm, rest)
  else if reg = 3 then memOnly rm (.callFarM c.pfx) rest
  else if reg = 4 then return (.jmpRM c.pfx rm, rest)
  else if reg = 5 then memOnly rm (.jmpFarM c.pfx) rest
  else if reg = 7 then .error .invalid
  else .error (outside c 0xFF bs)

/-- C4, C5 and 63: in 64-bit mode they are VEX and MOVSXD, baseline (R152, entry 17). -/
def decodeCompatOnly (c : DCtx) (op : Byte) (bs : List Byte) : DRes (Instr × List Byte) :=
  if c.l = true then .error (.notInTable op)
  else do
    let (reg, rm, bs) ← takeModRM c bs
    if op = 0xC4 then memOnly rm (.les c.pfx (regOf c.r reg)) bs
    else if op = 0xC5 then memOnly rm (.lds c.pfx (regOf c.r reg)) bs
    else return (.arpl c.pfx rm (regOf c.r reg), bs)

/-- The opcodes after the prefixes. MOV to and from a segment register (8E, 8C) has the three bits of ModRM.reg; REX.R is ignored
(R214 is silent; PRESUMED, entry 16). F4 is HLT. -/
def decodeOne (c : DCtx) (bs : List Byte) : DRes (Instr × List Byte) := do
  let (op, bs) ← take8 bs
  let p := c.pfx
  if op = 0x0F then decodeTwo c bs
  else if op.extractLsb' 4 4 = 7 then
    let (rel, bs) ← take8 bs
    return (.jccRel8 p (op.extractLsb' 0 4) rel, bs)
  else if op = 0x06 then return (.pushEs p, bs)
  else if op = 0x07 then return (.popEs p, bs)
  else if op = 0x0E then return (.pushCs p, bs)
  else if op = 0x16 then return (.pushSs p, bs)
  else if op = 0x17 then return (.popSs p, bs)
  else if op = 0x1E then return (.pushDs p, bs)
  else if op = 0x1F then return (.popDs p, bs)
  else if op = 0x63 then decodeCompatOnly c op bs
  else if op = 0x6C then return (.insb, bs)
  else if op = 0x6D then return (.insd, bs)
  else if op = 0x6E then return (.outsb, bs)
  else if op = 0x6F then return (.outsd, bs)
  else if op = 0x8C then
    let (reg, rm, bs) ← takeModRM c bs
    return (.movRMSreg p reg rm, bs)
  else if op = 0x8D then
    let (reg, rm, bs) ← takeModRM c bs
    memOnly rm (.lea p (regOf c.r reg)) bs
  else if op = 0x8E then
    let (reg, rm, bs) ← takeModRM c bs
    return (.movSregRM p reg rm, bs)
  else if op = 0x90 then if c.b = true then .error (.notInTable op) else return (.nop, bs)
  else if op = 0x9A then
    let (off, sel, bs) ← takePtr c bs
    return (.callPtr p off sel, bs)
  else if op = 0x9C then return (.pushf p, bs)
  else if op = 0x9D then if c.osz = true ∧ c.w = false then return (.popf16 p, bs) else return (.popf p, bs)
  else if op = 0xC2 then
    let (imm, bs) ← take16 bs
    return (.retImm16 p imm, bs)
  else if op = 0xC3 then return (.ret p, bs)
  else if op = 0xC4 then decodeCompatOnly c op bs
  else if op = 0xC5 then decodeCompatOnly c op bs
  else if op = 0xCA then
    let (imm, bs) ← take16 bs
    return (.retFarImm16 p imm, bs)
  else if op = 0xCB then return (.retFar p, bs)
  else if op = 0xCC then return (.int3, bs)
  else if op = 0xCD then
    let (imm, bs) ← take8 bs
    return (.intImm8 imm, bs)
  else if op = 0xCE then return (.into, bs)
  else if op = 0xCF then return (.iret p, bs)
  else if op = 0xE0 then
    let (rel, bs) ← take8 bs
    return (.loopneRel8 p rel, bs)
  else if op = 0xE1 then
    let (rel, bs) ← take8 bs
    return (.loopeRel8 p rel, bs)
  else if op = 0xE2 then
    let (rel, bs) ← take8 bs
    return (.loopRel8 p rel, bs)
  else if op = 0xE3 then
    let (rel, bs) ← take8 bs
    if c.l = true then return (.jrcxzRel8 p rel, bs) else return (.jecxzRel8 p rel, bs)
  else if op = 0xE4 then
    let (imm, bs) ← take8 bs
    return (.inAlImm imm, bs)
  else if op = 0xE5 then
    let (imm, bs) ← take8 bs
    return (.inEaxImm p imm, bs)
  else if op = 0xE6 then
    let (imm, bs) ← take8 bs
    return (.outImmAl imm, bs)
  else if op = 0xE7 then
    let (imm, bs) ← take8 bs
    return (.outImmEax p imm, bs)
  else if op = 0xE8 then
    let (rel, bs) ← takeRel c bs
    return (.callRel32 p rel, bs)
  else if op = 0xE9 then
    let (rel, bs) ← takeRel c bs
    return (.jmpRel32 p rel, bs)
  else if op = 0xEA then
    let (off, sel, bs) ← takePtr c bs
    return (.jmpPtr p off sel, bs)
  else if op = 0xEB then
    let (rel, bs) ← take8 bs
    return (.jmpRel8 p rel, bs)
  else if op = 0xEC then return (.inAlDx, bs)
  else if op = 0xED then return (.inEaxDx p, bs)
  else if op = 0xEE then return (.outDxAl, bs)
  else if op = 0xEF then return (.outDxEax p, bs)
  else if op = 0xF1 then return (.int1, bs)
  else if op = 0xFA then return (.cli, bs)
  else if op = 0xFB then return (.sti, bs)
  else if op = 0xFF then decodeGroup5 c bs
  else if op = 0xF4 then .error (c.locked (.halt bs.length))
  else .error (outside c op bs)

/-- The forms of the table that raise #UD by their bytes and mode `l` alone, before anything else is looked at: the 16-bit operand
size of a branch (R173, "raised at decode"), the instructions of the other mode (R152, R216, R244 to R247, R342, R350, R376, R377),
a number that is no segment register's (R214, R218), LMSW, INS and OUTS (R274, R302, R303). -/
def udAtDecode (l : Bool) : Instr → Bool
  | .jccRel8 p _ _ | .jccRel32 p _ _ | .loopneRel8 p _ | .loopeRel8 p _ | .loopRel8 p _ | .jecxzRel8 p _ | .jrcxzRel8 p _ => !l && p.osz
  | .jmpRel8 p _ | .jmpRel32 p _ | .callRel32 p _ | .jmpRM p _ | .callRM p _ | .ret p | .retImm16 p _ => !l && p.osz
  | .callFarM p _ | .jmpFarM p _ | .retFar p | .retFarImm16 p _ | .iret p => p.osz && !(l && p.w)
  | .callPtr p _ _ | .jmpPtr p _ _ => l || p.osz
  | .into | .popEs _ | .popSs _ | .popDs _ | .lds .. | .les .. | .pushEs _ | .pushCs _ | .pushSs _ | .pushDs _ | .arpl .. => l
  | .swapgs | .lkgs .. | .rdfsbase .. | .rdgsbase .. | .wrfsbase .. | .wrgsbase .. => !l
  | .eretu | .erets | .vmlaunch | .vmresume | .seamret => !l
  | .movSregRM _ sr _ => sr == 1 || decide (6 ≤ sr.toNat)
  | .movRMSreg _ sr _ => decide (6 ≤ sr.toNat)
  | .lmsw .. | .insb | .insd | .outsb | .outsd => true
  | .lea .. | .nop | .nopRM .. | .intImm8 _ | .int3 | .int1 | .syscall | .sysenter | .sysret _ | .sysexit _ | .rsm => false
  | .popFs _ | .popGs _ | .lss .. | .lfs .. | .lgs .. | .pushFs _ | .pushGs _ => false
  | .sgdt .. | .sidt .. | .lgdt .. | .lidt .. | .sldt .. | .str .. | .lldt .. | .ltr .. | .verr .. | .verw .. | .lar .. | .lsl .. => false
  | .movRCr .. | .movCr0R _ | .movCr2R _ | .movCr3R _ | .movCr4R _ | .movCr8R _ | .rdmsr | .wrmsr | .cpuid => false
  | .popf _ | .popf16 _ | .pushf _ | .cli | .sti | .inAlImm _ | .inEaxImm .. | .outImmAl _ | .outImmEax .. => false
  | .inAlDx | .inEaxDx _ | .outDxAl | .outDxEax _ | .getsec => false

/-- The instruction at the head of `bs` in mode `l` (CS.L) and its length in bytes (R130, R134). LOCK on an instruction of the table
is misused (R415); a #UD of the decoding comes first (R422, D21). -/
def decode (l : Bool) (bs : List Byte) : DRes (Instr × Nat) := do
  let (c, bs1) := takePrefixes { l := l } bs
  let (c, bs2) := takeRex c bs1
  let (i, rest) ← decodeOne c bs2
  if c.lock = true then .error (if udAtDecode l i then .invalid else .lockMisuse)
  else return (i, bs.length - rest.length)

/-! ## The encoder -/

/-- Legacy prefixes in one fixed order, a mandatory prefix first. -/
def encPfx (mandatory : List Byte) (p : Pfx) : List Byte :=
  mandatory ++ (if p.osz then [(0x66 : Byte)] else []) ++ (if p.asz then [(0x67 : Byte)] else []) ++
  (match p.seg with | .none => ([] : List Byte) | .fs => [0x64] | .gs => [0x65])

/-- REX, only where one of its bits is needed. -/
def encRex (w r x b : Bool) : List Byte :=
  if w || r || x || b then [(4 : BitVec 4) ++ BitVec.ofBool w ++ BitVec.ofBool r ++ BitVec.ofBool x ++ BitVec.ofBool b]
  else []

def modrmByte (mod : BitVec 2) (reg rm : BitVec 3) : Byte := mod ++ reg ++ rm

def Disp.mod : Disp → BitVec 2
  | .none => 0
  | .d8 _ => 1
  | .d16 _ => 2
  | .d32 _ => 2

def Disp.bytes : Disp → List Byte
  | .none => []
  | .d8 v => [v]
  | .d16 v => bytes16 v
  | .d32 v => bytes32 v

def encMemShort (reg : BitVec 3) (m : Mem) : List Byte :=
  match m.base, m.index with
  | some .rbx, some .rsi => modrmByte m.disp.mod reg 0 :: m.disp.bytes
  | some .rbx, some .rdi => modrmByte m.disp.mod reg 1 :: m.disp.bytes
  | some .rbp, some .rsi => modrmByte m.disp.mod reg 2 :: m.disp.bytes
  | some .rbp, some .rdi => modrmByte m.disp.mod reg 3 :: m.disp.bytes
  | some .rsi, none => modrmByte m.disp.mod reg 4 :: m.disp.bytes
  | some .rdi, none => modrmByte m.disp.mod reg 5 :: m.disp.bytes
  | some .rbp, none => modrmByte m.disp.mod reg 6 :: m.disp.bytes
  | some .rbx, none => modrmByte m.disp.mod reg 7 :: m.disp.bytes
  | _, _ => modrmByte 0 reg 6 :: m.disp.bytes

def encMemLong (l : Bool) (reg : BitVec 3) (m : Mem) : List Byte :=
  if m.rip then modrmByte 0 reg 5 :: m.disp.bytes
  else match m.base, m.index with
    | none, none => if l then modrmByte 0 reg 4 :: modrmByte 0 4 5 :: m.disp.bytes
                    else modrmByte 0 reg 5 :: m.disp.bytes
    | none, some i => modrmByte 0 reg 4 :: modrmByte m.scale i.lo 5 :: m.disp.bytes
    | some b, none => if b.lo = 4 then modrmByte m.disp.mod reg 4 :: modrmByte 0 4 4 :: m.disp.bytes
                      else modrmByte m.disp.mod reg b.lo :: m.disp.bytes
    | some b, some i => modrmByte m.disp.mod reg 4 :: modrmByte m.scale i.lo b.lo :: m.disp.bytes

def encMem (l asz : Bool) (reg : BitVec 3) (m : Mem) : List Byte :=
  if l = false ∧ asz = true then encMemShort reg m else encMemLong l reg m

def optHi : Option Reg → Bool
  | none => false
  | some r => r.hi

/-- Prefixes, REX, opcode, ModRM operand. -/
def encM (l : Bool) (mandatory : List Byte) (p : Pfx) (op : List Byte) (r : Bool) (reg : BitVec 3) (m : Mem) :
    List Byte :=
  encPfx mandatory p ++ encRex p.w r (optHi m.index) (optHi m.base) ++ op ++ encMem l p.asz reg m

def encRM (l : Bool) (mandatory : List Byte) (p : Pfx) (op : List Byte) (r : Bool) (reg : BitVec 3) (rm : RM) :
    List Byte :=
  match rm with
  | .mem m => encM l mandatory p op r reg m
  | .reg b => encPfx mandatory p ++ encRex p.w r false b.hi ++ op ++ [modrmByte 3 reg b.lo]

/-- Prefixes, REX.W, then the bytes `op`. -/
def encP (p : Pfx) (op : List Byte) : List Byte := encPfx [] p ++ encRex p.w false false false ++ op

def encRel (l : Bool) (p : Pfx) (rel : BitVec 32) : List Byte :=
  if l = false ∧ p.osz = true then bytes16 (rel.setWidth 16) else bytes32 rel

def encPtr (p : Pfx) (off : BitVec 32) (sel : BitVec 16) : List Byte :=
  (if p.osz = true ∧ p.w = false then bytes16 (off.setWidth 16) else bytes32 off) ++ bytes16 sel

/-- MOV to or from a control register: 0F 20 or 0F 22 with mod = 3. -/
def encCr (op : Byte) (r : Bool) (n : BitVec 3) (g : Reg) : List Byte :=
  encRex false r false g.hi ++ [0x0F, op, modrmByte 3 n g.lo]

/-- The bytes of a well-formed instruction in mode `l`, from the encodings of R140 to R144. -/
def encode (l : Bool) : Instr → List Byte
  | .jccRel8 p cc rel => encP p [(7 : BitVec 4) ++ cc, rel]
  | .jccRel32 p cc rel => encP p (0x0F :: ((8 : BitVec 4) ++ cc) :: encRel l p rel)
  | .loopneRel8 p rel => encP p [0xE0, rel]
  | .loopeRel8 p rel => encP p [0xE1, rel]
  | .loopRel8 p rel => encP p [0xE2, rel]
  | .jecxzRel8 p rel => encP p [0xE3, rel]
  | .jrcxzRel8 p rel => encP p [0xE3, rel]
  | .jmpRel8 p rel => encP p [0xEB, rel]
  | .jmpRel32 p rel => encP p (0xE9 :: encRel l p rel)
  | .callRel32 p rel => encP p (0xE8 :: encRel l p rel)
  | .jmpRM p rm => encRM l [] p [0xFF] false 4 rm
  | .callRM p rm => encRM l [] p [0xFF] false 2 rm
  | .ret p => encP p [0xC3]
  | .retImm16 p imm => encP p (0xC2 :: bytes16 imm)
  | .lea p r m => encM l [] p [0x8D] r.hi r.lo m
  | .nop => [0x90]
  | .nopRM p rm => encRM l [] p [0x0F, 0x1F] false 0 rm
  | .callPtr p off sel => encP p (0x9A :: encPtr p off sel)
  | .callFarM p m => encM l [] p [0xFF] false 3 m
  | .jmpPtr p off sel => encP p (0xEA :: encPtr p off sel)
  | .jmpFarM p m => encM l [] p [0xFF] false 5 m
  | .retFar p => encP p [0xCB]
  | .retFarImm16 p imm => encP p (0xCA :: bytes16 imm)
  | .iret p => encP p [0xCF]
  | .intImm8 imm => [0xCD, imm]
  | .int3 => [0xCC]
  | .into => [0xCE]
  | .int1 => [0xF1]
  | .syscall => [0x0F, 0x05]
  | .sysenter => [0x0F, 0x34]
  | .sysret p => encP p [0x0F, 0x07]
  | .sysexit p => encP p [0x0F, 0x35]
  | .eretu => [0xF3, 0x0F, 0x01, 0xCA]
  | .erets => [0xF2, 0x0F, 0x01, 0xCA]
  | .rsm => [0x0F, 0xAA]
  | .movSregRM p sr rm => encRM l [] p [0x8E] false sr rm
  | .popEs p => encP p [0x07]
  | .popSs p => encP p [0x17]
  | .popDs p => encP p [0x1F]
  | .popFs p => encP p [0x0F, 0xA1]
  | .popGs p => encP p [0x0F, 0xA9]
  | .lds p r m => encM l [] p [0xC5] r.hi r.lo m
  | .les p r m => encM l [] p [0xC4] r.hi r.lo m
  | .lss p r m => encM l [] p [0x0F, 0xB2] r.hi r.lo m
  | .lfs p r m => encM l [] p [0x0F, 0xB4] r.hi r.lo m
  | .lgs p r m => encM l [] p [0x0F, 0xB5] r.hi r.lo m
  | .lkgs p rm => encRM l [0xF2] p [0x0F, 0x00] false 6 rm
  | .movRMSreg p sr rm => encRM l [] p [0x8C] false sr rm
  | .pushEs p => encP p [0x06]
  | .pushCs p => encP p [0x0E]
  | .pushSs p => encP p [0x16]
  | .pushDs p => encP p [0x1E]
  | .pushFs p => encP p [0x0F, 0xA0]
  | .pushGs p => encP p [0x0F, 0xA8]
  | .sgdt p m => encM l [] p [0x0F, 0x01] false 0 m
  | .sidt p m => encM l [] p [0x0F, 0x01] false 1 m
  | .lgdt p m => encM l [] p [0x0F, 0x01] false 2 m
  | .lidt p m => encM l [] p [0x0F, 0x01] false 3 m
  | .sldt p rm => encRM l [] p [0x0F, 0x00] false 0 rm
  | .str p rm => encRM l [] p [0x0F, 0x00] false 1 rm
  | .lldt p rm => encRM l [] p [0x0F, 0x00] false 2 rm
  | .ltr p rm => encRM l [] p [0x0F, 0x00] false 3 rm
  | .verr p rm => encRM l [] p [0x0F, 0x00] false 4 rm
  | .verw p rm => encRM l [] p [0x0F, 0x00] false 5 rm
  | .lar p r rm => encRM l [] p [0x0F, 0x02] r.hi r.lo rm
  | .lsl p r rm => encRM l [] p [0x0F, 0x03] r.hi r.lo rm
  | .arpl p rm r => encRM l [] p [0x63] r.hi r.lo rm
  | .swapgs => [0x0F, 0x01, 0xF8]
  | .rdfsbase p r => encRM l [0xF3] p [0x0F, 0xAE] false 0 (.reg r)
  | .rdgsbase p r => encRM l [0xF3] p [0x0F, 0xAE] false 1 (.reg r)
  | .wrfsbase p r => encRM l [0xF3] p [0x0F, 0xAE] false 2 (.reg r)
  | .wrgsbase p r => encRM l [0xF3] p [0x0F, 0xAE] false 3 (.reg r)
  | .movRCr crn r => encCr 0x20 (crn.getLsbD 3) (crn.setWidth 3) r
  | .movCr0R r => encCr 0x22 false 0 r
  | .movCr2R r => encCr 0x22 false 2 r
  | .movCr3R r => encCr 0x22 false 3 r
  | .movCr4R r => encCr 0x22 false 4 r
  | .movCr8R r => encCr 0x22 true 0 r
  | .lmsw p rm => encRM l [] p [0x0F, 0x01] false 6 rm
  | .rdmsr => [0x0F, 0x32]
  | .wrmsr => [0x0F, 0x30]
  | .cpuid => [0x0F, 0xA2]
  | .popf p => encP p [0x9D]
  | .popf16 p => encP p [0x9D]
  | .pushf p => encP p [0x9C]
  | .cli => [0xFA]
  | .sti => [0xFB]
  | .inAlImm imm => [0xE4, imm]
  | .inEaxImm p imm => encP p [0xE5, imm]
  | .outImmAl imm => [0xE6, imm]
  | .outImmEax p imm => encP p [0xE7, imm]
  | .inAlDx => [0xEC]
  | .inEaxDx p => encP p [0xED]
  | .outDxAl => [0xEE]
  | .outDxEax p => encP p [0xEF]
  | .insb => [0x6C]
  | .insd => [0x6D]
  | .outsb => [0x6E]
  | .outsd => [0x6F]
  | .vmlaunch => [0x0F, 0x01, 0xC2]
  | .vmresume => [0x0F, 0x01, 0xC3]
  | .seamret => [0x66, 0x0F, 0x01, 0xCD]
  | .getsec => [0x0F, 0x37]

/-! ## The host's question: one word, first byte in bits 7:0 -/

/-- The bytes of `w`, least significant first, `n` of them. -/
def wordBytes : Nat → Nat → List Byte
  | 0, _ => []
  | n + 1, w => BitVec.ofNat 8 w :: wordBytes n (w / 256)

/-- The 15 bytes of an instruction whose first `nbits` bits are `w` and whose other bits are 0. -/
def tableBytes (nbits w : Nat) : List Byte := wordBytes 15 (w % 2 ^ nbits)

/-- The instruction of those bytes in 64-bit mode, or else in compatibility mode. -/
def decodeTableWord (nbits w : Nat) : Option Instr :=
  match decode true (tableBytes nbits w) with
  | .ok (i, _) => some i
  | .error _ => match decode false (tableBytes nbits w) with
    | .ok (i, _) => some i
    | .error _ => none

end Sys2Proof
end

