-- ==== Sys2Proof/Machine/Fetch.lean ====
section
/-! DEFINITION. Fetching an instruction's bytes, what surrounds an instruction (debug traps, the shadows, RF, the refusals of
wrap-around and of stored code), and the placing of a program for the host's question. -/

namespace Sys2Proof.Machine

/-- The byte at `la`, of the instruction at RIP, fetched; sequential fetch does not wrap around, in compatibility mode at 2^32 (R24,
D25, U11: "refuse"), and a byte stored to since the last taken branch is not fetched (R122, D5, U10, entry 4). -/
def State.fetchByte (s : State) (la : Word) : Res Byte := do
  if (s.compat && decide (2 ^ 32 ≤ la.toNat)) || decide (la.toNat < s.rip.toNat) then .error (.refuse .ripWrapAround)
  else
    let pa ← s.linear { user := s.cpl3, fetch := true } la
    if s.stored.contains pa then .error (.refuse .storedCodeFetched) else return s.byteAt pa

/-- Up to `n` bytes from `la` on, and why there are no more. -/
def State.fetchBytes (s : State) (la : Word) : Nat → List Byte × Option Stop
  | 0 => ([], none)
  | n + 1 => match s.fetchByte la with
    | .error x => ([], some x)
    | .ok b =>
      let r := State.fetchBytes s (la + 1) n
      (b :: r.1, r.2)

/-- The bytes at RIP, at most 15 (R130). -/
def State.fetch (s : State) : List Byte × Option Stop := s.fetchBytes s.rip 15

/-- What is fetched: an instruction of the table or HLT, and its length. -/
inductive Fetched where
  | instr (i : Instr) (n : Nat)
  | halt (n : Nat)
deriving DecidableEq, Repr

/-- The fault that an instruction of a unit raises before its access to memory (R176, D21; PRESUMED, the family's, entry 17):
#UD where the unit is not enabled (in compatibility mode, which is CPL 3, the shadow-stack instructions then raise #GP(0) whether
by privilege or by the address), #NM with CR0.TS, #MF with an x87 error pending; then #GP(0). -/
def State.unitFault (s : State) (u : MemUnit) : Exc :=
  let mf := s.fpu.fsw.getLsbD 7
  if u = .integer then excGp 0
  else if u = .rstorssp then (if s.ssEnabled3 then excGp 0 else excUd)
  else if u = .wrss then (if s.ssEnabled3 && bit s.cet.uCet 1 then excGp 0 else excUd)
  else if u = .wruss then (if s.cetOn then excGp 0 else excUd)
  else if u = .clrssbsy then (if s.ssEnabled0 then excGp 0 else excUd)
  else if (u = .sse ∧ s.osfxsr = false) ∨ (u = .keyLocker ∧ (s.osfxsr = false ∨ bit s.cr4 19 = false)) ∨ (u = .xsave ∧ s.osxsave = false) ∨
      (u = .evex ∧ (s.osxsave = false ∨ s.xcr0 &&& 0xE6 ≠ 0xE6)) then excUd
  else if s.ts then { vector := 7 }
  else if (u = .x87Wait ∨ u = .mmx) ∧ mf = true then { vector := 16 }
  else excGp 0

/-- Element `i` is not masked off: its bit of the opmask register is set, or the high bit of its byte of the MMX or XMM register. -/
def State.unmasked (s : State) (mask : MaskReg) (i : Nat) : Bool :=
  match mask with
  | .opmask k => (s.fpu.opmask.getD k.toNat 0).getLsbD i
  | .mmx r => (s.fpu.st.getD r.toNat 0).getLsbD (8 * i + 7)
  | .xmm r => (s.fpu.ymm.getD r.toNat 0).getLsbD (8 * i + 7)

/-- What the bytes at RIP are, or the stop they cause. Bytes that end early cause the stop of the byte that could not be fetched;
where 15 bytes are not enough, #GP(0) (R130 names no consequence; PRESUMED, entry 16); an invalid encoding is #UD, LOCK where it
may not stand #GP(0) (R415); an instruction outside the table is refused, but for what R176 says of it (R176, R416, R422). -/
def State.fetchInstr (s : State) : Res Fetched :=
  match decode s.mode64 s.fetch.1 with
  | .ok (i, n) => .ok (.instr i n)
  | .error (.halt rest) => .ok (.halt (s.fetch.1.length - rest))
  | .error .invalid => raiseUd
  | .error .lockMisuse => raiseGp0
  | .error (.notInTable op) => .error (.refuse (.notInOpcodeTable op))
  | .error (.addr16 u) => raise (s.unitFault u)
  | .error (.addr16Rep op) =>
    if low16 (s.reg .rcx) = 0 then .error (.refuse (.notInOpcodeTable op)) else raiseGp0
  | .error (.addr16Mask u mask n op) =>
    if (List.range n).any (s.unmasked mask) then raise (s.unitFault u) else .error (.refuse (.notInOpcodeTable op))
  | .error .truncated => match s.fetch.2 with
    | some x => .error x
    | none => raiseGp0

/-! ## What surrounds an instruction -/

/-- Before an instruction of `n` bytes: the address of the next one; a new draw number; the shadows of the previous instruction
end; TF makes a trap pending (R23, R26, R475, entries 3, 23, 24). -/
def State.beginBytes (s : State) (n : Nat) : State :=
  { s with
    nextRip := s.rip + BitVec.ofNat 64 n
    draws := s.draws + 1
    movSsBlocked := false, stiBlocked := false
    dbPending := s.dbPending || s.tf }

/-- The software interrupts that will be taken: R436 clears TF on the way, and no single-step trap follows them (PRESUMED, the
family's, entry 23). -/
def State.interrupts (s : State) : Instr → Bool
  | .intImm8 _ | .int3 | .int1 => true
  | .into => s.of
  | _ => false

/-- Before the instruction `i`: also the breakpoints that will see its accesses, and no single step over a software interrupt
(entry 23). -/
def State.beginInstr (s : State) (i : Instr) (n : Nat) : State :=
  let t := s.beginBytes n
  (t.setBpHits (t.bpHits ||| t.bpWatch (t.touches i))).setDbPending (if s.interrupts i then s.dbPending else t.dbPending)

/-- The near relative branches that are taken: their target may be the next instruction too (R178 to R184). -/
def State.branches (s : State) : Instr → Bool
  | .jmpRel8 .. | .jmpRel32 .. | .callRel32 .. => true
  | .jccRel8 _ cc _ | .jccRel32 _ cc _ => s.cond cc
  | .loopneRel8 p _ => s.countLess p != 0 && !s.zf
  | .loopeRel8 p _ => s.countLess p != 0 && s.zf
  | .loopRel8 p _ => s.countLess p != 0
  | .jecxzRel8 p _ | .jrcxzRel8 p _ => s.count p == 0
  | _ => false

/-- The instruction `run` is no taken relative branch and goes on to its next instruction, wherever that is: with another next address
it ends there, which one that transfers or faults does not. -/
def State.goesOn (before : State) (branches : Bool) (run : State → Host.Outcome State Fault Refusal) : Bool :=
  !branches && (match run (before.setNextRip 1) with
    | .next t => t.rip == 1
    | .fault _ | .refused _ => false)

/-- Sequential execution has passed the end of the address space (R24, D25, U11: "refuse"): the instruction that began in `before`
ends, in `t`, at its next sequential address, which lies beyond. In compatibility mode no transfer reaches such an address (R24); in
64-bit mode it is linear 0, which a transfer or the delivery of a fault may name, so that there the instruction must go on to it. -/
def State.wrapped (before t : State) (goesOn : Bool) : Bool :=
  t.rip == before.nextRip &&
  ((t.compat && decide (2 ^ 32 ≤ t.rip.toNat)) || (decide (before.nextRip.toNat < before.rip.toNat) && goesOn))

/-- The instructions that load RF or leave it (R291, R334, R350, R353, R366); after every other one RF is 0 (PRESUMED, the
family's, entry 23). -/
def keepsRf : Instr → Bool
  | .iret _ | .popf16 _ | .eretu | .erets | .rsm | .vmlaunch | .vmresume | .seamret => true
  | .jccRel8 .. | .jccRel32 .. | .loopneRel8 .. | .loopeRel8 .. | .loopRel8 .. | .jecxzRel8 .. | .jrcxzRel8 .. => false
  | .jmpRel8 .. | .jmpRel32 .. | .callRel32 .. | .jmpRM .. | .callRM .. | .ret _ | .retImm16 .. => false
  | .lea .. | .nop | .nopRM .. | .callPtr .. | .callFarM .. | .jmpPtr .. | .jmpFarM .. | .retFar _ | .retFarImm16 .. => false
  | .intImm8 _ | .int3 | .into | .int1 | .syscall | .sysenter | .sysret _ | .sysexit _ => false
  | .movSregRM .. | .popEs _ | .popSs _ | .popDs _ | .popFs _ | .popGs _ => false
  | .lds .. | .les .. | .lss .. | .lfs .. | .lgs .. | .lkgs .. | .movRMSreg .. => false
  | .pushEs _ | .pushCs _ | .pushSs _ | .pushDs _ | .pushFs _ | .pushGs _ => false
  | .sgdt .. | .sidt .. | .lgdt .. | .lidt .. | .sldt .. | .str .. | .lldt .. | .ltr .. => false
  | .verr .. | .verw .. | .lar .. | .lsl .. | .arpl .. | .swapgs => false
  | .rdfsbase .. | .rdgsbase .. | .wrfsbase .. | .wrgsbase .. => false
  | .movRCr .. | .movCr0R _ | .movCr2R _ | .movCr3R _ | .movCr4R _ | .movCr8R _ | .lmsw .. | .rdmsr | .wrmsr | .cpuid => false
  | .popf _ | .pushf _ | .cli | .sti | .inAlImm _ | .inEaxImm .. | .outImmAl _ | .outImmEax .. => false
  | .inAlDx | .inEaxDx _ | .outDxAl | .outDxEax _ | .insb | .insd | .outsb | .outsd | .getsec => false

/-- The instructions after which fetches see every store, wherever they go (R122, R479, entry 4): the unconditional transfers
and the serialising instructions. -/
def refetches : Instr → Bool
  | .jmpRel8 .. | .jmpRel32 .. | .callRel32 .. | .jmpRM .. | .callRM .. | .ret _ | .retImm16 .. => true
  | .callPtr .. | .callFarM .. | .jmpPtr .. | .jmpFarM .. | .retFar _ | .retFarImm16 .. | .iret _ => true
  | .intImm8 _ | .int3 | .int1 | .syscall | .sysenter | .sysret _ | .sysexit _ | .eretu | .erets | .rsm => true
  | .lgdt .. | .lidt .. | .lldt .. | .ltr .. | .movCr0R _ | .movCr3R _ | .movCr4R _ | .wrmsr | .cpuid => true
  | .vmlaunch | .vmresume | .seamret | .getsec => true
  | .jccRel8 .. | .jccRel32 .. | .loopneRel8 .. | .loopeRel8 .. | .loopRel8 .. | .jecxzRel8 .. | .jrcxzRel8 .. => false
  | .lea .. | .nop | .nopRM .. | .into => false
  | .movSregRM .. | .popEs _ | .popSs _ | .popDs _ | .popFs _ | .popGs _ => false
  | .lds .. | .les .. | .lss .. | .lfs .. | .lgs .. | .lkgs .. | .movRMSreg .. => false
  | .pushEs _ | .pushCs _ | .pushSs _ | .pushDs _ | .pushFs _ | .pushGs _ => false
  | .sgdt .. | .sidt .. | .sldt .. | .str .. | .verr .. | .verw .. | .lar .. | .lsl .. | .arpl .. | .swapgs => false
  | .rdfsbase .. | .rdgsbase .. | .wrfsbase .. | .wrgsbase .. => false
  | .movRCr .. | .movCr2R _ | .movCr8R _ | .lmsw .. | .rdmsr | .popf _ | .popf16 _ | .pushf _ | .cli | .sti => false
  | .inAlImm _ | .inEaxImm .. | .outImmAl _ | .outImmEax .. | .inAlDx | .inEaxDx _ | .outDxAl | .outDxEax _ => false
  | .insb | .insd | .outsb | .outsd => false

/-- The state `t` that an instruction left, which started in `before`: RF, and the stored bytes that fetches see now. -/
def State.retire (before t : State) (keepRf refetch : Bool) : State :=
  let t := if keepRf then t else t.setRflags (setBit t.rflags 16 false)
  if refetch || t.rip != before.nextRip then t.setStored [] else t

/-- After an instruction that started in `before`; `goesOn` says whether it goes on to its next instruction. -/
def endInstr (before : State) (keepRf refetch goesOn : Bool) :
    Host.Outcome State Fault Refusal → Host.Outcome State Fault Refusal
  | .next t => if State.wrapped before t goesOn then .refused .ripWrapAround else .next (before.retire t keepRf refetch)
  | .fault f => .fault f
  | .refused r => .refused r

/-- HLT (R461, R484; PRESUMED, the family's, entry 16): at CPL 0 the processor waits for an interrupt. -/
def State.halt (s : State) : Host.Outcome State Fault Refusal :=
  finish s (do
    raiseIf (!s.cpl0) (excGp 0)
    return s.toNext.setActivity .halted)

/-! ## Placing an instruction for the host's question (entry 34) -/

/-- A page-table entry: present, writable, user. -/
def tableEntry (pa : Nat) : Word := BitVec.ofNat 64 (pa + 7)

/-- 8 bytes at a physical address. -/
def placeWord (m : List Host.Cell) (pa : Nat) (v : Word) : List Host.Cell :=
  Memory.writeFrom m pa (leBytes 8 v)

/-- Page tables under CR3 that map the 1-GByte region of RIP to itself, and the bytes at RIP. -/
def State.place (s : State) (bs : List Byte) : List Host.Cell :=
  let la := s.rip.toNat % 2 ^ 52
  let pdpt := 0xFFFFD000
  let leaf := BitVec.ofNat 64 (la / 2 ^ 30 * 2 ^ 30 + 0x87)
  let m := placeWord s.mem (pdpt + 8 * ((s.rip >>> 30).toNat % 512)) leaf
  let m :=
    if s.la57 then
      placeWord (placeWord m (0xFFFFC000 + 8 * ((s.rip >>> 39).toNat % 512)) (tableEntry pdpt))
        (s.pageRoot + 8 * ((s.rip >>> 48).toNat % 512)) (tableEntry 0xFFFFC000)
    else placeWord m (s.pageRoot + 8 * ((s.rip >>> 39).toNat % 512)) (tableEntry pdpt)
  Memory.writeFrom m la bs

/-- The mode in which the bytes are an instruction of the table: that of `s`; else, for a row that compatibility mode alone
has, ring 3 in compatibility mode (R134, R152). -/
def State.modeFor (s : State) (bs : List Byte) : State :=
  match decode s.cs.l bs with
  | .ok _ => s
  | .error _ => match decode false bs with
    | .ok _ => (s.setCs ⟨s.cs.sel ||| 3, false⟩).setSs ⟨s.ss.sel ||| 3, 3, s.ss.b⟩
    | .error _ => s

/-- The state in which the bytes are fetched next and run. -/
def State.placed (s : State) (bs : List Byte) : State := (s.modeFor bs).setMem (s.place bs)

end Sys2Proof.Machine
end

