-- ==== Sys2Proof/Machine/Step.lean ====
section
/-! DEFINITION. One step: an event if one is due, else the instruction at RIP if the processor runs (R480). -/

namespace Sys2Proof.Machine

/-- The instruction at RIP executed. -/
def runNext (s : State) : Host.Outcome State Fault Refusal :=
  match s.fetchInstr with
  | .ok (.instr i n) =>
    let b := s.beginInstr i n
    endInstr b (keepsRf i) (refetches i) (b.goesOn (b.branches i) (exec i)) (exec i b)
  | .ok (.halt n) =>
    let b := s.beginBytes n
    endInstr b false false (b.goesOn false State.halt) b.halt
  | .error x => finish (s.beginBytes 0) (.error x)

/-- A waiting, halted or shut-down processor does nothing until an event is due (R460, R461). -/
def step (s : State) : Host.Outcome State Fault Refusal :=
  match s.due with
  | some d => s.takeDue d
  | none => if s.activity = .running then runNext s else .next s

/-- The instruction of `w` stored where `step` fetches its next instruction, in a mode that has it (entry 34). -/
def State.withFetchWord (s : State) (nbits w : Nat) : State := s.placed (Sys2Proof.tableBytes nbits w)

end Sys2Proof.Machine
end

