-- ==== Sys2Proof/Safety.lean ====
section
/-! DEFINITION. What every reachable state keeps (R24, R26, R27, R30, R33, R36, R55, R410), and the words in which statements
speak of a next state: what changed in it and what did not. -/

namespace Sys2Proof.Machine

/-! ## What every step keeps -/

/-- Memory and ACRAM are in canonical form (the model's, entry 2). -/
def State.memWf (s : State) : Bool := Memory.wf s.mem && Memory.wf s.acram

/-- The three modes of Table 1: CPL is 0 or 3, and CPL 0 is 64-bit mode (R410, R41). -/
def State.legalMode (s : State) : Bool := (s.ss.dpl == 0 || s.ss.dpl == 3) && (s.cs.l || s.ss.dpl == 3)

/-- CR0 holds a value of the set of R30; CR4 has PAE = 1 and PVI = 0 (R33); IA32_EFER reads 0xD01 (R36); the local APIC is
enabled in x2APIC mode (R55); CR8 has four bits. -/
def State.fixedRegisters (s : State) : Bool :=
  (s.cr0 &&& ~~~(0x40050008 : Word) == 0x80000033) && (s.cr4 &&& 0x22 == 0x20) && (s.efer == 0xD01) &&
  (s.plat.apicBase &&& 0xC00 == 0xC00) && (s.cr8 &&& ~~~(0xF : Word) == 0)

/-- RFLAGS has bit 1 set; IOPL, VM, VIF, VIP and the bits R26 does not define are 0 (R26, R27). -/
def State.legalRflags (s : State) : Bool := s.rflags &&& ~~~(0x254FD5 : Word) == 2

/-- In compatibility mode RIP has bits 63:32 zero (R24); a processor that waits for SIPI or sleeps in SENTER, which starts at a
64-bit address with the CS it has (R452, R399), is in 64-bit mode. -/
def State.legalRip (s : State) : Bool :=
  s.cs.l || (s.rip >>> 32 == 0 && !decide (s.activity = .senterSleep) && !decide (s.activity = .waitForSipi))

/-- Every property above. -/
def State.inv (s : State) : Bool := s.memWf && s.legalMode && s.fixedRegisters && s.legalRflags && s.legalRip

/-! ## Next states -/

/-- `t` is `u` but for the contents of memory. -/
def State.sameButMem (u t : State) : Prop := t = { u with mem := t.mem, acram := t.acram }

/-- In `t` the bytes at the addresses `pas` hold `bs`, and every other byte of memory reads as in `s`. -/
def State.storesAt (s t : State) (pas : List Nat) (bs : List Byte) : Prop :=
  (∀ a, a ∉ pas → t.byteAt a = s.byteAt a) ∧ pas.map t.byteAt = bs

/-- What a store to `pas` leaves beside memory: the bytes that a fetch may not take yet (R122, entry 4), and the page-table entries
that a translation may still use as they were (R69, entry 3). -/
def storeNoted (s u : State) (pas : List Nat) : State :=
  { u with stored := pas ++ s.stored, tlb := { s.tlb with past := s.pastEntries pas ++ s.tlb.past } }

/-- `exec i s` answers a state that is `u` but for memory and what a store leaves, with `bs` at the addresses `pas` and every other
byte as in `s`. -/
def storesTo (i : Instr) (s u : State) (pas : List Nat) (bs : List Byte) : Prop :=
  ∃ t, exec i s = .next t ∧ State.sameButMem (storeNoted s u pas) t ∧ State.storesAt s t pas bs

/-! ## The manual's tables, written out -/

/-- The condition codes of R191. -/
def condTrue (cc : BitVec 4) (f : Word) : Bool :=
  let c := f.getLsbD 0
  let z := f.getLsbD 6
  let n := f.getLsbD 7
  let o := f.getLsbD 11
  match cc.toNat with
  | 0 => o
  | 1 => !o
  | 2 => c
  | 3 => !c
  | 4 => z
  | 5 => !z
  | 6 => c || z
  | 7 => !c && !z
  | 8 => n
  | 9 => !n
  | 10 => f.getLsbD 2
  | 11 => !f.getLsbD 2
  | 12 => n != o
  | 13 => n == o
  | 14 => z || (n != o)
  | _ => !z && (n == o)

/-- `NearTarget` (R194): in 64-bit mode a canonical address, in compatibility mode its low 32 bits. -/
def legalTarget (s : State) (t : Word) : Option Word :=
  if s.cs.l then (if isCanonical (bit s.cr4 12) t then some t else none) else some (t &&& 0xFFFFFFFF)

/-- The instruction pointer a far transfer to a segment with L bit `l` loads (R24): none raises #GP(0). -/
def legalFarTarget (s : State) (l : Bool) (t : Word) : Option Word :=
  if l then (if isCanonical (bit s.cr4 12) t then some t else none) else some (t &&& 0xFFFFFFFF)

/-- `Check_CS_desc` (R204), bit by bit of the descriptor: S and code type, L and D differ, RPL = DPL = the new CPL, ring 0
only with L = 1, present. -/
def codeDescriptorOk (sel : Half) (d : Word) (newCpl : BitVec 2) : Bool :=
  d.getLsbD 44 && d.getLsbD 43 && (d.getLsbD 53 != d.getLsbD 54) && (d.extractLsb' 45 2 == newCpl) &&
  (sel.extractLsb' 0 2 == newCpl) && (newCpl == 0 || newCpl == 3) && (d.getLsbD 53 || newCpl == 3) && d.getLsbD 47

/-- A selector that is not NULL lies in its table: `index * 8 + 7` within the limit, at a canonical address (R202). -/
def inTable (s : State) (sel : Half) : Bool :=
  let base := if sel.getLsbD 2 then s.ldtr.base else s.gdtr.base
  let limit := if sel.getLsbD 2 then s.ldtr.limit else s.gdtr.limit
  decide ((sel.toNat / 8) * 8 + 7 ≤ limit.toNat) && isCanonical (bit s.cr4 12) (base + BitVec.ofNat 64 (sel.toNat / 8 * 8))

/-- The eight bytes of a selector's descriptor, read with supervisor privilege (R203). -/
def descriptorAt (s : State) (sel : Half) : Res Word :=
  s.supRead ((if sel.getLsbD 2 then s.ldtr.base else s.gdtr.base) + BitVec.ofNat 64 (sel.toNat / 8 * 8)) 8

/-- A code segment that a far transfer within the ring may load (R202, R204), with its descriptor. Selectors 0 to 7 name
none (R203). -/
def codeSegment (s : State) (sel : Half) (d : Word) : Prop :=
  8 ≤ sel.toNat ∧ inTable s sel = true ∧ descriptorAt s sel = .ok d ∧ codeDescriptorOk sel d s.ss.dpl = true

/-- A segment that a load of DS, ES, FS or GS accepts, with its descriptor (R202, R206): NULL, of which the descriptor is all
zeros; or RPL not below CPL, S = 1, present. -/
def dataSegment (s : State) (sel : Half) (d : Word) : Prop :=
  (sel.toNat < 4 ∧ d = 0) ∨
  (8 ≤ sel.toNat ∧ inTable s sel = true ∧ descriptorAt s sel = .ok d ∧ s.ss.dpl.toNat ≤ sel.toNat % 4 ∧
    d.getLsbD 44 = true ∧ d.getLsbD 47 = true)

/-- A segment that a load of SS accepts, with its descriptor (R202, R207): NULL at CPL 0 in 64-bit mode; or
RPL = DPL = CPL, S = 1, present. -/
def stackSegment (s : State) (sel : Half) (d : Word) : Prop :=
  (sel.toNat < 4 ∧ d = 0 ∧ s.ss.dpl = 0 ∧ s.cs.l = true) ∨
  (8 ≤ sel.toNat ∧ inTable s sel = true ∧ descriptorAt s sel = .ok d ∧ s.ss.dpl.toNat = sel.toNat % 4 ∧
    d.extractLsb' 45 2 = s.ss.dpl ∧ d.getLsbD 44 = true ∧ d.getLsbD 47 = true)

/-- A selector that a load of a segment other than SS refuses with #GP(`code`): one beyond its table or of 4 to 7, or one whose
descriptor `d` fails a condition (R202, R203, R206). -/
def dataRefused (s : State) (sel : Half) (d : Word) (code : DWord) : Prop :=
  (4 ≤ sel.toNat ∧ (sel.toNat < 8 ∨ inTable s sel = false) ∨
    8 ≤ sel.toNat ∧ inTable s sel = true ∧ descriptorAt s sel = .ok d ∧ ¬dataSegment s sel d) ∧
  code = (sel &&& 0xFFFC).setWidth 32

/-- The same for SS, which refuses a NULL selector too, outside ring 0 and 64-bit mode, with #GP(0) (R202, R203, R207). -/
def stackRefused (s : State) (sel : Half) (d : Word) (code : DWord) : Prop :=
  (sel.toNat < 4 ∧ ¬(s.ss.dpl = 0 ∧ s.cs.l = true) ∨
    4 ≤ sel.toNat ∧ (sel.toNat < 8 ∨ inTable s sel = false) ∨
    8 ≤ sel.toNat ∧ inTable s sel = true ∧ descriptorAt s sel = .ok d ∧ ¬stackSegment s sel d) ∧
  code = (sel &&& 0xFFFC).setWidth 32

/-- A selector that a far transfer to ring `newCpl` refuses with #GP(`code`): NULL, beyond its table or of 4 to 7, or one whose
descriptor `d` fails a condition (R202, R203, R204, R205). -/
def codeRefused (s : State) (sel : Half) (d : Word) (newCpl : BitVec 2) (code : DWord) : Prop :=
  sel.toNat < 4 ∧ code = 0 ∨
  4 ≤ sel.toNat ∧ (sel.toNat < 8 ∨ inTable s sel = false) ∧ code = (sel &&& 0xFFFC).setWidth 32 ∨
  8 ≤ sel.toNat ∧ inTable s sel = true ∧ descriptorAt s sel = .ok d ∧ codeDescriptorOk sel d newCpl = false ∧
    code = (sel &&& 0xFFFC).setWidth 32

/-- The conditions of R208 on the descriptor of an SS that IRET loads: RPL = DPL = the ring of the new CS, S = 1, present. -/
def iretStackDescriptorOk (cs ss : Half) (ds : Word) : Bool :=
  decide (ss.toNat % 4 = cs.toNat % 4) && (ds.extractLsb' 45 2 == cs.setWidth 2) && ds.getLsbD 44 && ds.getLsbD 47

/-- An SS that IRET loads beside the code segment `cs`, with its descriptor (R208): NULL, of which the descriptor is all zeros, in
ring 0 and 64-bit mode, or one that passes. -/
def iretStack (s : State) (cs ss : Half) (ds : Word) : Prop :=
  (ss.toNat < 4 ∧ ds = 0 ∧ cs.toNat % 4 = 0) ∨
  (8 ≤ ss.toNat ∧ inTable s ss = true ∧ descriptorAt s ss = .ok ds ∧ iretStackDescriptorOk cs ss ds = true)

/-- An SS that IRET refuses with #GP(`code`) beside the code segment `cs` (R208, R332, R333). -/
def iretStackRefused (s : State) (cs ss : Half) (ds : Word) (code : DWord) : Prop :=
  (ss.toNat < 4 ∧ cs.toNat % 4 = 3 ∨
    4 ≤ ss.toNat ∧ (ss.toNat < 8 ∨ inTable s ss = false) ∨
    8 ≤ ss.toNat ∧ inTable s ss = true ∧ descriptorAt s ss = .ok ds ∧ iretStackDescriptorOk cs ss ds = false) ∧
  code = (ss &&& 0xFFFC).setWidth 32

/-- BASE 31:0 of a descriptor, zero-extended: bits 39:16 and 63:56 (R102, R212). -/
def base32 (d : Word) : Word := (d.extractLsb' 56 8 ++ d.extractLsb' 16 24).setWidth 64

/-- The segment registers that MOV, POP and the far loads write, by their ModRM numbers: ES 0, SS 2, DS 3, FS 4, GS 5 (R214). -/
def loadedSreg (s : State) (n : Nat) (sel : Half) (d : Word) : State :=
  match n with
  | 0 => { s with es := sel }
  | 2 => { s with ss := ⟨sel, d.extractLsb' 45 2, d.getLsbD 54⟩ }
  | 3 => { s with ds := sel }
  | 4 => { s with fs := ⟨sel, base32 d⟩ }
  | 5 => { s with gs := ⟨sel, base32 d⟩ }
  | _ => s

/-- A segment that a load of the register numbered `n` accepts. -/
def acceptable (s : State) (n : Nat) (sel : Half) (d : Word) : Prop :=
  if n = 2 then stackSegment s sel d else dataSegment s sel d

/-- The selector of the segment register with ModRM number `n` (R218). -/
def selectorNum (s : State) : Nat → Half
  | 0 => s.es
  | 1 => s.cs.sel
  | 2 => s.ss.sel
  | 3 => s.ds
  | 4 => s.fs.sel
  | _ => s.gs.sel

/-- The operand size in bytes of PUSH and POP (R135): 8 in 64-bit mode, 4 in compatibility mode, 2 with 0x66 unless REX.W. -/
def stackBytes (s : State) (p : Pfx) : Nat :=
  if s.cs.l then (if p.osz && !p.w then 2 else 8) else if p.osz then 2 else 4

/-- The operand size in bytes of the other instructions (R135): 8 with REX.W in 64-bit mode, 2 with 0x66, else 4. -/
def dataBytes (s : State) (p : Pfx) : Nat := if s.cs.l && p.w then 8 else if p.osz then 2 else 4

/-- A register after a write of `n` bytes: 2 bytes keep bits 63:16, 4 bytes clear bits 63:32 (R21). -/
def regWritten (old : Word) (n : Nat) (v : Word) : Word :=
  if n = 2 then (old &&& ~~~(0xFFFF : Word)) ||| (v &&& 0xFFFF) else if n = 4 then v &&& 0xFFFFFFFF else v

/-- The taking of an event reaches its handler: no FRED, no CET, and the checks of R430 to R435 answer `p`. -/
def reachesHandler (s : State) (e : Event) (p : Plan) : Prop :=
  bit s.cr4 32 = false ∧ bit s.cr4 23 = false ∧ s.plan e = .ok p

/-- The registers at handler entry (R434 to R436, R438): RIP from the gate, CS in ring 0 and 64-bit mode, SS kept in ring 0
and NULL from ring 3, RSP below the frame of five or six items, IF cleared by an interrupt gate, TF, RF and NT cleared. The
processor runs, a debug trap is pending only where a software interrupt finds one (R475, entry 23), fetches see every store, and the
frame is a store (entries 3, 4). -/
def atHandler (s : State) (e : Event) (p : Plan) : State :=
  { s with
    rip := gateRip p.lo p.hi, nextRip := gateRip p.lo p.hi
    cs := ⟨gateSel p.lo &&& 0xFFFC, true⟩
    ss := if s.ss.dpl = 0 then s.ss else ⟨0, 0, false⟩
    gpr := s.gpr.set .rsp (p.rsp - (if e.err.isSome then 48 else 40))
    rflags := s.rflags &&& (if gateType p.lo = 14 then ~~~(0x14300 : Word) else ~~~(0x14100 : Word))
    nmiBlocked := s.nmiBlocked || e.kind == .nmi
    activity := .running
    dbPending := (e.kind == .softInt || e.kind == .int1) && s.dbPending
    bpHits := if e.kind == .softInt || e.kind == .int1 then s.bpHits else 0
    stored := [], tlb := { s.tlb with past := s.pastEntries p.pas ++ s.tlb.past } }

/-- The frame (R438), in the order of the pushes; from compatibility mode bits 63:32 of RSP are 0 (R434). -/
def frame (s : State) (e : Event) : List Byte :=
  leBytes 8 (s.ss.sel.setWidth 64) ++ leBytes 8 (if s.cs.l then s.reg .rsp else s.reg .rsp &&& 0xFFFFFFFF) ++
  leBytes 8 s.rflags ++ leBytes 8 (s.cs.sel.setWidth 64) ++
  leBytes 8 e.rip ++ (match e.err with | some c => leBytes 8 (c.setWidth 64) | none => [])

/-- `r` is the state at the handler of `e`, taken in `s`: the registers of R434 to R436, the frame at `p.pas`, every other
byte of memory and every other field as in `s`. -/
def handled (s : State) (e : Event) (p : Plan) (r : Host.Outcome State Fault Refusal) : Prop :=
  ∃ t, r = .next t ∧ State.sameButMem (atHandler s e p) t ∧ State.storesAt s t p.pas (frame s e)

/-! ## VM entry, VM exit, the authenticated-code module -/

/-- An I/O access that causes no VM exit: outside non-root operation, or to ports that the controls let through (R298, R374). -/
def portFree (s : State) (port : Half) (width : Nat) : Prop := ∀ v, s.vmx = .nonRoot v → s.ioExits v.ctl port width = false

/-- The conditions of R367, in its order, and those of R368: any of them fails VM entry. D is bit 14 of the CS access rights,
L bit 13, DPL bits 6:5 of the SS access rights (R361); `la57` is the guest's CR4.LA57. -/
def guestIllegal (la57 : Bool) (g : VmcsGuest) : Prop :=
  (g.csAr.getLsbD 13 = false ∧ g.csAr.getLsbD 14 = false) ∨ (g.csAr.getLsbD 13 = true ∧ g.csAr.getLsbD 14 = true) ∨
  (g.csAr.getLsbD 13 = false ∧ g.ssAr.extractLsb' 5 2 = 0) ∨ g.ssAr.extractLsb' 5 2 = 1 ∨ g.ssAr.extractLsb' 5 2 = 2 ∨
  g.ssSel.setWidth 2 ≠ g.ssAr.extractLsb' 5 2 ∨ g.csSel.setWidth 2 ≠ g.ssAr.extractLsb' 5 2 ∨
  g.trSel.getLsbD 2 = true ∨ g.ldtrSel.getLsbD 2 = true ∨ isCanonical la57 g.ldtrBase = false ∨
  g.rflags &&& 0x1A3000 ≠ 0

/-- CR0 and CR4 as VM entry loads them: the bits that the FIXED MSRs fix, and those of R30 and R33, hold their fixed values
(R369). -/
def guestCr0 (c : Config) (v : Word) : Word :=
  0x80000033 ||| (((v ||| vmxCr0Fixed0 c) &&& vmxCr0Fixed1 c) &&& 0x40050008)
def guestCr4 (c : Config) (v : Word) : Word :=
  (((v ||| vmxCr4Fixed0 c) &&& vmxCr4Fixed1 c) ||| 0x20) &&& ~~~(2 : Word)

/-- The state that VM entry loads from the guest area (R366, R369; the rest the baseline's, entry 26). -/
def guestLoaded (s : State) (g : VmcsGuest) : State :=
  { s with
    cs := ⟨g.csSel, g.csAr.getLsbD 13⟩, ss := ⟨g.ssSel, g.ssAr.extractLsb' 5 2, g.ssAr.getLsbD 14⟩
    ds := g.dsSel, es := g.esSel, fs := ⟨g.fsSel, g.fsBase⟩, gs := ⟨g.gsSel, g.gsBase⟩
    tr := ⟨g.trSel, g.trBase, g.trLimit⟩, ldtr := ⟨g.ldtrSel, g.ldtrBase, g.ldtrLimit⟩
    gdtr := ⟨g.gdtrBase, g.gdtrLimit⟩, idtr := ⟨g.idtrBase, g.idtrLimit⟩
    gpr := s.gpr.set .rsp g.rsp, rip := g.rip, nextRip := g.rip, rflags := g.rflags
    cr0 := guestCr0 s.cfg g.cr0, cr3 := g.cr3, cr4 := guestCr4 s.cfg g.cr4
    activity := if g.activity = 0 then .running else if g.activity = 1 then .halted else .shutdown .plain
    movSsBlocked := false, stiBlocked := false, dbPending := false, bpHits := 0, tlb := Tlb.empty, stored := [] }

/-- The state that a VM exit loads from the host area (R372; the rest the baseline's, entry 26). -/
def hostLoaded (s : State) (h : VmcsHost) : State :=
  { s with
    cs := ⟨h.csSel, true⟩, ss := ⟨h.ssSel, 0, false⟩, ds := h.dsSel, es := h.esSel
    fs := ⟨h.fsSel, h.fsBase⟩, gs := ⟨h.gsSel, h.gsBase⟩, tr := ⟨h.trSel, h.trBase, 0x67⟩, ldtr := ⟨0, 0, 0⟩
    gdtr := ⟨h.gdtrBase, 0xFFFF⟩, idtr := ⟨h.idtrBase, 0xFFFF⟩
    gpr := s.gpr.set .rsp h.rsp, rip := h.rip, nextRip := h.rip, rflags := 2
    cr0 := 0x80000033 ||| (h.cr0 &&& 0x40050008), cr3 := h.cr3, cr4 := (h.cr4 ||| 0x20) &&& ~~~(2 : Word)
    dbg := { s.dbg with dr7 := 0x400 }, plat := { s.plat with debugCtl := 0 }, activity := .running
    movSsBlocked := false, stiBlocked := false, dbPending := false, bpHits := 0, tlb := Tlb.empty, stored := [] }

/-- The guest area that a VM exit leaves (R371, R361): the access rights of CS and SS hold L, D, DPL and B and nothing else;
the fields R361 calls ignored keep their values (D39). -/
def guestSaved (s : State) (g : VmcsGuest) : VmcsGuest :=
  { g with
    esSel := s.es, csSel := s.cs.sel, ssSel := s.ss.sel, dsSel := s.ds
    fsSel := s.fs.sel, gsSel := s.gs.sel, ldtrSel := s.ldtr.sel, trSel := s.tr.sel
    fsBase := s.fs.base, gsBase := s.gs.base, trBase := s.tr.base, ldtrBase := s.ldtr.base
    gdtrBase := s.gdtr.base, idtrBase := s.idtr.base
    trLimit := s.tr.limit, ldtrLimit := s.ldtr.limit, gdtrLimit := s.gdtr.limit, idtrLimit := s.idtr.limit
    csAr := BitVec.ofNat 32 (s.ss.dpl.toNat * 32 + if s.cs.l then 8192 else 16384)
    ssAr := BitVec.ofNat 32 (s.ss.dpl.toNat * 32 + if s.ss.b then 16384 else 0)
    activity := (match s.activity with | .running => 0 | .halted => 1 | .shutdown _ => 2 | .waitForSipi => 3 | .senterSleep => 3)
    rflags := s.rflags, rip := s.rip, rsp := s.reg .rsp, cr0 := s.cr0, cr3 := s.cr3, cr4 := s.cr4 }

/-- The state after a VM exit from `s` under `v`, with its reason, qualification, and the event that caused it where one did. -/
def exited (s : State) (v : Vmcs) (reason : DWord) (qualification : Word) (info errorCode : DWord) : State :=
  { hostLoaded s v.host with
    vmx := .root (some {
      guest := guestSaved s v.guest, host := v.host
      ctl := { v.ctl with entryIntrInfo := v.ctl.entryIntrInfo &&& 0x7FFFFFFF }
      exit := { reason := reason, qualification := qualification, intrInfo := info, intrErrorCode := errorCode,
                instructionError := v.exit.instructionError } }) }

/-- A field of the authenticated-code module's header, read where the module lies in memory (R392). -/
def moduleField (s : State) (off n : Nat) : Word :=
  leWord ((List.range n).map (fun k => Memory.read s.mem ((s.reg .rbx &&& 0xFFFFFFFF).toNat + off + k)))

/-- The first group of R395: the conditions that raise #GP(0) whatever module is named. -/
def moduleForbidden (s : State) : Prop :=
  s.vmx ≠ .off ∨ bit s.cr0 30 = true ∨ s.ss.dpl ≠ 0 ∨ bit s.plat.apicBase 8 = false ∨ s.txt.present = false ∨
  s.smx.acMode = true ∨ s.inSmm = true

/-- The module lies where R395 asks. -/
def modulePlaced (s : State) (base size : Nat) : Prop :=
  base % 4096 = 0 ∧ size % 64 = 0 ∧ s.cfg.acmMinSize ≤ size ∧ size ≤ s.cfg.acramCapacity ∧ base + size ≤ 2 ^ 32 - 1

end Sys2Proof.Machine
end

