-- ==== Sys2Proof/Certificates/Slice0/Obligations.lean ====
section
/-! DEFINITION. The statements for the provers. -/

open Sys2Proof Sys2Proof.Machine


/-! ## Decoding, stepping, reset -/

/-- R130 to R144: whatever bytes follow, the encoding of a well-formed instruction decodes to it and its length, in both modes
and for every operand value. -/
def Obligations.DecodeEncode : Prop :=
  ∀ (l : Bool) (i : Instr) (rest : List Byte), i.wf l = true →
    decode l (encode l i ++ rest) = .ok (i, (encode l i).length)

/-- Words written out from the encodings of 30_encoding.md, in 64-bit mode and then in compatibility mode. And R415, R422: LOCK before
bytes that decode to an instruction makes no instruction of them: it is misused, or the form raises #UD by its bytes and mode alone, which
comes first (StepRunsDecoded says what a step does there). That no instruction of the table takes LOCK is log entry 16 (PRESUMED). -/
def Obligations.DecodeWords : Prop :=
  decode true [0x48, 0xCF] = .ok (.iret { w := true }, 2) ∧
  decode true [0x0F, 0x22, 0xC0] = .ok (.movCr0R .rax, 3) ∧
  decode true [0xF3, 0x0F, 0x01, 0xCA] = .ok (.eretu, 4) ∧
  decode true [0xCD, 0x80] = .ok (.intImm8 0x80, 2) ∧
  decode false [0x67, 0x8D, 0x07] = .ok (.lea { asz := true } .rax { base := some .rbx }, 3) ∧
  decode false [0xEA, 0x00, 0x00, 0x02, 0x00, 0x33, 0x00] = .ok (.jmpPtr {} 0x20000 0x33, 7) ∧
  decode true [0xF0, 0x0F, 0xA2] = .error .lockMisuse ∧ decode false [0x66, 0xF0, 0xEB, 0x00] = .error .invalid ∧
  (∀ (l : Bool) (bs : List Byte) (i : Instr) (n : Nat), decode l bs = .ok (i, n) →
    decode l (0xF0 :: bs) = .error (if udAtDecode l i then .invalid else .lockMisuse))

/-- A step at bytes that decode to a well-formed instruction runs that instruction (R480). What surrounds it is the model's own: a new
draw number (log entry 3), the shadows of the instruction before end (log entry 24, DEDUCED), a trap is pending where TF was set, but not over
a software interrupt that will be taken, and the breakpoints that see its accesses are noted (log entry 23, PRESUMED); afterwards RF is cleared unless the instruction
loads or keeps it (log entry 23), and fetches see every store after a transfer or a serialising instruction (log entry 4). An
instruction that goes on past the end of the address space is refused (R24, D25, U11, log entry 25); one that transfers or faults is not, wherever it
goes. R415, R416: bytes that are an invalid encoding raise #UD, and bytes in which LOCK is misused #GP(0) (the error code: log entry
16, DEDUCED). -/
def Obligations.StepRunsDecoded : Prop :=
  (∀ (s b : State), s.due = none → s.activity = .running →
    b = { s with nextRip := s.rip, draws := s.draws + 1, movSsBlocked := false, stiBlocked := false,
                 dbPending := s.dbPending || bit s.rflags 8 } →
    (decode s.cs.l s.fetch.1 = .error .lockMisuse → step s = b.takeException (excGp 0)) ∧
    (decode s.cs.l s.fetch.1 = .error .invalid → step s = b.takeException excUd)) ∧
  ∀ (s : State) (i : Instr) (n : Nat), s.due = none → s.activity = .running → i.wf s.cs.l = true →
    decode s.cs.l s.fetch.1 = .ok (i, n) →
    let b := { s with nextRip := s.rip + BitVec.ofNat 64 n, draws := s.draws + 1, movSsBlocked := false, stiBlocked := false,
                      dbPending := s.dbPending || bit s.rflags 8 && !s.interrupts i }
    let c := { b with bpHits := s.bpHits ||| b.bpWatch (b.touches i) }
    (s.interrupts i = true ↔ (∃ v, i = .intImm8 v) ∨ i = .int3 ∨ i = .int1 ∨ i = .into ∧ bit s.rflags 11 = true) ∧
    s.beginInstr i n = c ∧ (s.dbg.dr7 &&& 0xFF = 0 → c.bpHits = s.bpHits) ∧
    (∀ t, exec i c = .next t →
      step s = if State.wrapped c t (c.goesOn (c.branches i) (exec i)) then .refused .ripWrapAround else .next { t with
        rflags := if keepsRf i then t.rflags else t.rflags &&& ~~~(0x10000 : Word)
        stored := if refetches i = true ∨ t.rip ≠ c.nextRip then [] else t.stored }) ∧
    (∀ t, t.rip ≠ c.nextRip ∨ t.cs.l = true ∧ c.rip.toNat ≤ c.nextRip.toNat → ∀ g, State.wrapped c t g = false) ∧
    (∀ f, exec i c = .fault f → step s = .fault f) ∧ (∀ f, exec i c = .refused f → step s = .refused f)

/-- R80, R470: the registers after reset whatever the parameters, but for those whose reset value is the model's own. That a platform
reset that happens later sets every register so, and keeps memory, the platform's inputs, the logs and the draw counter, is log entry
43 (DEDUCED). That NMIs are not blocked after reset is R64's for the bootstrap processor, and for an application processor log entry 6
(DESIGN CHOICE). -/
def Obligations.ResetRegisters : Prop :=
  (∀ s : State, s.pending.reset = true → step s = .next { State.resetOf s.cfg with
    mem := s.mem, txt := s.txt, draws := s.draws, portWrites := s.portWrites, apicWrites := s.apicWrites }) ∧
  ∀ c : Config,
    let s := State.resetOf c
    s.rip = 0xFFFFFFF0 ∧ s.rflags = 2 ∧ s.cr0 = 0x80000033 ∧ s.cr2 = 0 ∧ s.cr3 = 0xFFFFE000 ∧ s.cr4 = 0x20 ∧ s.efer = 0xD01 ∧
    s.cs = ⟨0, true⟩ ∧ s.ss = ⟨8, 0, false⟩ ∧ s.ds = 0 ∧ s.es = 0 ∧ s.fs = ⟨0, 0⟩ ∧ s.gs = ⟨0, 0⟩ ∧
    s.gdtr = ⟨0, 0⟩ ∧ s.idtr = ⟨0, 0⟩ ∧ s.ldtr.base = 0 ∧ s.ldtr.limit = 0 ∧ s.tr.base = 0 ∧ s.tr.limit = 0 ∧
    (∀ r, r ≠ .rax → r ≠ .rdx → s.reg r = 0) ∧ s.reg .rdx = c.resetRdx.setWidth 64 ∧ (c.bistPassed = true → s.reg .rax = 0) ∧
    s.dbg = ⟨0, 0, 0, 0, 0xFFFF0FF0, 0x400⟩ ∧ s.xcr0 = 1 ∧ s.plat.xss = 0 ∧
    s.fpu.fcw = 0x40 ∧ s.fpu.fsw = 0 ∧ s.fpu.ftw = 0x5555 ∧ s.fpu.mxcsr = 0x1F80 ∧ s.fpu.pkru = 0 ∧
    (∀ v ∈ s.fpu.st, v = 0) ∧ (∀ v ∈ s.fpu.ymm, v = 0) ∧ (∀ v ∈ s.fpu.opmask, v = 0) ∧
    s.sys.star = 0 ∧ s.sys.lstar = 0 ∧ s.sys.sysenterCs = 0 ∧ s.sys.sysenterEsp = 0 ∧ s.sys.sysenterEip = 0 ∧
    s.plat.sipiPtr = 0 ∧ bit s.plat.mtrrDefType 11 = false ∧ s.nmiBlocked = false ∧
    s.cnt.tsc = 0 ∧ s.cnt.tscAux = 0 ∧ s.cnt.tscAdjust = 0 ∧ s.cnt.tscDeadline = 0 ∧ s.cnt.fixedCtrCtrl = 0 ∧
    (∀ v ∈ s.cnt.pmc, v = 0) ∧ (∀ v ∈ s.cnt.perfEvtSel, v = 0) ∧ (∀ v ∈ s.cnt.fixedCtr, v = 0)

/-- R80, R410: the reset state has every property of `State.inv`. Of these the canonical form of memory is log entry 2 (DESIGN CHOICE),
and that CR8 is 0 log entry 7 (PRESUMED; R81 gives it no reset value). -/
def Obligations.ResetInvariant : Prop :=
  State.reset.inv = true

/-! ## What every step keeps -/

/-- Every step keeps memory and ACRAM in canonical form (the model's form, entry 2). -/
def Obligations.StepKeepsMemoryForm : Prop :=
  ∀ s t : State, s.memWf = true → step s = .next t → t.memWf = true

/-- R410: no step enters ring 1, ring 2 or 32-bit ring 0. -/
def Obligations.StepKeepsMode : Prop :=
  ∀ s t : State, s.legalMode = true → step s = .next t → t.legalMode = true

/-- R30, R33, R36, R55: the fixed bits of CR0, CR4, IA32_EFER and IA32_APIC_BASE stay, and CR8 keeps four bits (R272). -/
def Obligations.StepKeepsFixedRegisters : Prop :=
  ∀ s t : State, s.fixedRegisters = true → step s = .next t → t.fixedRegisters = true

/-- R26, R27: no instruction and no event makes IOPL, VM, VIF or VIP non-zero, or a reserved flag. -/
def Obligations.StepKeepsFlags : Prop :=
  ∀ s t : State, s.legalRflags = true → step s = .next t → t.legalRflags = true

/-- R24: in compatibility mode RIP always has bits 63:32 zero. -/
def Obligations.StepKeepsCompatRip : Prop :=
  ∀ s t : State, s.legalMode = true → s.legalRip = true → step s = .next t → t.legalRip = true

/-- R411, R412: an instruction executed in ring 3, outside SMM, that leaves the processor in ring 3 changes no control register
but CR2, no table register, no system-call MSR, no platform MSR, no CET or counter MSR, and not the VMX
or SMX mode. -/
def Obligations.UserKeepsSystemState : Prop :=
  ∀ (i : Instr) (s t : State), s.ss.dpl = 3 → s.inSmm = false → exec i s = .next t → t.ss.dpl = 3 →
    t.cr0 = s.cr0 ∧ t.cr3 = s.cr3 ∧ t.cr4 = s.cr4 ∧ t.cr8 = s.cr8 ∧ t.efer = s.efer ∧ t.xcr0 = s.xcr0 ∧
    t.gdtr = s.gdtr ∧ t.idtr = s.idtr ∧ t.ldtr = s.ldtr ∧ t.tr = s.tr ∧ t.sys = s.sys ∧ t.plat = s.plat ∧ t.dbg = s.dbg ∧
    t.cet = s.cet ∧ t.cnt = s.cnt ∧
    t.vmx = s.vmx ∧ t.smx = s.smx ∧ t.portWrites = s.portWrites ∧ t.apicWrites = s.apicWrites

/-- R412: no instruction moves from ring 0 to ring 3 except the four returns, RSM and VM entry; and IRET does so only with
CR4.FRED = 0. -/
def Obligations.OnlyReturnsLeaveRingZero : Prop :=
  ∀ (i : Instr) (s t : State), s.ss.dpl = 0 → exec i s = .next t → t.ss.dpl = 3 →
    ((∃ p, i = .iret p) ∧ bit s.cr4 32 = false) ∨ (∃ p, i = .sysret p) ∨ (∃ p, i = .sysexit p) ∨ i = .eretu ∨ i = .rsm ∨
    i = .vmlaunch ∨ i = .vmresume ∨ i = .seamret

/-- R412: an instruction other than RSM that moves from ring 3 to ring 0 enters 64-bit mode, as SYSCALL, as SYSENTER, by a VM exit
at the host's RIP, or by a delivery, which leaves SS NULL and CS with RPL 0. -/
def Obligations.RingZeroEntries : Prop :=
  ∀ (i : Instr) (s t : State), s.ss.dpl = 3 → exec i s = .next t → t.ss.dpl = 0 → i ≠ .rsm →
    t.cs.l = true ∧
    (i = .syscall ∨ i = .sysenter ∨ (∃ v, s.vmx = .nonRoot v ∧ t.rip = v.host.rip) ∨
      (t.ss = ⟨0, 0, false⟩ ∧ t.cs.sel.extractLsb' 0 2 = 0))

/-! ## Near branches -/

/-- R178, R179, R182, R183, R191, R194: Jcc and JMP with a relative displacement, in every form but the 16-bit one. A branch not
taken goes on at the next instruction; a branch taken loads its target, or raises #GP(0) where the target is not canonical.
Nothing but RIP changes. -/
def Obligations.RelativeBranches : Prop :=
  ∀ (p : Pfx) (cc : BitVec 4) (rel8 : BitVec 8) (rel32 : BitVec 32) (s : State), (s.cs.l = true ∨ p.osz = false) →
    (condTrue cc s.rflags = false →
      exec (.jccRel8 p cc rel8) s = .next { s with rip := s.nextRip } ∧
      exec (.jccRel32 p cc rel32) s = .next { s with rip := s.nextRip }) ∧
    (∀ t, legalTarget s (s.nextRip + rel8.signExtend 64) = some t →
      exec (.jmpRel8 p rel8) s = .next { s with rip := t } ∧
      (condTrue cc s.rflags = true → exec (.jccRel8 p cc rel8) s = .next { s with rip := t })) ∧
    (∀ t, legalTarget s (s.nextRip + rel32.signExtend 64) = some t →
      exec (.jmpRel32 p rel32) s = .next { s with rip := t } ∧
      (condTrue cc s.rflags = true → exec (.jccRel32 p cc rel32) s = .next { s with rip := t })) ∧
    (legalTarget s (s.nextRip + rel8.signExtend 64) = none →
      exec (.jmpRel8 p rel8) s = s.takeException (excGp 0) ∧
      (condTrue cc s.rflags = true → exec (.jccRel8 p cc rel8) s = s.takeException (excGp 0))) ∧
    (legalTarget s (s.nextRip + rel32.signExtend 64) = none →
      exec (.jmpRel32 p rel32) s = s.takeException (excGp 0) ∧
      (condTrue cc s.rflags = true → exec (.jccRel32 p cc rel32) s = s.takeException (excGp 0)))

/-- R180, R181, R192: LOOPNE, LOOPE, LOOP decrement the count register (RCX; ECX with 0x67 in 64-bit mode and without it in
compatibility mode, cleared above; CX with it there, the rest kept: the spec's own decision D36, log entry 36, DEDUCED), and branch
where the count is then not 0 and ZF says so; JECXZ and JRCXZ branch where the count is 0 and change no register. A branch that is
taken to a target that is not canonical raises #GP(0); one that is not taken goes on whatever its target. -/
def Obligations.CountBranches : Prop :=
  ∀ (p : Pfx) (rel : BitVec 8) (s : State) (n : Nat) (c : Word),
    (s.cs.l = true ∨ p.osz = false) →
    n = (if s.cs.l then (if p.asz then 4 else 8) else if p.asz then 2 else 4) →
    c = regWritten 0 n (s.reg .rcx) →
    (∀ t, legalTarget s (s.nextRip + rel.signExtend 64) = some t →
      let u := { s with gpr := s.gpr.set .rcx (regWritten (s.reg .rcx) n (c - 1)) }
      let more := regWritten 0 n (c - 1) ≠ 0
      exec (.loopRel8 p rel) s = .next { u with rip := if more then t else s.nextRip } ∧
      exec (.loopeRel8 p rel) s = .next { u with rip := if more ∧ bit s.rflags 6 = true then t else s.nextRip } ∧
      exec (.loopneRel8 p rel) s = .next { u with rip := if more ∧ bit s.rflags 6 = false then t else s.nextRip } ∧
      exec (.jecxzRel8 p rel) s = .next { s with rip := if c = 0 then t else s.nextRip } ∧
      exec (.jrcxzRel8 p rel) s = .next { s with rip := if c = 0 then t else s.nextRip }) ∧
    (legalTarget s (s.nextRip + rel.signExtend 64) = none →
      (c = 0 → exec (.jecxzRel8 p rel) s = s.takeException (excGp 0) ∧
        exec (.jrcxzRel8 p rel) s = s.takeException (excGp 0)) ∧
      (regWritten 0 n (c - 1) ≠ 0 → exec (.loopRel8 p rel) s = s.takeException (excGp 0) ∧
        (bit s.rflags 6 = true → exec (.loopeRel8 p rel) s = s.takeException (excGp 0)) ∧
        (bit s.rflags 6 = false → exec (.loopneRel8 p rel) s = s.takeException (excGp 0))) ∧
      (c ≠ 0 → exec (.jecxzRel8 p rel) s = .next { s with rip := s.nextRip } ∧
        exec (.jrcxzRel8 p rel) s = .next { s with rip := s.nextRip }) ∧
      (let u := { s with rip := s.nextRip, gpr := s.gpr.set .rcx (regWritten (s.reg .rcx) n (c - 1)) }
       (regWritten 0 n (c - 1) = 0 → exec (.loopRel8 p rel) s = .next u) ∧
       (regWritten 0 n (c - 1) = 0 ∨ bit s.rflags 6 = false → exec (.loopeRel8 p rel) s = .next u) ∧
       (regWritten 0 n (c - 1) = 0 ∨ bit s.rflags 6 = true → exec (.loopneRel8 p rel) s = .next u)))

/-- R184, R185, R186, R194: JMP r/m loads its operand; CALL pushes the address of the next instruction, in a slot of 8 bytes in
64-bit mode and 4 in compatibility mode below the stack pointer, and loads its target. R187, R188: RET loads RIP from the stack and
releases the slot, RET imm16 also `imm` bytes. A target that is not canonical raises #GP(0), and nothing is pushed or
released. That no shadow stack and no end-branch tracking takes part, also with CR4.CET = 1, is the model's choice (log entry
20). -/
def Obligations.CallsJumpsReturns : Prop :=
  (∀ (p : Pfx) (rel : BitVec 32) (rm : RM) (s : State) (n : Nat),
     (s.cs.l = true ∨ p.osz = false) → n = (if s.cs.l then 8 else 4) →
     (∀ v t, s.readRM p (if s.cs.l then .w64 else .w32) rm = .ok v → legalTarget s v = some t →
       exec (.jmpRM p rm) s = .next { s with rip := t }) ∧
     (∀ v, s.readRM p (if s.cs.l then .w64 else .w32) rm = .ok v → legalTarget s v = none →
       exec (.jmpRM p rm) s = s.takeException (excGp 0) ∧ exec (.callRM p rm) s = s.takeException (excGp 0)) ∧
     (legalTarget s (s.nextRip + rel.signExtend 64) = none → exec (.callRel32 p rel) s = s.takeException (excGp 0)) ∧
     (∀ pas, s.memWf = true → s.accessPas { s.dataAccess with write := true } (stackDown s.cs.l s.sp n) n n = .ok pas →
       (∀ t, legalTarget s (s.nextRip + rel.signExtend 64) = some t →
         storesTo (.callRel32 p rel) s { s with rip := t, gpr := s.gpr.set .rsp (stackDown s.cs.l s.sp n) } pas
           (leBytes n s.nextRip)) ∧
       (∀ v t, s.readRM p (if s.cs.l then .w64 else .w32) rm = .ok v → legalTarget s v = some t →
         storesTo (.callRM p rm) s { s with rip := t, gpr := s.gpr.set .rsp (stackDown s.cs.l s.sp n) } pas
           (leBytes n s.nextRip)))) ∧
  (∀ (p : Pfx) (imm : BitVec 16) (s : State) (n : Nat) (v : Word),
     (s.cs.l = true ∨ p.osz = false) → n = (if s.cs.l then 8 else 4) → s.memRead s.sp n = .ok v →
     (∀ t, legalTarget s v = some t →
       exec (.ret p) s = .next { s with rip := t, gpr := s.gpr.set .rsp (s.spUp n) } ∧
       exec (.retImm16 p imm) s = .next { s with rip := t, gpr := s.gpr.set .rsp (s.spUp (n + imm.toNat)) }) ∧
     (legalTarget s v = none →
       exec (.ret p) s = s.takeException (excGp 0) ∧ exec (.retImm16 p imm) s = s.takeException (excGp 0)))

/-- R174, R176: in compatibility mode with 0x67 a memory operand that is referenced raises #GP(0), before any other
memory-related exception, in every instruction of the opcode table that has one, with 0x66 too; a branch with 0x66 raises #UD before it
(R173). -/
def Obligations.Address16Faults : Prop :=
  ∀ (p : Pfx) (m : Mem) (r : Reg) (sr : BitVec 3) (s : State), s.cs.l = false → p.asz = true →
    (p.osz = false → ∀ i ∈ [Instr.jmpRM p (.mem m), .callRM p (.mem m), .jmpFarM p m, .callFarM p m],
      exec i s = s.takeException (excGp 0)) ∧
    (∀ i ∈ [Instr.lds p r m, .les p r m, .lss p r m, .lfs p r m, .lgs p r m, .verr p (.mem m), .verw p (.mem m),
            .lar p r (.mem m), .lsl p r (.mem m), .arpl p (.mem m) r, .lgdt p m, .lidt p m, .lldt p (.mem m), .ltr p (.mem m),
            .sgdt p m, .sidt p m, .sldt p (.mem m), .str p (.mem m)], exec i s = s.takeException (excGp 0)) ∧
    (sr.toNat ∈ [0, 2, 3, 4, 5] → exec (.movSregRM p sr (.mem m)) s = s.takeException (excGp 0)) ∧
    (sr.toNat ≤ 5 → exec (.movRMSreg p sr (.mem m)) s = s.takeException (excGp 0))

/-- R189, R190, R49: LEA writes the effective address, truncated to the address size, without a memory reference and without
the segment base; it does not fault with 0x67. NOP changes RIP alone, whatever operand it names. -/
def Obligations.LeaAndNop : Prop :=
  ∀ (p : Pfx) (r : Reg) (m : Mem) (rm : RM) (s : State) (ea : Word),
    ea = s.optReg m.base + (s.optReg m.index <<< m.scale.toNat) + Disp.value m.disp + (if m.rip then s.nextRip else 0) →
    exec (.lea p r m) s = .next { s with
      rip := s.nextRip
      gpr := s.gpr.set r (regWritten (s.reg r) (dataBytes s p)
        (regWritten 0 (if s.cs.l then (if p.asz then 4 else 8) else if p.asz then 2 else 4) ea)) } ∧
    exec .nop s = .next { s with rip := s.nextRip } ∧
    exec (.nopRM p rm) s = .next { s with rip := s.nextRip }

/-! ## Far transfers -/

/-- R322 to R326: a far JMP within the ring to a code segment that passes every check of R202 and R204 loads CS (selector and
L) and RIP, which is truncated for compatibility mode and must be canonical for 64-bit mode; nothing else changes.
`jmpPtr` exists in compatibility mode. R321 to R323: a far CALL within the ring pushes CS and then the address of the next
instruction, each in the operand size, and loads CS and RIP. That no shadow stack and no end-branch tracking takes part, also with
CR4.CET = 1, is the model's choice (log entry 20). -/
def Obligations.FarJumpsAndCalls : Prop :=
  (∀ (p : Pfx) (off32 : BitVec 32) (m : Mem) (sel : Half) (off d : Word) (s : State),
     codeSegment s sel d → (s.cs.l = true ∧ p.w = true ∨ p.osz = false) →
     (s.cs.l = false → p.asz = false → ∀ t, legalFarTarget s (d.getLsbD 53) (off32.setWidth 64) = some t →
       exec (.jmpPtr p off32 sel) s = .next { s with cs := ⟨sel, d.getLsbD 53⟩, rip := t }) ∧
     (s.readFarPtr p m (s.opSize p) = .ok (off, sel) →
       (∀ t, legalFarTarget s (d.getLsbD 53) off = some t →
         exec (.jmpFarM p m) s = .next { s with cs := ⟨sel, d.getLsbD 53⟩, rip := t }) ∧
       (legalFarTarget s (d.getLsbD 53) off = none → exec (.jmpFarM p m) s = s.takeException (excGp 0)))) ∧
  (∀ (p : Pfx) (off32 : BitVec 32) (m : Mem) (sel : Half) (off d t : Word) (s : State) (pas : List Nat),
     s.memWf = true → codeSegment s sel d → (s.cs.l = true ∧ p.w = true ∨ p.osz = false) →
     (s.cs.l = false → s.pushPas s.dataAccess false s.sp 4 2 = .ok pas →
       legalFarTarget s (d.getLsbD 53) (off32.setWidth 64) = some t →
       storesTo (.callPtr p off32 sel) s
         { s with cs := ⟨sel, d.getLsbD 53⟩, rip := t, gpr := s.gpr.set .rsp (stackDown false s.sp 8) } pas
         (leBytes 4 (s.cs.sel.setWidth 64) ++ leBytes 4 s.nextRip)) ∧
     (s.readFarPtr p m (s.opSize p) = .ok (off, sel) →
       s.pushPas s.dataAccess s.cs.l s.sp (dataBytes s p) 2 = .ok pas → legalFarTarget s (d.getLsbD 53) off = some t →
       storesTo (.callFarM p m) s
         { s with cs := ⟨sel, d.getLsbD 53⟩, rip := t,
                  gpr := s.gpr.set .rsp (stackDown s.cs.l s.sp (dataBytes s p * 2)) } pas
         (leBytes (dataBytes s p) (s.cs.sel.setWidth 64) ++ leBytes (dataBytes s p) s.nextRip)))

/-- R327, R328: a far RET within the ring loads RIP and CS from two slots of the operand size, releases them and `imm` more
bytes. That no shadow stack takes part, also with CR4.CET = 1, is the model's choice (log entry 20). -/
def Obligations.FarReturns : Prop :=
  ∀ (p : Pfx) (imm : BitVec 16) (item0 item1 d t : Word) (s : State),
    (s.cs.l = true ∧ p.w = true ∨ p.osz = false) →
    s.popAt (s.opSize p) 0 = .ok item0 → s.popAt (s.opSize p) 1 = .ok item1 → codeSegment s (item1.setWidth 16) d →
    legalFarTarget s (d.getLsbD 53) item0 = some t →
    exec (.retFar p) s = .next { s with
      cs := ⟨item1.setWidth 16, d.getLsbD 53⟩, rip := t, gpr := s.gpr.set .rsp (s.spUp (dataBytes s p * 2)) } ∧
    exec (.retFarImm16 p imm) s = .next { s with
      cs := ⟨item1.setWidth 16, d.getLsbD 53⟩, rip := t, gpr := s.gpr.set .rsp (s.spUp (dataBytes s p * 2 + imm.toNat)) }

/-- R173, R321, R324, R327, R330: far CALL, JMP, RET and IRET with 16-bit operand size raise #UD in both modes; and R152: the
direct far forms, INTO and the one-byte segment pushes and pops raise it in 64-bit mode. R173: a near branch with 16-bit
operand size, which only 0x66 in compatibility mode gives, raises #UD before anything else: taken or not, whatever its
operand (with both prefixes #UD comes before the #GP(0) of 0x67: R175, by the spec's own decision D21, log entry 39). R274, R302, R303: LMSW, INS and OUTS raise #UD at every CPL and
in both modes. R416, R421: the handler finds the address of the instruction, and no error code. -/
def Obligations.RemovedFormsAndInstructions : Prop :=
  (∀ (p : Pfx) (off : BitVec 32) (sel imm : BitVec 16) (m : Mem) (rm : RM) (r : Reg) (s : State),
     ((s.cs.l = false ∨ p.w = false) → p.osz = true →
       ∀ i ∈ [Instr.callPtr p off sel, .callFarM p m, .jmpPtr p off sel, .jmpFarM p m, .retFar p, .retFarImm16 p imm,
              .iret p], exec i s = s.takeException excUd) ∧
     (s.cs.l = true →
       ∀ i ∈ [Instr.callPtr p off sel, .jmpPtr p off sel, .into, .popEs p, .popSs p, .popDs p, .pushEs p, .pushCs p,
              .pushSs p, .pushDs p, .lds p r m, .les p r m, .arpl p rm r], exec i s = s.takeException excUd)) ∧
  (∀ (p : Pfx) (cc : BitVec 4) (rel8 : BitVec 8) (rel32 : BitVec 32) (rm : RM) (imm : BitVec 16) (s : State),
     s.cs.l = false → p.osz = true →
     ∀ i ∈ [Instr.jccRel8 p cc rel8, .jccRel32 p cc rel32, .loopneRel8 p rel8, .loopeRel8 p rel8, .loopRel8 p rel8,
            .jecxzRel8 p rel8, .jmpRel8 p rel8, .jmpRel32 p rel32, .callRel32 p rel32, .jmpRM p rm, .callRM p rm, .ret p,
            .retImm16 p imm], exec i s = s.takeException excUd) ∧
  (∀ (s : State) (q : Pfx) (rm : RM), ∀ i ∈ [Instr.lmsw q rm, .insb, .insd, .outsb, .outsd],
     exec i s = s.takeException excUd ∧
     (∀ p : Plan, s.memWf = true → s.nonRoot = false → reachesHandler s ⟨6, .exception, false, none, s.rip⟩ p →
       handled s ⟨6, .exception, false, none, s.rip⟩ p (exec i s)))

/-- R320, R202, R203, R204, R321, R324, R327: which far CALL, JMP and RET fault, with nothing pushed or popped: a NULL selector
raises #GP(0); a selector beyond its table, one of 4 to 7, or one whose descriptor fails a condition of R204, another ring among
them, #GP(sel); a target that is not canonical in a 64-bit segment #GP(0); and the direct JMP with 0x67 in compatibility mode
#GP(0) (R325, C36). -/
def Obligations.FarTransferFaults : Prop :=
  ∀ (p : Pfx) (off32 : BitVec 32) (m : Mem) (sel : Half) (imm : BitVec 16) (off item0 item1 d : Word) (code : DWord) (s : State),
    (s.cs.l = true ∧ p.w = true ∨ p.osz = false) →
    (codeRefused s sel d s.ss.dpl code →
      (s.cs.l = false → p.asz = false → exec (.jmpPtr p off32 sel) s = s.takeException (excGp code)) ∧
      (s.cs.l = false → exec (.callPtr p off32 sel) s = s.takeException (excGp code)) ∧
      (s.readFarPtr p m (s.opSize p) = .ok (off, sel) →
        exec (.jmpFarM p m) s = s.takeException (excGp code) ∧ exec (.callFarM p m) s = s.takeException (excGp code)) ∧
      (s.popAt (s.opSize p) 0 = .ok item0 → s.popAt (s.opSize p) 1 = .ok item1 → item1.setWidth 16 = sel →
        exec (.retFar p) s = s.takeException (excGp code) ∧
        exec (.retFarImm16 p imm) s = s.takeException (excGp code))) ∧
    (codeSegment s sel d →
      (s.readFarPtr p m (s.opSize p) = .ok (off, sel) → legalFarTarget s (d.getLsbD 53) off = none →
        exec (.callFarM p m) s = s.takeException (excGp 0)) ∧
      (s.popAt (s.opSize p) 0 = .ok item0 → s.popAt (s.opSize p) 1 = .ok item1 → item1.setWidth 16 = sel →
        legalFarTarget s (d.getLsbD 53) item0 = none →
        exec (.retFar p) s = s.takeException (excGp 0) ∧ exec (.retFarImm16 p imm) s = s.takeException (excGp 0))) ∧
    (s.cs.l = false → p.asz = true → exec (.jmpPtr p off32 sel) s = s.takeException (excGp 0))

/-- R330 to R334: IRET. The frame holds RIP, CS, RFLAGS and, unless the instruction runs in compatibility mode, RSP and SS. It
stays in its ring or goes from ring 0 to ring 3, which CR4.FRED = 1 forbids. The flags CF, PF, AF, ZF, SF, TF, DF, OF, NT,
RF, AC, ID come from the frame, IF only at CPL 0; NMI is unblocked. R27, R29, R330: IRET with NT set raises #GP(0); an
image with IOPL, VIF or VIP not 0 raises #GP(0) at CPL 0 where the new CS has an RPL below 3, and is ignored otherwise, also where the
new CS of a ring-3 IRET is of ring 0, which raises #GP(sel) (C32). R202 to R208: a NULL CS raises #GP(0), one that fails a condition
#GP(sel); then SS the same, NULL accepted in ring 0 alone; then a RIP that is not canonical raises #GP(0). That no shadow stack takes
part is the model's choice (log entry 20). -/
def Obligations.Iret : Prop :=
  ∀ (p : Pfx) (i0 i1 i2 d flags : Word) (cs : Half) (code : DWord) (s : State), (s.cs.l = true ∧ p.w = true ∨ p.osz = false) →
    (bit s.rflags 14 = true → exec (.iret p) s = s.takeException (excGp 0)) ∧
    (bit s.rflags 14 = false →
      s.popAt (s.opSize p) 0 = .ok i0 → s.popAt (s.opSize p) 1 = .ok i1 → s.popAt (s.opSize p) 2 = .ok i2 → cs = i1.setWidth 16 →
      flags = (s.rflags &&& ~~~(if s.ss.dpl = 0 then (0x254FD5 : Word) else 0x254DD5)) |||
        (i2 &&& (if s.ss.dpl = 0 then (0x254FD5 : Word) else 0x254DD5)) →
      let badImage := s.ss.dpl = 0 ∧ cs.toNat % 4 ≠ 3 ∧ i2 &&& 0x183000 ≠ 0
      (badImage → exec (.iret p) s = s.takeException (excGp 0)) ∧
      (¬badImage → codeRefused s cs d (cs.setWidth 2) code → exec (.iret p) s = s.takeException (excGp code)) ∧
      (¬badImage → 8 ≤ cs.toNat → inTable s cs = true → descriptorAt s cs = .ok d → codeDescriptorOk cs d (cs.setWidth 2) = true →
        (s.ss.dpl = 0 → cs.toNat % 4 = 3 → bit s.cr4 32 = true →
          exec (.iret p) s = s.takeException (excGp ((cs &&& 0xFFFC).setWidth 32))) ∧
        (s.ss.dpl = 3 → cs.toNat % 4 = 0 → exec (.iret p) s = s.takeException (excGp ((cs &&& 0xFFFC).setWidth 32))) ∧
        (∀ t, s.cs.l = false → s.ss.dpl = cs.setWidth 2 → legalFarTarget s (d.getLsbD 53) i0 = some t →
          exec (.iret p) s = .next { s with
            cs := ⟨cs, d.getLsbD 53⟩, rip := t, rflags := flags, nmiBlocked := false, gpr := s.gpr.set .rsp (s.spUp 12) }) ∧
        (∀ (i3 i4 ds : Word) (ss : Half), s.cs.l = true →
          (s.ss.dpl = cs.setWidth 2 ∨ s.ss.dpl = 0 ∧ cs.toNat % 4 = 3 ∧ bit s.cr4 32 = false) →
          s.popAt (s.opSize p) 3 = .ok i3 → s.popAt (s.opSize p) 4 = .ok i4 → ss = i4.setWidth 16 →
          (iretStackRefused s cs ss ds code → exec (.iret p) s = s.takeException (excGp code)) ∧
          (iretStack s cs ss ds →
            (legalFarTarget s (d.getLsbD 53) i0 = none → exec (.iret p) s = s.takeException (excGp 0)) ∧
            (∀ t, legalFarTarget s (d.getLsbD 53) i0 = some t →
              exec (.iret p) s = .next { s with
                cs := ⟨cs, d.getLsbD 53⟩, rip := t, rflags := flags, nmiBlocked := false
                ss := ⟨ss, ds.extractLsb' 45 2, ds.getLsbD 54⟩
                gpr := s.gpr.set .rsp (if d.getLsbD 53 then i3 else i3 &&& 0xFFFFFFFF) })))))

/-! ## Events -/

/-- R433 to R438: a delivery through the IDT whose checks pass, with CR4.CET = 0, reaches the handler: the frame of five items, or
six with an error code, below the aligned stack pointer, the registers of `atHandler`, and nothing else. -/
def Obligations.DeliveryFrame : Prop :=
  ∀ (s : State) (e : Event) (p : Plan) (b : Bool), s.memWf = true → reachesHandler s e p → s.eventExits e b = false →
    handled s e p (s.deliver e b)

/-- R430, R431: the gate is read only where its 16 bytes lie within IDTR.limit; then its type, its DPL for a software interrupt, and
its presence are tested in this order, and the first test that fails raises #GP with the vector's error code. R432: a NULL gate
selector raises #GP(EXT); one beyond its table, of 4 to 7, or whose segment is no 64-bit ring-0 code segment of RPL 0, #GP(sel) with
EXT. R434, R435: a TSS slot beyond TR's limit raises #TS(TR selector) with EXT, and then a stack pointer and after it a handler
address that is not canonical #GP(EXT). Where all pass, the gate is the 16 bytes at IDTR.base + 16 * vector, and the stack pointer, before it is aligned down to 16 bytes (D12), is an IST
entry of the TSS if the gate names one, RSP0 of the TSS from ring 3, RSP in ring 0. That the pushes are not subject to SMAP is log
entry 48 (DESIGN CHOICE). -/
def Obligations.GateChecks : Prop :=
  (∀ (s : State) (e : Event) (bs : List Byte) (lo : Word) (ext code : DWord),
     ext = (if e.ext then 1 else 0) → code = (e.vector.setWidth 32 <<< 3) + 2 + ext →
     (s.idtr.limit.toNat < e.vector.toNat * 16 + 15 → s.plan e = .error (.exc (excGp code))) ∧
     (e.vector.toNat * 16 + 15 ≤ s.idtr.limit.toNat →
       s.supReadBytes (s.idtr.base + BitVec.ofNat 64 (e.vector.toNat * 16)) 16 = .ok bs → lo = leWord (bs.take 8) →
       (¬((lo.extractLsb' 40 4 = 14 ∨ lo.extractLsb' 40 4 = 15) ∧ lo.getLsbD 44 = false) →
         s.plan e = .error (.exc (excGp code))) ∧
       ((lo.extractLsb' 40 4 = 14 ∨ lo.extractLsb' 40 4 = 15) → lo.getLsbD 44 = false →
         (e.kind = .softInt → (lo.extractLsb' 45 2).toNat < s.ss.dpl.toNat →
           s.plan e = .error (.exc (excGp ((e.vector.setWidth 32 <<< 3) + 2)))) ∧
         ((e.kind = .softInt → s.ss.dpl.toNat ≤ (lo.extractLsb' 45 2).toNat) →
           (lo.getLsbD 47 = false → s.plan e = .error (.exc (excGp code))) ∧
           (∀ (sel : Half) (d : Word) (ist off : Nat), lo.getLsbD 47 = true → sel = lo.extractLsb' 16 16 →
             ist = (lo.extractLsb' 32 3).toNat → off = (if ist = 0 then 4 else ist * 8 + 28) →
             (sel.toNat < 4 → s.plan e = .error (.exc (excGp ext))) ∧
             (4 ≤ sel.toNat → (sel.toNat < 8 ∨ inTable s sel = false) →
               s.plan e = .error (.exc (excGp ((sel &&& 0xFFFC).setWidth 32 + ext)))) ∧
             (8 ≤ sel.toNat → inTable s sel = true → descriptorAt s sel = .ok d →
               (codeDescriptorOk sel d 0 = false → s.plan e = .error (.exc (excGp ((sel &&& 0xFFFC).setWidth 32 + ext)))) ∧
               (codeDescriptorOk sel d 0 = true →
                 ((ist ≠ 0 ∨ s.ss.dpl ≠ 0) → s.tr.limit.toNat < off + 7 →
                   s.plan e = .error (.exc (excTs ((s.tr.sel &&& 0xFFFC).setWidth 32 + ext)))) ∧
                 (∀ rsp rip : Word, bit s.cr4 23 = false →
                   (if ist ≠ 0 ∨ s.ss.dpl ≠ 0 then
                      off + 7 ≤ s.tr.limit.toNat ∧ s.supRead (s.tr.base + BitVec.ofNat 64 off) 8 = .ok rsp
                    else rsp = s.reg .rsp) →
                   rip = gateRip lo (leWord (bs.drop 8)) →
                   isCanonical (bit s.cr4 12) rsp = false ∨ isCanonical (bit s.cr4 12) rip = false →
                   s.plan e = .error (.exc (excGp ext)))))))))) ∧
  (∀ (s : State) (e : Event) (p : Plan), s.plan e = .ok p →
     (∃ bs, e.vector.toNat * 16 + 15 ≤ s.idtr.limit.toNat ∧
       s.supReadBytes (s.idtr.base + BitVec.ofNat 64 (e.vector.toNat * 16)) 16 = .ok bs ∧
       p.lo = leWord (bs.take 8) ∧ p.hi = leWord (bs.drop 8)) ∧
     (p.lo.extractLsb' 40 4 = 14 ∨ p.lo.extractLsb' 40 4 = 15) ∧ p.lo.getLsbD 44 = false ∧ p.lo.getLsbD 47 = true ∧
     (e.kind = .softInt → s.ss.dpl.toNat ≤ (p.lo.extractLsb' 45 2).toNat) ∧
     isCanonical (bit s.cr4 12) (gateRip p.lo p.hi) = true ∧
     (∃ d, 8 ≤ (gateSel p.lo).toNat ∧ inTable s (gateSel p.lo) = true ∧ descriptorAt s (gateSel p.lo) = .ok d ∧
       codeDescriptorOk (gateSel p.lo) d 0 = true ∧ d.getLsbD 53 = true) ∧
     (∃ rsp, isCanonical (bit s.cr4 12) rsp = true ∧ p.rsp = rsp &&& ~~~(0xF : Word) ∧
       (if gateIst p.lo ≠ 0 then
          gateIst p.lo * 8 + 28 + 7 ≤ s.tr.limit.toNat ∧
            s.supRead (s.tr.base + BitVec.ofNat 64 (gateIst p.lo * 8 + 28)) 8 = .ok rsp
        else if s.ss.dpl = 0 then rsp = s.reg .rsp
        else 4 + 7 ≤ s.tr.limit.toNat ∧ s.supRead (s.tr.base + 4) 8 = .ok rsp)) ∧
     s.pushPas { implicit := true } true p.rsp 8 (if e.err.isSome then 6 else 5) = .ok p.pas)

/-- R437, R121 with CR4.CET = 1 and the supervisor shadow stack on. From ring 3 the new SSP is IA32_PL0_SSP, or with an IST entry that
of the table at IA32_INTERRUPT_SSP_TABLE_ADDR; after the switch ring 3's SSP goes, made canonical, to IA32_PL3_SSP where ring 3
has a shadow stack, and SSP becomes the new one; then a new SSP that is not 8-byte aligned, or a token there that is not SSP
itself, raises #GP(0), and else the token is marked busy. Within ring 0 (with IST 0 SSP is kept, as the baseline does): 4 bytes of 0,
CS, RIP and the old SSP are pushed on the shadow stack, after the same token check where an IST entry names a new one. How the token is
read, that its busy bit is bit 0, how the saved SSP is made canonical, and the state of a token fault, are log entry 40 (PRESUMED and
DEDUCED); that SMAP does not stop the read of the table is log entry 48 (DESIGN CHOICE). -/
def Obligations.DeliveryShadowStack : Prop :=
  ∀ (s : State) (e : Event) (p : Plan), bit s.cr4 32 = false → bit s.cr4 23 = true → bit s.cet.sCet 0 = true →
    s.plan e = .ok p →
    (s.ss.dpl = 3 →
      (gateIst p.lo = 0 → p.newSsp = s.cet.pl0Ssp) ∧
      (gateIst p.lo ≠ 0 → s.supRead (s.cet.intSspTable + BitVec.ofNat 64 (gateIst p.lo * 8)) 8 = .ok p.newSsp) ∧
      (let u := s.landed e p
       u.ss = ⟨0, 0, false⟩ ∧ u.rip = gateRip p.lo p.hi ∧ u.reg .rsp = s.entryRsp e p ∧ u.cet.ssp = p.newSsp ∧
       (bit s.cet.uCet 0 = true → isCanonical (bit s.cr4 12) u.cet.pl3Ssp = true ∧
         (isCanonical (bit s.cr4 12) s.cet.ssp = true → u.cet.pl3Ssp = s.cet.ssp)) ∧
       (bit s.cet.uCet 0 = false → u.cet.pl3Ssp = s.cet.pl3Ssp) ∧
       (p.newSsp.toNat % 8 ≠ 0 → s.deliverOnce e = .error (.exc (excGp 0), u)) ∧
       (∀ token, p.newSsp.toNat % 8 = 0 → u.tokenRead p.newSsp = .ok token →
         (token ≠ p.newSsp → s.deliverOnce e = .error (.exc (excGp 0), u)) ∧
         (token = p.newSsp → s.memWf = true → ∀ pas,
           u.accessPas { implicit := true, ss := true, write := true } p.newSsp 8 1 = .ok pas →
           ∃ t, s.deliverOnce e = .ok t ∧ pas.map t.byteAt = leBytes 8 (p.newSsp ||| 1) ∧
             (∀ a, a ∉ pas → t.byteAt a = u.byteAt a) ∧ t.cet.ssp = p.newSsp ∧ t.cet.pl3Ssp = u.cet.pl3Ssp)))) ∧
    (s.ss.dpl = 0 → ∀ (w u1 u2 u3 u4 : State) (new top : Word),
      (gateIst p.lo = 0 ∧ new = s.cet.ssp ∧ w = s.switch e p ∨
        gateIst p.lo ≠ 0 ∧
          (s.switch e p).supRead (s.cet.intSspTable + BitVec.ofNat 64 (gateIst p.lo * 8)) 8 = .ok new ∧
          (s.switch e p).takeToken new = .ok w) →
      top = new &&& ~~~(7 : Word) → w.shadowWrite (new - 4) 4 0 = .ok u1 →
      u1.shadowWrite (top - 8) 8 (s.cs.sel.setWidth 64) = .ok u2 → u2.shadowWrite (top - 16) 8 e.rip = .ok u3 →
      u3.shadowWrite (top - 24) 8 s.cet.ssp = .ok u4 →
      ∃ t, s.deliverOnce e = .ok t ∧ t.cet.ssp = top - 24 ∧ t.mem = u4.mem ∧ t.acram = u4.acram)

/-- R340 to R343: INT n, INT3 and INT1 deliver their vector with the address of the next instruction and no error code, the first two
as software interrupts; INTO does so with vector 4 in compatibility mode where OF = 1, and else only goes on. A debug trap that MOV SS
held off stays pending over them (R475; how, log entry 23, PRESUMED). -/
def Obligations.SoftwareInterrupts : Prop :=
  ∀ (s : State) (n : BitVec 8) (p : Plan), s.memWf = true →
    (reachesHandler s ⟨n, .softInt, false, none, s.nextRip⟩ p →
      handled s ⟨n, .softInt, false, none, s.nextRip⟩ p (exec (.intImm8 n) s)) ∧
    (s.nonRoot = false → reachesHandler s ⟨3, .softInt, false, none, s.nextRip⟩ p →
      handled s ⟨3, .softInt, false, none, s.nextRip⟩ p (exec .int3 s)) ∧
    (s.nonRoot = false → s.cs.l = false → bit s.rflags 11 = true →
      reachesHandler s ⟨4, .softInt, false, none, s.nextRip⟩ p →
      handled s ⟨4, .softInt, false, none, s.nextRip⟩ p (exec .into s)) ∧
    (s.cs.l = false → bit s.rflags 11 = false → exec .into s = .next { s with rip := s.nextRip }) ∧
    (s.nonRoot = false → reachesHandler s ⟨1, .int1, true, none, s.nextRip⟩ p →
      handled s ⟨1, .int1, true, none, s.nextRip⟩ p (exec .int1 s))

/-- R421, R425: outside VMX non-root operation an exception that an instruction raises is the delivery, from the state before it but for
CR2, of an event whose saved RIP is that of the instruction and whose EXT is 0, which stands in the error codes of GateChecks; for a
page fault CR2 takes the address. Where the checks pass it reaches the handler. -/
def Obligations.FaultsArePrecise : Prop :=
  ∀ (s : State) (x : Exc) (p : Plan), s.memWf = true → s.nonRoot = false →
    s.takeException x = (s.noteCr2 x).deliver ⟨x.vector, .exception, false, x.err, s.rip⟩ false ∧
    (reachesHandler (s.noteCr2 x) ⟨x.vector, .exception, false, x.err, s.rip⟩ p →
    handled (s.noteCr2 x) ⟨x.vector, .exception, false, x.err, s.rip⟩ p (s.takeException x)) ∧
    s.noteCr2 x = { s with cr2 := x.cr2.getD s.cr2 }

/-- R423, R430: an exception in the delivery of an event is delivered itself, with the error code that the checks gave it (its EXT:
GateChecks);
where both are contributory or page faults, #DF with error code 0 is delivered instead; in the delivery of #DF it ends in the
triple-fault shutdown. CR2 takes the address of a page fault. Each saves the RIP of the instruction. R423, R460, R478: with IDTR.limit
below the entries of #DF and #GP, as after reset, every event ends in that shutdown. All this outside VMX non-root operation. The RIP and
the pairs are log entry 21 (PRESUMED). -/
def Obligations.NestedFaults : Prop :=
  (∀ (s y : State) (e : Event) (b : Bool) (x : Exc) (p : Plan), s.memWf = true → s.nonRoot = false → bit s.cr4 32 = false →
     s.plan e = .error (.exc x) → y = { s with cr2 := x.cr2.getD s.cr2 } →
     let pair := e.kind = .exception ∧ e.vector.toNat ∈ [0, 10, 11, 12, 13, 14] ∧ x.vector.toNat ∈ [0, 10, 11, 12, 13, 14]
     let double := e.kind = .exception ∧ e.vector = 8
     (double → s.deliver e b = .next { y with activity := .shutdown .tripleFault }) ∧
     (pair → reachesHandler y ⟨8, .exception, true, some 0, s.rip⟩ p →
       handled y ⟨8, .exception, true, some 0, s.rip⟩ p (s.deliver e b)) ∧
     (¬double → ¬pair → reachesHandler y ⟨x.vector, .exception, decide (e.kind ≠ .softInt), x.err, s.rip⟩ p →
       handled y ⟨x.vector, .exception, decide (e.kind ≠ .softInt), x.err, s.rip⟩ p (s.deliver e b))) ∧
  (∀ (s : State) (e : Event) (b : Bool), s.idtr.limit.toNat < 143 → s.nonRoot = false → bit s.cr4 32 = false →
     e.vector.toNat * 16 + 15 > s.idtr.limit.toNat →
     s.deliver e b = .next { s with activity := .shutdown .tripleFault })

/-- R427, R428, R422: a pending NMI or maskable interrupt is taken in place of an instruction where nothing blocks it, and stays
pending where something does. R64, R427, R428, R475: the same for an NMI, which NMI blocking, the shadow of MOV SS and the SMX
mask hold off; that the mask, which R68 gives the pin, holds off an NMI of the APIC too is log entry 33 (DESIGN CHOICE). A processor
in HLT takes them too, and else does nothing (log entry 16). A debug trap of the instruction before
comes first (R422): one #DB for all its causes, the single step as bit 14 of DR6 and the breakpoints that were hit, which are log entry
23 (PRESUMED). -/
def Obligations.InterruptsAreTaken : Prop :=
  (∀ (s : State) (v : BitVec 8), s.pending = { Pending.none with intr := some v } → s.activity = .running ∨ s.activity = .halted →
     s.dbPending = false → s.bpHits = 0 →
     (bit s.rflags 9 = true → s.movSsBlocked = false → s.stiBlocked = false → (s.cr8 &&& 0xF).toNat < v.toNat / 16 →
       step s = (s.setPending Pending.none).deliver ⟨v, .external, true, none, s.rip⟩ false) ∧
     (bit s.rflags 9 = false ∨ s.movSsBlocked = true ∨ s.stiBlocked = true ∨ v.toNat / 16 ≤ (s.cr8 &&& 0xF).toNat →
       (s.activity = .running → s.codeHits = 0 → step s = runNext s) ∧ (s.activity = .halted → step s = .next s))) ∧
  (∀ (s : State), s.pending = { Pending.none with nmi := true } → s.activity = .running ∨ s.activity = .halted →
     s.dbPending = false → s.bpHits = 0 →
     (s.nmiBlocked = false → s.movSsBlocked = false → s.smx.maskNmi = false →
       step s = (s.setPending Pending.none).deliver ⟨2, .nmi, true, none, s.rip⟩ false) ∧
     (s.nmiBlocked = true ∨ s.movSsBlocked = true ∨ s.smx.maskNmi = true →
       (s.activity = .running → s.codeHits = 0 → step s = runNext s) ∧ (s.activity = .halted → step s = .next s))) ∧
  (∀ (s : State) (b : Bool) (v : Option (BitVec 8)), s.pending = { Pending.none with nmi := b, intr := v } →
     s.activity = .running → s.movSsBlocked = false → s.dbPending = true ∨ s.bpHits ≠ 0 →
     step s = ((s.setDbPending false).setBpHits 0).takeDb
       (s.bpHits.setWidth 64 ||| (if s.dbPending then 0x4000 else 0)))

/-- R97: a data access at CPL 3 with CR0.AM and RFLAGS.AC raises #AC(0) where it is not aligned to its size, in an instruction's operand
and on its stack; and with AM = 0, AC = 0 or another CPL no access does, nor ever an implicit one. What each operand is aligned to is
log entry 35. -/
def Obligations.AlignmentCheck : Prop :=
  ∀ (s : State) (la v : Word) (n : Nat) (p : Pfx) (m : Mem) (x : Exc),
    let checked := s.ss.dpl = 3 ∧ bit s.cr0 18 = true ∧ bit s.rflags 18 = true
    (checked → isCanonical (bit s.cr4 12) la = true → la.toNat % n ≠ 0 →
      s.memRead la n = .error (.exc ⟨17, some 0, none⟩) ∧ s.memWrite la n v = .error (.exc ⟨17, some 0, none⟩)) ∧
    (checked → (s.cs.l = true ∨ p.asz = false) → isCanonical (bit s.cr4 12) (s.linAddr p m) = true →
      (s.linAddr p m).toNat % 2 ≠ 0 →
      exec (.verr p (.mem m)) s = s.takeException ⟨17, some 0, none⟩ ∧
      exec (.movSregRM p 3 (.mem m)) s = s.takeException ⟨17, some 0, none⟩ ∧
      exec (.movRMSreg p 3 (.mem m)) s = s.takeException ⟨17, some 0, none⟩) ∧
    (checked → s.cs.l = true → isCanonical (bit s.cr4 12) (s.reg .rsp) = true → (s.reg .rsp).toNat % 8 ≠ 0 →
      exec (.ret p) s = s.takeException ⟨17, some 0, none⟩) ∧
    (¬checked → s.memRead la n = .error (.exc x) ∨ s.memWrite la n v = .error (.exc x) → x.vector ≠ 17) ∧
    (s.supReadBytes la n = .error (.exc x) ∨ s.supWrite la n v = .error (.exc x) → x.vector ≠ 17)

/-- R461, R484: HLT at CPL 0 waits (log entry 16), and a processor that waits does nothing until an event is due; at CPL 3 it raises
#GP(0). R413, R422, R51: the pending debug traps are one #DB after the instruction, with their causes in DR6; a breakpoint on the next
instruction is one before it; a machine check is #MC, or a shutdown with CR4.MCE = 0 or with one in progress (log entries 23 and
33, PRESUMED). R122, D5: a byte that has been stored to is not fetched until a taken transfer or a serialising instruction (log
entry 4). That the shutdown of a machine check is the plain one is log entry 33 (PRESUMED). -/
def Obligations.HaltDebugMachineCheck : Prop :=
  (∀ (s b : State) (rest : List Byte), s.due = none → s.activity = .running → s.cs.l = true → s.fetch.1 = 0xF4 :: rest →
     b = { s with nextRip := s.rip + 1, draws := s.draws + 1, movSsBlocked := false, stiBlocked := false
                  dbPending := s.dbPending || bit s.rflags 8 } →
     (s.ss.dpl = 0 → s.rip ≠ 0xFFFFFFFFFFFFFFFF →
       step s = .next { b with rip := s.rip + 1, activity := .halted, rflags := s.rflags &&& ~~~(0x10000 : Word) }) ∧
     (s.ss.dpl ≠ 0 → step s = endInstr b false false (b.goesOn false State.halt) (b.takeException (excGp 0)))) ∧
  (∀ s : State, s.due = none → s.activity ≠ .running → step s = .next s) ∧
  (∀ (s u : State) (p : Plan), s.due = some .trap → s.memWf = true → s.nonRoot = false →
     u = { s with dbPending := false, bpHits := 0
                  dbg := { s.dbg with dr6 := s.dbg.dr6 ||| (s.bpHits.setWidth 64 ||| (if s.dbPending then 0x4000 else 0)) } } →
     reachesHandler u ⟨1, .exception, false, none, s.rip⟩ p → handled u ⟨1, .exception, false, none, s.rip⟩ p (step s)) ∧
  (∀ s : State, s.pending = Pending.none → s.activity = .running → s.dbPending = false → s.bpHits = 0 → bit s.rflags 16 = false →
     s.movSsBlocked = false → s.dbg.dr7 &&& 3 ≠ 0 → s.dbg.dr7.extractLsb' 16 2 = 0 → s.dbg.dr0 = s.rip →
     s.due = some .codeBreak ∧ s.codeHits.getLsbD 0 = true) ∧
  (∀ (s u : State) (p : Plan), s.due = some .codeBreak → s.memWf = true → s.nonRoot = false →
     u = { s with dbg := { s.dbg with dr6 := s.dbg.dr6 ||| s.codeHits.setWidth 64 } } →
     reachesHandler u ⟨1, .exception, false, none, s.rip⟩ p → handled u ⟨1, .exception, false, none, s.rip⟩ p (step s)) ∧
  (∀ (s t u : State) (p : Plan), s.due = some .machineCheck → s.memWf = true → s.nonRoot = false →
     t = { s with pending := { s.pending with machineCheck := false } } →
     u = { t with plat := { s.plat with mcgStatus := s.plat.mcgStatus ||| 4 } } →
     (bit s.cr4 6 = false ∨ bit s.plat.mcgStatus 2 = true → step s = .next { t with activity := .shutdown .plain }) ∧
     (bit s.cr4 6 = true → bit s.plat.mcgStatus 2 = false → reachesHandler u ⟨18, .exception, true, none, s.rip⟩ p →
       handled u ⟨18, .exception, true, none, s.rip⟩ p (step s))) ∧
  (∀ (s : State) (pa : Nat), s.due = none → s.activity = .running → s.cs.l = true →
     s.linear { user := s.ss.dpl == 3, fetch := true } s.rip = .ok pa → pa ∈ s.stored →
     step s = .refused .storedCodeFetched)

/-- R450, R80: INIT outside guest mode leaves the registers of the INIT column of Table 10: the bootstrap processor restarts at the
reset vector, another waits for SIPI with CR3 = 0. Vector registers, MSRs and memory keep their values, and the translations are
flushed (R69). Counters that count are stopped at a free value, the others keep theirs (log entry 13); that NMI blocking and the
interrupt shadows are kept and a pending debug trap is not is the model's choice (log entries 23 and 33). -/
def Obligations.InitState : Prop :=
  ∀ (s : State), s.due = some .init → s.nonRoot = false →
    ∃ t, step s = .next t ∧
      t.rflags = 2 ∧ t.cr0 = 0x80000033 ||| (s.cr0 &&& 0x40000000) ∧ t.cr2 = 0 ∧ t.cr4 = 0x20 ∧ t.efer = s.efer ∧
      t.cs = ⟨0, true⟩ ∧ t.ss = ⟨8, 0, false⟩ ∧ t.ds = 0 ∧ t.es = 0 ∧ t.fs = ⟨0, 0⟩ ∧ t.gs = ⟨0, 0⟩ ∧
      t.gdtr = ⟨0, 0⟩ ∧ t.idtr = ⟨0, 0⟩ ∧ t.ldtr = ⟨0, 0, 0⟩ ∧ t.tr = ⟨0, 0, 0⟩ ∧
      (∀ r, r ≠ .rdx → t.reg r = 0) ∧ t.reg .rdx = s.cfg.resetRdx.setWidth 64 ∧
      t.dbg = ⟨0, 0, 0, 0, 0xFFFF0FF0, 0x400⟩ ∧
      t.fpu = { s.fpu with fcw := 0x37F, fsw := 0, ftw := 0xFFFF } ∧
      t.xcr0 = s.xcr0 ∧ t.sys = s.sys ∧ t.plat = s.plat ∧ t.cet = s.cet ∧
      t.cnt = { s.cnt with perfGlobalCtrl := 0, pmc := t.cnt.pmc, fixedCtr := t.cnt.fixedCtr } ∧
      (∀ k, (bit (s.cnt.perfEvtSel.getD k 0) 22 = false ∨ bit s.cnt.perfGlobalCtrl k = false) → t.cnt.pmc[k]? = s.cnt.pmc[k]?) ∧
      (∀ k, ((s.cnt.fixedCtrCtrl >>> (4 * k)) &&& 3 = 0 ∨ bit s.cnt.perfGlobalCtrl (32 + k) = false) →
        t.cnt.fixedCtr[k]? = s.cnt.fixedCtr[k]?) ∧
      t.tlb = Tlb.empty ∧ t.nmiBlocked = s.nmiBlocked ∧ t.movSsBlocked = s.movSsBlocked ∧ t.stiBlocked = s.stiBlocked ∧
      t.dbPending = false ∧ t.bpHits = 0 ∧
      t.mem = s.mem ∧ t.acram = s.acram ∧ t.pending = { s.pending with init := false } ∧
      (bit s.plat.apicBase 8 = true → t.cr3 = 0xFFFFE000 ∧ t.rip = 0xFFFFFFF0 ∧ t.activity = .running) ∧
      (bit s.plat.apicBase 8 = false → t.cr3 = 0 ∧ t.activity = .waitForSipi)

/-- R451, R452, R453, R109: a SIPI starts a processor that waits for it from the entry structure: CR0, CR3, CR4 and RIP from it, R10 the
vector, NMI blocked. FEATURES other than 1, with ENABLED = 1, is the shutdown that is no triple fault; a value that fails a check,
CR0's fixed and reserved bits, CR4's, CET without WP, PCIDE with bits 11:0 of CR3 (log entry 15, DEDUCED from R273, R109 and R452), CR3's reserved bits, a RIP that is not
canonical, is the unbreakable shutdown; ENABLED = 0 shuts down plainly; elsewhere the SIPI is ignored. R124: a structure under a TDX
private key is not read; that this shuts down as a wrong FEATURES does is the model's choice (log entry 33). -/
def Obligations.SipiStarts : Prop :=
  ∀ (s t : State) (v : BitVec 8) (features cr0 cr3 cr4 rip : Word) (a : Nat), s.due = some (.sipi v) →
    a = (s.plat.sipiPtr.toNat % 2 ^ s.cfg.maxPA) / 4096 * 4096 → t = { s with pending := { s.pending with sipi := none } } →
    (s.activity ≠ .waitForSipi → step s = .next t) ∧
    (s.activity = .waitForSipi → bit s.plat.sipiPtr 0 = false → step s = .next { t with activity := .shutdown .plain }) ∧
    (s.activity = .waitForSipi → bit s.plat.sipiPtr 0 = true →
      (tdxPrivate s.cfg a = true → step s = .next { t with activity := .shutdown .nonTripleFault }) ∧
      (tdxPrivate s.cfg a = false → s.physRead8 a = .ok features →
        (features ≠ 1 → step s = .next { t with activity := .shutdown .nonTripleFault }) ∧
        (features = 1 → s.physRead8 (a + 8) = .ok rip → s.physRead8 (a + 16) = .ok cr3 → s.physRead8 (a + 24) = .ok cr0 →
          s.physRead8 (a + 32) = .ok cr4 →
          let legal := cr0 &&& ~~~(0x40050008 : Word) ||| 0x10 = 0x80000033 ∧ cr4 &&& 0x22 = 0x20 ∧ s.cr4Reserved cr4 = false ∧
            (bit cr4 23 = true → bit cr0 16 = true) ∧ (bit cr4 17 = true → cr3 &&& 0xFFF = 0) ∧ cr3.toNat < 2 ^ s.cfg.maxPA ∧
            isCanonical (bit cr4 12) rip = true
          (legal → step s = .next { t with
            activity := .running, nmiBlocked := true, cr0 := cr0 ||| 0x10, cr3 := cr3, cr4 := cr4, rip := rip, nextRip := rip
            gpr := s.gpr.set .r10 (v.setWidth 64) }) ∧
          (¬legal → step s = .next { t with activity := .shutdown .unbreakable }))))

/-! ## System calls, FRED returns, RSM -/

/-- R344, R345: SYSCALL and SYSENTER enter ring 0 in 64-bit mode at the addresses the MSRs hold; SYSCALL saves the next address in
RCX and RFLAGS in R11. RFLAGS keeps bit 1 whatever IA32_FMASK holds (R26; log entry 38). SYSENTER with no selector raises #GP(0).
That SYSCALL in compatibility mode takes IA32_CSTAR is log entry 38 (DEDUCED); that none of the four touches a shadow stack or the
end-branch tracker, also with CR4.CET = 1, is the model's choice (log entry 20). R346, R347: SYSRET and SYSEXIT enter ring 3, in
64-bit mode with REX.W and else in compatibility mode; SYSRET loads RFLAGS from R11, in which IOPL, VIF or VIP not 0 raises
#GP(0). R346, R347, R411: both raise #GP(0) at another CPL than 0 and, with REX.W, for a target that is not canonical (of SYSEXIT RCX
too), SYSEXIT with no selector, and SYSRET #UD with CR4.FRED = 1. -/
def Obligations.SystemCallsAndReturns : Prop :=
  (∀ (s : State) (k c : Half), bit s.cr4 32 = false → k = s.sys.star.extractLsb' 32 16 → c = s.sys.sysenterCs.setWidth 16 →
     exec .syscall s = .next { s with
       gpr := (s.gpr.set .rcx s.nextRip).set .r11 s.rflags
       rip := if s.cs.l then s.sys.lstar else s.sys.cstar
       rflags := ((s.rflags &&& ~~~s.sys.fmask) &&& ~~~(0x10000 : Word)) ||| 2
       cs := ⟨k &&& 0xFFFC, true⟩, ss := ⟨k + 8, 0, true⟩ } ∧
     (c &&& 0xFFFC ≠ 0 → exec .sysenter s = .next { s with
       gpr := s.gpr.set .rsp s.sys.sysenterEsp
       rip := s.sys.sysenterEip
       rflags := s.rflags &&& ~~~(0x10200 : Word)
       cs := ⟨c &&& 0xFFFC, true⟩, ss := ⟨(c &&& 0xFFFC) + 8, 0, true⟩ }) ∧
     (c &&& 0xFFFC = 0 → exec .sysenter s = s.takeException (excGp 0))) ∧
  (∀ (p : Pfx) (s : State), s.ss.dpl ≠ 0 →
     exec (.sysret p) s = s.takeException (excGp 0) ∧ exec (.sysexit p) s = s.takeException (excGp 0)) ∧
  (∀ (p : Pfx) (s : State) (u c : Half), s.ss.dpl = 0 → u = s.sys.star.extractLsb' 48 16 → c = s.sys.sysenterCs.setWidth 16 →
     (bit s.cr4 32 = true → exec (.sysret p) s = s.takeException excUd) ∧
     (c &&& 0xFFFC = 0 → exec (.sysexit p) s = s.takeException (excGp 0)) ∧
     (p.w = true → isCanonical (bit s.cr4 12) (s.reg .rcx) = false ∨ isCanonical (bit s.cr4 12) (s.reg .rdx) = false →
       exec (.sysexit p) s = s.takeException (excGp 0)) ∧
     (bit s.cr4 32 = false → s.reg .r11 &&& 0x183000 = 0 →
       (p.w = true → isCanonical (bit s.cr4 12) (s.reg .rcx) = false → exec (.sysret p) s = s.takeException (excGp 0)) ∧
       (p.w = true → isCanonical (bit s.cr4 12) (s.reg .rcx) = true → exec (.sysret p) s = .next { s with
         rip := s.reg .rcx, rflags := (s.reg .r11 &&& 0x3C7FD7) ||| 2
         cs := ⟨(u + 16) ||| 3, true⟩, ss := ⟨(u + 8) ||| 3, 3, true⟩ }) ∧
       (p.w = false → exec (.sysret p) s = .next { s with
         rip := s.reg .rcx &&& 0xFFFFFFFF, rflags := (s.reg .r11 &&& 0x3C7FD7) ||| 2
         cs := ⟨u ||| 3, false⟩, ss := ⟨(u + 8) ||| 3, 3, true⟩ })) ∧
     (bit s.cr4 32 = false → s.reg .r11 &&& 0x183000 ≠ 0 → exec (.sysret p) s = s.takeException (excGp 0)) ∧
     (c &&& 0xFFFC ≠ 0 →
       (p.w = true → isCanonical (bit s.cr4 12) (s.reg .rcx) = true → isCanonical (bit s.cr4 12) (s.reg .rdx) = true →
         exec (.sysexit p) s = .next { s with
           rip := s.reg .rdx, gpr := s.gpr.set .rsp (s.reg .rcx)
           cs := ⟨(c + 32) ||| 3, true⟩, ss := ⟨(c + 40) ||| 3, 3, true⟩ }) ∧
       (p.w = false → exec (.sysexit p) s = .next { s with
         rip := s.reg .rdx &&& 0xFFFFFFFF, gpr := s.gpr.set .rsp (s.reg .rcx &&& 0xFFFFFFFF)
         cs := ⟨(c + 16) ||| 3, false⟩, ss := ⟨(c + 24) ||| 3, 3, true⟩ })))

/-- R350, R351, R27 and the frame of log entry 19: ERETU returns to ring 3 with the segments IA32_STAR gives, exchanging the GS
base, and raises #GP(0) where SS, or with that SS where CS, is another; ERETS returns within ring 0, writes neither CS nor SS and does not
look at their selectors in the frame (log entry 19, DESIGN CHOICE).
Both raise #GP(0) on an image with IOPL, VM, VIF or VIP not 0. R350, R411: both raise #UD with CR4.FRED = 0 and in compatibility mode,
and else #GP(0) at another CPL than 0; then ERETU at a stack level other than 0, ERETS to a higher one, and both to a RIP that is not
canonical raise #GP(0) (#UD in compatibility mode, the stack levels and the RIP are log entry 19, PRESUMED; that ERETU loads all of RSP and sets no shadow of
STI is DESIGN CHOICE there). -/
def Obligations.FredReturns : Prop :=
  ∀ s : State,
    (s.cs.l = false ∨ bit s.cr4 32 = false → exec .eretu s = s.takeException excUd ∧ exec .erets s = s.takeException excUd) ∧
    (s.cs.l = true → bit s.cr4 32 = true → s.ss.dpl ≠ 0 →
      exec .eretu s = s.takeException (excGp 0) ∧ exec .erets s = s.takeException (excGp 0)) ∧
    (s.cs.l = true → bit s.cr4 32 = true → s.ss.dpl = 0 → s.plat.fredConfig &&& 3 ≠ 0 → exec .eretu s = s.takeException (excGp 0)) ∧
    (∀ (f : FredFrame) (u : Half), s.ss.dpl = 0 → s.cs.l = true → bit s.cr4 32 = true → s.fredFrame = .ok f →
      u = s.sys.star.extractLsb' 48 16 →
      (f.flags &&& ~~~(0x254FD7 : Word) = 0 →
        (s.plat.fredConfig &&& 3 = 0 → f.ss.setWidth 16 = (u + 8) ||| 3 → f.cs.setWidth 16 = (u + 16) ||| 3 →
          (isCanonical (bit s.cr4 12) f.rip = true →
            exec .eretu s = .next { s with
              rip := f.rip, rflags := f.flags ||| 2, gpr := s.gpr.set .rsp f.rsp
              cs := ⟨(u + 16) ||| 3, true⟩, ss := ⟨(u + 8) ||| 3, 3, true⟩
              gs := ⟨s.gs.sel, s.sys.kernelGsBase⟩, sys := { s.sys with kernelGsBase := s.gs.base }
              nmiBlocked := s.nmiBlocked && !bit f.ss 18 }) ∧
          (isCanonical (bit s.cr4 12) f.rip = false → exec .eretu s = s.takeException (excGp 0))) ∧
        (s.plat.fredConfig &&& 3 = 0 → f.ss.setWidth 16 = (u + 8) ||| 3 → f.cs.setWidth 16 = u ||| 3 → u ||| 3 ≠ (u + 16) ||| 3 →
          exec .eretu s = .next { s with
            rip := f.rip &&& 0xFFFFFFFF, rflags := f.flags ||| 2, gpr := s.gpr.set .rsp f.rsp
            cs := ⟨u ||| 3, false⟩, ss := ⟨(u + 8) ||| 3, 3, true⟩
            gs := ⟨s.gs.sel, s.sys.kernelGsBase⟩, sys := { s.sys with kernelGsBase := s.gs.base }
            nmiBlocked := s.nmiBlocked && !bit f.ss 18 }) ∧
        (s.plat.fredConfig &&& 3 = 0 →
          (f.ss.setWidth 16 ≠ (u + 8) ||| 3 ∨ f.cs.setWidth 16 ≠ (u + 16) ||| 3 ∧ f.cs.setWidth 16 ≠ u ||| 3) →
          exec .eretu s = s.takeException (excGp 0)) ∧
        ((f.cs >>> 16 &&& 3).toNat ≤ (s.plat.fredConfig &&& 3).toNat → isCanonical (bit s.cr4 12) f.rip = true →
          exec .erets s = .next { s with
            rip := f.rip, rflags := f.flags ||| 2, gpr := s.gpr.set .rsp f.rsp
            plat := { s.plat with fredConfig := (s.plat.fredConfig &&& ~~~(3 : Word)) ||| (f.cs >>> 16 &&& 3) }
            stiBlocked := bit f.ss 16, nmiBlocked := s.nmiBlocked && !bit f.ss 18 })) ∧
      ((s.plat.fredConfig &&& 3).toNat < (f.cs >>> 16 &&& 3).toNat ∨ isCanonical (bit s.cr4 12) f.rip = false →
        exec .erets s = s.takeException (excGp 0)) ∧
      (f.flags &&& 0x1A3000 ≠ 0 →
        exec .eretu s = s.takeException (excGp 0) ∧ exec .erets s = s.takeException (excGp 0)))

/-- R353, R27, R410: RSM in SMM restores the saved registers and leaves SMM: RFLAGS with IOPL, VM, VIF and VIP forced to 0, CR0 with
every bit but TS, WP, AM and CD forced, CR4 with PAE and PVI forced and every other bit as saved, CS, SS and RIP in a legal mode: in 64-bit mode of either ring the saved RIP,
in compatibility mode its low 32 bits. Nothing else changes. Outside SMM it raises #UD. The named slots of the save area and the legal
mode that CPL and CS are forced to (a saved CPL other than 3 becomes 0, ring 0 becomes 64-bit mode) are the model's choice (log entry
28), and so is that a RIP and bases that are not canonical and reserved bits of CR3 and CR4 are restored as they are; that the fixed bits of CR0
and CR4 are forced is the spec's own decision D38; the flush of the translations is log entry 3. -/
def Obligations.ResumeFromSmm : Prop :=
  ∀ (s t : State) (m : SmmSave) (long : Bool) (rip : Word), m = s.smmSave → long = (m.cs.l || m.ss.dpl != 3) →
    rip = (if long then m.rip else m.rip &&& 0xFFFFFFFF) →
    t = { s with
      gpr := m.gpr, rip := rip, nextRip := rip, rflags := (m.rflags &&& 0x254FD7) ||| 2
      cr0 := 0x80000033 ||| (m.cr0 &&& 0x40050008), cr3 := m.cr3, cr4 := (m.cr4 ||| 0x20) &&& ~~~(2 : Word)
      cs := ⟨m.cs.sel, long⟩, ss := ⟨m.ss.sel, if m.ss.dpl = 3 then 3 else 0, m.ss.b⟩
      ds := m.ds, es := m.es, fs := m.fs, gs := m.gs, gdtr := m.gdtr, idtr := m.idtr, ldtr := m.ldtr, tr := m.tr
      inSmm := false, tlb := Tlb.empty, stored := [] } →
    (s.inSmm = false → exec .rsm s = s.takeException excUd) ∧
    (s.inSmm = true → exec .rsm s = .next t ∧ t.legalMode = true)

/-! ## Segment registers -/

/-- R214, R206, R207, R212, R213, R65: MOV to a segment register from a register or memory. Any other register number than ES, SS,
DS, FS, GS raises #UD. A load of SS sets the blocking of R65. Nothing else changes. R202, R206, R207, R211, R214, R414: a selector
beyond its table, or whose segment fails a condition, raises #GP with the selector, never #NP or #SS; a NULL selector for SS in
ring 3 raises #GP(0). That SS loads a NULL selector in ring 0 and 64-bit mode is the spec's own resolution C35 (log entry 36,
DEDUCED). -/
def Obligations.MovToSegment : Prop :=
  (∀ (p : Pfx) (sr : BitVec 3) (rm : RM) (sel : Half) (d : Word) (s : State),
     (sr.toNat ∈ [0, 2, 3, 4, 5] → s.readRM16 p rm = .ok sel → acceptable s sr.toNat sel d →
       exec (.movSregRM p sr rm) s = .next { loadedSreg s sr.toNat sel d with
         rip := s.nextRip, movSsBlocked := s.movSsBlocked || sr == 2 }) ∧
     (sr.toNat ∉ [0, 2, 3, 4, 5] → exec (.movSregRM p sr rm) s = s.takeException excUd)) ∧
  (∀ (p : Pfx) (sr : BitVec 3) (rm : RM) (sel : Half) (d : Word) (s : State),
     sr.toNat ∈ [0, 2, 3, 4, 5] → s.readRM16 p rm = .ok sel →
     (4 ≤ sel.toNat → inTable s sel = false ∨ sel.toNat < 8 →
       exec (.movSregRM p sr rm) s = s.takeException (excGp ((sel &&& 0xFFFC).setWidth 32))) ∧
     (8 ≤ sel.toNat → inTable s sel = true → descriptorAt s sel = .ok d → ¬acceptable s sr.toNat sel d →
       exec (.movSregRM p sr rm) s = s.takeException (excGp ((sel &&& 0xFFFC).setWidth 32))) ∧
     (sr = 2 → sel.toNat < 4 → s.ss.dpl = 3 → exec (.movSregRM p sr rm) s = s.takeException (excGp 0)))

/-- R215: POP of a segment register takes the low 16 bits of a slot of the stack operand size and releases the slot. POP ES, SS and DS
exist in compatibility mode; POP SS sets the blocking of R65. R202, R206, R207: a selector that MOV would refuse raises #GP with it, and
nothing is released. R219, R104: PUSH of a segment register stores its selector in a slot of the
stack operand size. In a slot of 2 or 8 bytes it is zero-extended; of a 4-byte slot the upper two bytes are a free value (U6, log
entry 10), whose use the draw counter counts. PUSH ES, CS, SS and DS exist in compatibility mode. -/
def Obligations.PushPopSegment : Prop :=
  (∀ (p : Pfx) (item d : Word) (sel : Half) (code : DWord) (s : State), s.popAt (s.stackSize p) 0 = .ok item → sel = item.setWidth 16 →
     (dataSegment s sel d →
       exec (.popFs p) s = .next { s with
         rip := s.nextRip, gpr := s.gpr.set .rsp (s.spUp (stackBytes s p)), fs := ⟨sel, base32 d⟩ } ∧
       exec (.popGs p) s = .next { s with
         rip := s.nextRip, gpr := s.gpr.set .rsp (s.spUp (stackBytes s p)), gs := ⟨sel, base32 d⟩ } ∧
       (s.cs.l = false →
         exec (.popEs p) s = .next { s with
           rip := s.nextRip, gpr := s.gpr.set .rsp (s.spUp (stackBytes s p)), es := sel } ∧
         exec (.popDs p) s = .next { s with
           rip := s.nextRip, gpr := s.gpr.set .rsp (s.spUp (stackBytes s p)), ds := sel })) ∧
     (dataRefused s sel d code →
       exec (.popFs p) s = s.takeException (excGp code) ∧ exec (.popGs p) s = s.takeException (excGp code) ∧
       (s.cs.l = false →
         exec (.popEs p) s = s.takeException (excGp code) ∧ exec (.popDs p) s = s.takeException (excGp code))) ∧
     (stackRefused s sel d code → s.cs.l = false → exec (.popSs p) s = s.takeException (excGp code)) ∧
     (stackSegment s sel d → s.cs.l = false →
       exec (.popSs p) s = .next { s with
         rip := s.nextRip, gpr := s.gpr.set .rsp (s.spUp (stackBytes s p)), movSsBlocked := true
         ss := ⟨sel, d.extractLsb' 45 2, d.getLsbD 54⟩ })) ∧
  (∀ (p : Pfx) (s u : State) (pas : List Nat) (n : Nat) (item : Half → Word), s.memWf = true → n = stackBytes s p →
     s.pushPas s.dataAccess s.cs.l s.sp n 1 = .ok pas →
     u = { s with rip := s.nextRip, gpr := s.gpr.set .rsp (stackDown s.cs.l s.sp n),
                  draws := if n = 4 then s.draws + 1 else s.draws } →
     item = (fun sel => if n = 4 then sel.setWidth 64 ||| (Config.freeWord s.draws &&& 0xFFFF0000) else sel.setWidth 64) →
     storesTo (.pushFs p) s u pas (leBytes n (item s.fs.sel)) ∧ storesTo (.pushGs p) s u pas (leBytes n (item s.gs.sel)) ∧
     (s.cs.l = false →
       storesTo (.pushEs p) s u pas (leBytes n (item s.es)) ∧ storesTo (.pushCs p) s u pas (leBytes n (item s.cs.sel)) ∧
       storesTo (.pushSs p) s u pas (leBytes n (item s.ss.sel)) ∧ storesTo (.pushDs p) s u pas (leBytes n (item s.ds))))

/-- R216: LDS, LES, LSS, LFS and LGS load a segment register and a general register from a far pointer in memory; the first two
exist in compatibility mode. LSS sets no blocking; that it loads a NULL selector in ring 0 and 64-bit mode is the spec's own resolution
C35 (log entry 36, DEDUCED). R202, R206, R207: a selector that MOV would refuse raises #GP with it, and neither register is written. -/
def Obligations.LoadFarPointers : Prop :=
  ∀ (p : Pfx) (r : Reg) (m : Mem) (off d : Word) (sel : Half) (code : DWord) (g : Gprs) (s : State),
    s.readFarPtr p m (s.opSize p) = .ok (off, sel) → g = s.gpr.set r (regWritten (s.reg r) (dataBytes s p) off) →
    (dataSegment s sel d →
      exec (.lfs p r m) s = .next { s with rip := s.nextRip, gpr := g, fs := ⟨sel, base32 d⟩ } ∧
      exec (.lgs p r m) s = .next { s with rip := s.nextRip, gpr := g, gs := ⟨sel, base32 d⟩ } ∧
      (s.cs.l = false →
        exec (.lds p r m) s = .next { s with rip := s.nextRip, gpr := g, ds := sel } ∧
        exec (.les p r m) s = .next { s with rip := s.nextRip, gpr := g, es := sel })) ∧
    (dataRefused s sel d code →
      exec (.lfs p r m) s = s.takeException (excGp code) ∧ exec (.lgs p r m) s = s.takeException (excGp code) ∧
      (s.cs.l = false →
        exec (.lds p r m) s = s.takeException (excGp code) ∧ exec (.les p r m) s = s.takeException (excGp code))) ∧
    (stackRefused s sel d code → exec (.lss p r m) s = s.takeException (excGp code)) ∧
    (stackSegment s sel d →
      exec (.lss p r m) s = .next { s with
        rip := s.nextRip, gpr := g, ss := ⟨sel, d.extractLsb' 45 2, d.getLsbD 54⟩ })

/-- R217: LKGS in ring 0 and 64-bit mode writes the selector to GS and the descriptor's base to IA32_KERNEL_GS_BASE, keeping
the base of GS; elsewhere it raises #UD, and for a selector that MOV to GS would refuse #GP with it. R245 to R247: SWAPGS in ring 0 exchanges the GS base with IA32_KERNEL_GS_BASE;
the four FS and GS base instructions move a base and a register, 32 bits of it without REX.W; a base that is not canonical
raises #GP(0). SWAPGS raises #UD in compatibility mode and with CR4.FRED = 1, else #GP(0) at another CPL than 0; the four raise #UD in
compatibility mode and with CR4.FSGSBASE = 0. That they take 32 bits with 0x66 too is log entry 16 (PRESUMED). -/
def Obligations.SegmentBases : Prop :=
  (∀ (p : Pfx) (rm : RM) (sel : Half) (d : Word) (code : DWord) (s : State),
     (s.cs.l = true → s.ss.dpl = 0 → s.readRM16 p rm = .ok sel → dataSegment s sel d →
       exec (.lkgs p rm) s = .next { s with
         rip := s.nextRip, gs := ⟨sel, s.gs.base⟩, sys := { s.sys with kernelGsBase := base32 d } }) ∧
     (s.cs.l = true → s.ss.dpl = 0 → s.readRM16 p rm = .ok sel → dataRefused s sel d code →
       exec (.lkgs p rm) s = s.takeException (excGp code)) ∧
     (s.cs.l = false ∨ s.ss.dpl ≠ 0 → exec (.lkgs p rm) s = s.takeException excUd)) ∧
  (∀ (p : Pfx) (r : Reg) (s : State),
     (s.cs.l = false ∨ bit s.cr4 32 = true → exec .swapgs s = s.takeException excUd) ∧
     (s.cs.l = true → bit s.cr4 32 = false → s.ss.dpl ≠ 0 → exec .swapgs s = s.takeException (excGp 0)) ∧
     (s.cs.l = false ∨ bit s.cr4 16 = false →
       ∀ i ∈ [Instr.rdfsbase p r, .rdgsbase p r, .wrfsbase p r, .wrgsbase p r], exec i s = s.takeException excUd)) ∧
  (∀ (p : Pfx) (r : Reg) (s : State) (v : Word), s.cs.l = true → v = regWritten 0 (if p.w then 8 else 4) (s.reg r) →
     (bit s.cr4 32 = false → s.ss.dpl = 0 → exec .swapgs s = .next { s with
       rip := s.nextRip, gs := ⟨s.gs.sel, s.sys.kernelGsBase⟩, sys := { s.sys with kernelGsBase := s.gs.base } }) ∧
     (bit s.cr4 16 = true →
       exec (.rdfsbase p r) s = .next { s with
         rip := s.nextRip, gpr := s.gpr.set r (regWritten 0 (if p.w then 8 else 4) s.fs.base) } ∧
       exec (.rdgsbase p r) s = .next { s with
         rip := s.nextRip, gpr := s.gpr.set r (regWritten 0 (if p.w then 8 else 4) s.gs.base) } ∧
       (isCanonical (bit s.cr4 12) v = true →
         exec (.wrfsbase p r) s = .next { s with rip := s.nextRip, fs := ⟨s.fs.sel, v⟩ } ∧
         exec (.wrgsbase p r) s = .next { s with rip := s.nextRip, gs := ⟨s.gs.sel, v⟩ }) ∧
       (isCanonical (bit s.cr4 12) v = false →
         exec (.wrfsbase p r) s = s.takeException (excGp 0) ∧ exec (.wrgsbase p r) s = s.takeException (excGp 0))))

/-- R218: MOV from a segment register writes its selector, zero-extended to the operand size in a register and as 2 bytes in memory;
a number that names no segment register raises #UD. -/
def Obligations.MovFromSegment : Prop :=
  ∀ (p : Pfx) (sr : BitVec 3) (r : Reg) (m : Mem) (rm : RM) (s : State) (pas : List Nat),
    (sr.toNat ≤ 5 →
      exec (.movRMSreg p sr (.reg r)) s = .next { s with
        rip := s.nextRip
        gpr := s.gpr.set r (regWritten (s.reg r) (dataBytes s p) ((selectorNum s sr.toNat).setWidth 64)) } ∧
      (s.memWf = true → (s.cs.l = true ∨ p.asz = false) →
        s.accessPas { s.dataAccess with write := true } (s.linAddr p m) 2 2 = .ok pas →
        storesTo (.movRMSreg p sr (.mem m)) s { s with rip := s.nextRip } pas (leBytes 2 ((selectorNum s sr.toNat).setWidth 64)))) ∧
    (6 ≤ sr.toNat → exec (.movRMSreg p sr rm) s = s.takeException excUd)

/-! ## Table registers and bases -/

/-- R222, R223, R225, R227: SGDT and SIDT store the limit and the base, 10 bytes in 64-bit mode and 6 in compatibility mode; SLDT and
STR store a selector as MOV from a segment register does. In ring 3 CR4.UMIP = 1 makes all four raise #GP(0). That SGDT and
SIDT align their operand to 2 bytes is log entry 35 (PRESUMED). -/
def Obligations.StoreTables : Prop :=
  ∀ (p : Pfx) (m : Mem) (r : Reg) (rm : RM) (s : State),
    (s.ss.dpl ≠ 3 ∨ bit s.cr4 11 = false →
      exec (.sldt p (.reg r)) s = .next { s with
        rip := s.nextRip, gpr := s.gpr.set r (regWritten (s.reg r) (dataBytes s p) (s.ldtr.sel.setWidth 64)) } ∧
      exec (.str p (.reg r)) s = .next { s with
        rip := s.nextRip, gpr := s.gpr.set r (regWritten (s.reg r) (dataBytes s p) (s.tr.sel.setWidth 64)) } ∧
      (s.memWf = true → (s.cs.l = true ∨ p.asz = false) → ∀ pas,
        (s.accessPas { s.dataAccess with write := true } (s.linAddr p m) (if s.cs.l then 10 else 6) 2 = .ok pas →
          storesTo (.sgdt p m) s { s with rip := s.nextRip } pas
            (leBytes 2 (s.gdtr.limit.setWidth 64) ++ leBytes (if s.cs.l then 8 else 4) s.gdtr.base) ∧
          storesTo (.sidt p m) s { s with rip := s.nextRip } pas
            (leBytes 2 (s.idtr.limit.setWidth 64) ++ leBytes (if s.cs.l then 8 else 4) s.idtr.base)) ∧
        (s.accessPas { s.dataAccess with write := true } (s.linAddr p m) 2 2 = .ok pas →
          storesTo (.sldt p (.mem m)) s { s with rip := s.nextRip } pas (leBytes 2 (s.ldtr.sel.setWidth 64)) ∧
          storesTo (.str p (.mem m)) s { s with rip := s.nextRip } pas (leBytes 2 (s.tr.sel.setWidth 64))))) ∧
    (s.ss.dpl = 3 → bit s.cr4 11 = true →
      ∀ i ∈ [Instr.sgdt p m, .sidt p m, .sldt p rm, .str p rm], exec i s = s.takeException (excGp 0))

/-- R220, R221: LGDT and LIDT in ring 0, which is 64-bit mode (R410), load the 16-bit limit and the 8-byte base from memory; a base that
is not canonical raises #GP(0), and so does any CPL but 0, in both modes, so that the 6-byte form always faults. -/
def Obligations.LoadTables : Prop :=
  ∀ (p : Pfx) (m : Mem) (limit base : Word) (s : State),
    (s.ss.dpl = 0 → s.cs.l = true → s.memRead (s.linAddr p m) 2 = .ok limit → s.memRead (s.linAddr p m + 2) 8 = .ok base →
      (isCanonical (bit s.cr4 12) base = true →
        exec (.lgdt p m) s = .next { s with rip := s.nextRip, gdtr := ⟨base, limit.setWidth 32⟩ } ∧
        exec (.lidt p m) s = .next { s with rip := s.nextRip, idtr := ⟨base, limit.setWidth 32⟩ }) ∧
      (isCanonical (bit s.cr4 12) base = false →
        exec (.lgdt p m) s = s.takeException (excGp 0) ∧ exec (.lidt p m) s = s.takeException (excGp 0))) ∧
    (s.ss.dpl ≠ 0 → exec (.lgdt p m) s = s.takeException (excGp 0) ∧ exec (.lidt p m) s = s.takeException (excGp 0))

/-- R224, R226, R103, R50: LLDT and LTR load selector, base and limit of a 16-byte descriptor of the GDT, of type 2, or 9 or 11, which
is not written; a NULL selector clears LDTR's base and limit and raises #GP(0) for TR. A selector of an LDT or beyond the GDT, and a
descriptor that is of another type, not present or of a base that is not canonical, raise #GP(sel). At another CPL than 0 both raise #GP(0). That one whose bits 12:8 of the last
doubleword are not 0 does so too is PRESUMED (log entry 44). -/
def Obligations.LoadSystemSegments : Prop :=
  ∀ (p : Pfx) (rm : RM) (sel : Half) (lo hi base : Word) (limit : DWord) (s : State),
    (s.ss.dpl ≠ 0 → exec (.lldt p rm) s = s.takeException (excGp 0) ∧ exec (.ltr p rm) s = s.takeException (excGp 0)) ∧
    (s.ss.dpl = 0 → s.readRM16 p rm = .ok sel →
      (sel.toNat < 4 → exec (.lldt p rm) s = .next { s with rip := s.nextRip, ldtr := ⟨sel, 0, 0⟩ } ∧
        exec (.ltr p rm) s = s.takeException (excGp 0)) ∧
      (4 ≤ sel.toNat → sel.getLsbD 2 = true ∨ s.gdtr.limit.toNat < sel.toNat / 8 * 8 + 15 →
        exec (.lldt p rm) s = s.takeException (excGp ((sel &&& 0xFFFC).setWidth 32)) ∧
        exec (.ltr p rm) s = s.takeException (excGp ((sel &&& 0xFFFC).setWidth 32))) ∧
      (8 ≤ sel.toNat → sel.getLsbD 2 = false → sel.toNat / 8 * 8 + 15 ≤ s.gdtr.limit.toNat →
        s.loadSysDescriptor sel = .ok (lo, hi) →
        base = hi.extractLsb' 0 32 ++ (lo.extractLsb' 56 8 ++ lo.extractLsb' 16 24) →
        limit = (let l := (lo.extractLsb' 48 4 ++ lo.extractLsb' 0 16).setWidth 32
                 if lo.getLsbD 55 then l * 4096 + 4095 else l) →
        let ok := lo.getLsbD 44 = false ∧ lo.getLsbD 47 = true ∧ hi.extractLsb' 40 5 = 0 ∧ isCanonical (bit s.cr4 12) base = true
        (ok → lo.extractLsb' 40 4 = 2 →
          exec (.lldt p rm) s = .next { s with rip := s.nextRip, ldtr := ⟨sel, base, limit⟩ }) ∧
        (ok → lo.extractLsb' 40 4 = 9 ∨ lo.extractLsb' 40 4 = 11 →
          exec (.ltr p rm) s = .next { s with rip := s.nextRip, tr := ⟨sel, base, limit⟩ }) ∧
        (¬ok ∨ lo.extractLsb' 40 4 ≠ 2 →
          exec (.lldt p rm) s = s.takeException (excGp ((sel &&& 0xFFFC).setWidth 32))) ∧
        (¬ok ∨ lo.extractLsb' 40 4 ≠ 9 ∧ lo.extractLsb' 40 4 ≠ 11 →
          exec (.ltr p rm) s = s.takeException (excGp ((sel &&& 0xFFFC).setWidth 32)))))

/-! ## Queries -/

/-- R239 to R243: LSL, LAR, VERR and VERW of a segment that a data load would accept set ZF, and LSL and LAR write its limit, in
bytes, and its access rights, with the accessed bit shown as 1; of any other selector they clear ZF and write nothing else. That a
NULL selector clears ZF too is the spec's own decision D37 of R239. R244: ARPL, which compatibility mode alone has, raises the RPL
of its destination to that of its source and sets ZF, or clears ZF and writes nothing else. That bits 19:16 of LAR's result are 0 is log
entry 47 (DESIGN CHOICE). -/
def Obligations.SelectorQueries : Prop :=
  (∀ (p : Pfx) (r : Reg) (rm : RM) (sel : Half) (d limit : Word) (s : State), s.readRM16 p rm = .ok sel →
     limit = (let l := (d.extractLsb' 48 4 ++ d.extractLsb' 0 16).setWidth 32
              (if d.getLsbD 55 then l * 4096 + 4095 else l : BitVec 32).setWidth 64) →
     (4 ≤ sel.toNat → dataSegment s sel d →
       let f := s.rflags ||| 0x40
       exec (.lsl p r rm) s = .next { s with
         rip := s.nextRip, rflags := f, gpr := s.gpr.set r (regWritten (s.reg r) (dataBytes s p) limit) } ∧
       exec (.lar p r rm) s = .next { s with
         rip := s.nextRip, rflags := f
         gpr := s.gpr.set r (regWritten (s.reg r) (dataBytes s p) (((d >>> 32) &&& 0xF0FF00) ||| 0x100)) } ∧
       exec (.verr p rm) s = .next { s with rip := s.nextRip, rflags := f } ∧
       exec (.verw p rm) s = .next { s with rip := s.nextRip, rflags := f }) ∧
     (sel.toNat < 8 ∨ inTable s sel = false ∨ 8 ≤ sel.toNat ∧ descriptorAt s sel = .ok d ∧ ¬dataSegment s sel d →
       let u := { s with rip := s.nextRip, rflags := s.rflags &&& ~~~(0x40 : Word) }
       exec (.lsl p r rm) s = .next u ∧ exec (.lar p r rm) s = .next u ∧ exec (.verr p rm) s = .next u ∧
       exec (.verw p rm) s = .next u)) ∧
  (∀ (p : Pfx) (r q : Reg) (m : Mem) (rm : RM) (dest src new : Half) (s : State) (pas : List Nat), s.cs.l = false →
     src = (s.reg r).setWidth 16 → new = (dest &&& 0xFFFC) ||| (src &&& 3) →
     (s.readRM16 p rm = .ok dest → src.toNat % 4 ≤ dest.toNat % 4 →
       exec (.arpl p rm r) s = .next { s with rip := s.nextRip, rflags := s.rflags &&& ~~~(0x40 : Word) }) ∧
     (dest = (s.reg q).setWidth 16 → dest.toNat % 4 < src.toNat % 4 →
       exec (.arpl p (.reg q) r) s = .next { s with
         rip := s.nextRip, rflags := s.rflags ||| 0x40
         gpr := s.gpr.set q (regWritten (s.reg q) 2 (new.setWidth 64)) }) ∧
     (s.memWf = true → p.asz = false → s.readRM16 p (.mem m) = .ok dest → dest.toNat % 4 < src.toNat % 4 →
       s.accessPas { s.dataAccess with write := true } (s.linAddr p m) 2 2 = .ok pas →
       storesTo (.arpl p (.mem m) r) s { s with rip := s.nextRip, rflags := s.rflags ||| 0x40 } pas
         (leBytes 2 (new.setWidth 64))))

/-! ## Control registers, MSRs, CPUID -/

/-- R270, R12: MOV from CR0, CR2, CR3, CR4 or CR8 in ring 0 writes the register; another number raises
#UD, and CPL 3 #GP(0). R30, R271: MOV to CR0 loads TS, WP, AM and CD and reads the fixed value in the others; a wrong value in PE,
MP, EM, NE, NW or PG, a reserved bit of 63:32, or WP = 0 with CR4.CET = 1 raises #GP(0); ET is not examined. R272, R273, R33: MOV to
CR2, CR3, CR4 and CR8. In VMX non-root operation CR0 and CR4 are GuestExits, and CR8 with the TPR shadow is bits 7:4 of the task priority
in the virtual-APIC page (log entry 26, PRESUMED), where reading it is VmExits. With CR4.PCIDE = 1 bit 63 of the value for CR3 is a request that is not stored; CR3 takes
an address below 2^MAXPA. CR4 must have PAE = 1, PVI = 0, no reserved bit, LA57 as before, PCIDE not set newly with bits 11:0 of CR3,
CET not without CR0.WP, and VMXE not cleared in VMX operation; CR8 has four bits; anything else raises #GP(0), and so does CPL 3. These consistency checks are log entry
15 (PRESUMED), what the writes flush log entry 3 (PRESUMED). The status flags are free values afterwards (U7, log entry 9). -/
def Obligations.ControlRegisters : Prop :=
  ∀ (n : BitVec 4) (r : Reg) (s u : State) (v w : Word), v = s.reg r → w = v &&& 0x7FFFFFFFFFFFFFFF →
    u = { s with rip := s.nextRip, draws := s.draws + 1
                 rflags := (s.rflags &&& ~~~(0x8D5 : Word)) ||| (Config.freeWord s.draws &&& 0x8D5) } →
    let noTprShadow := ∀ c, s.vmx = .nonRoot c → c.ctl.useTprShadow = false
    (s.ss.dpl = 0 → ∀ x,
      (n = 2 ∧ x = s.cr2 ∨ n = 3 ∧ x = s.cr3 ∨ s.nonRoot = false ∧ (n = 0 ∧ x = s.cr0 ∨ n = 4 ∧ x = s.cr4) ∨
        noTprShadow ∧ n = 8 ∧ x = s.cr8) →
      exec (.movRCr n r) s = .next { u with gpr := s.gpr.set r x }) ∧
    (s.ss.dpl = 0 → s.nonRoot = false →
      (v >>> 32 = 0 → v &&& 0xA0000027 = 0x80000023 → (bit s.cr4 23 = false ∨ bit v 16 = true) →
        exec (.movCr0R r) s = .next { u with cr0 := 0x80000033 ||| (v &&& 0x40050008) }) ∧
      ((v >>> 32 ≠ 0 ∨ v &&& 0xA0000027 ≠ 0x80000023 ∨ bit s.cr4 23 = true ∧ bit v 16 = false) →
        exec (.movCr0R r) s = s.takeException (excGp 0))) ∧
    (s.ss.dpl = 0 → n ∉ [(0 : BitVec 4), 2, 3, 4, 8] → exec (.movRCr n r) s = s.takeException excUd) ∧
    (s.ss.dpl = 0 →
      exec (.movCr2R r) s = .next { u with cr2 := v } ∧
      (bit s.cr4 17 = false →
        (v.toNat < 2 ^ s.cfg.maxPA → exec (.movCr3R r) s = .next { u with cr3 := v, tlb := s.tlbAfterCr3 v }) ∧
        (bit s.cr4 7 = false → s.tlbAfterCr3 v = Tlb.empty) ∧
        (2 ^ s.cfg.maxPA ≤ v.toNat → exec (.movCr3R r) s = s.takeException (excGp 0))) ∧
      (bit s.cr4 17 = true →
        (w.toNat < 2 ^ s.cfg.maxPA → exec (.movCr3R r) s = .next { u with cr3 := w, tlb := s.tlbAfterCr3 v }) ∧
        (2 ^ s.cfg.maxPA ≤ w.toNat → exec (.movCr3R r) s = s.takeException (excGp 0))) ∧
      (s.nonRoot = false →
       let ok := v &&& 0x22 = 0x20 ∧ s.cr4Reserved v = false ∧ bit v 12 = bit s.cr4 12 ∧
         (bit v 17 = true → bit s.cr4 17 = true ∨ s.cr3 &&& 0xFFF = 0) ∧ (bit v 23 = true → bit s.cr0 16 = true) ∧
         (s.vmx ≠ .off → bit v 13 = true)
       (ok → exec (.movCr4R r) s = .next { u with cr4 := v, tlb := s.tlbAfterCr4 v }) ∧
       (¬ok → exec (.movCr4R r) s = s.takeException (excGp 0))) ∧
      (v.toNat < 16 → noTprShadow → exec (.movCr8R r) s = .next { u with cr8 := v }) ∧
      (∀ c, v.toNat < 16 → s.memWf = true → s.vmx = .nonRoot c → c.ctl.useTprShadow = true →
        storesTo (.movCr8R r) s u ((List.range 4).map (c.ctl.virtualApicAddr.toNat / 4096 * 4096 + 0x80 + ·)) (leBytes 4 (v <<< 4))) ∧
      (16 ≤ v.toNat → exec (.movCr8R r) s = s.takeException (excGp 0))) ∧
    (s.ss.dpl = 3 → ∀ i ∈ [Instr.movRCr n r, .movCr0R r, .movCr2R r, .movCr3R r, .movCr4R r, .movCr8R r],
      exec i s = s.takeException (excGp 0))

/-- R275, R54, R55, R56, R57, R59, R36: RDMSR in ring 0 reads the MSR that ECX names into EDX:EAX and clears the upper halves;
a fixed-range MTRR, which is not implemented, raises #GP(0), and so does CPL 3. R276, R277, R278, R279, R280, R59, R45: WRMSR in
ring 0. IA32_EFER keeps its value and raises #GP(0) unless SCE, LME and NXE are 1 and no reserved bit is; IA32_APIC_BASE must
keep the APIC enabled in x2APIC mode, and keeps its BSP bit; bit 10 of MTRR_DEF_TYPE is reserved; the SIPI pointer is read-only after BIOS_DONE; the shadow-stack pointers of rings 1
and 2 are stored after their reserved-bit checks; so are the MSRs of system calls, the FS and GS bases and the FRED MSRs. R60: RDMSR of a counter that does not count answers the value it holds, and of
IA32_MCi_CTL what WRMSR stored there; that the x2APIC ID (32 bits, R458) is MSR 0x802 and answers a parameter is log entry 14 (DESIGN CHOICE,
PRESUMED). The addresses of the MSRs and the reserved bits, which the spec prints of a few only, the layout of the banks and when a counter
counts are log entries 13 and 15 (PRESUMED). -/
def Obligations.ReadWriteMsr : Prop :=
  (∀ (s : State) (i : Nat) (v : Word), i = (s.reg .rcx &&& 0xFFFFFFFF).toNat →
     (s.ss.dpl = 0 →
       (i, v) ∈ [(0xC0000080, s.efer), (0x1B, s.plat.apicBase), (0x3C, s.plat.sipiPtr), (0xC0000081, s.sys.star),
         (0xC0000082, s.sys.lstar), (0xC0000083, s.sys.cstar), (0xC0000084, s.sys.fmask), (0x174, s.sys.sysenterCs),
         (0x175, s.sys.sysenterEsp), (0x176, s.sys.sysenterEip), (0xC0000100, s.fs.base), (0xC0000101, s.gs.base),
         (0xC0000102, s.sys.kernelGsBase), (0x1D4, s.plat.fredConfig), (0x1D0, s.plat.fredStkLvls),
         (0x6A5, s.cet.pl1Ssp), (0x6A6, s.cet.pl2Ssp), (0x2FF, s.plat.mtrrDefType), (0xBD, 1)] →
       exec .rdmsr s = .next { s with
         rip := s.nextRip, gpr := (s.gpr.set .rax (v &&& 0xFFFFFFFF)).set .rdx (v >>> 32) }) ∧
     (s.ss.dpl = 0 → i ∈ [0x250, 0x258, 0x259, 0x268, 0x269, 0x26A, 0x26B, 0x26C, 0x26D, 0x26E, 0x26F] →
       s.cfg.x2apicReadable.contains i = false → s.cnt.pmc.length ≤ 8 →
       exec .rdmsr s = s.takeException (excGp 0) ∧
       (s.cfg.x2apicWritable.contains i = false → exec .wrmsr s = s.takeException (excGp 0))) ∧
     (s.ss.dpl = 0 → ∀ k : Nat,
       (i = 0xC1 + k ∧ k < 8 ∧ s.cnt.pmc[k]? = some v ∧
           (bit (s.cnt.perfEvtSel.getD k 0) 22 = false ∨ bit s.cnt.perfGlobalCtrl k = false) ∨
         i = 0x309 + k ∧ k < 7 ∧ s.cnt.fixedCtr[k]? = some v ∧
           ((s.cnt.fixedCtrCtrl >>> (4 * k)) &&& 3 = 0 ∨ bit s.cnt.perfGlobalCtrl (32 + k) = false) ∨
         i = 0x400 + 4 * k ∧ k < 32 ∧ s.plat.mcCtl[k]? = some v) →
       exec .rdmsr s = .next { s with
         rip := s.nextRip, gpr := (s.gpr.set .rax (v &&& 0xFFFFFFFF)).set .rdx (v >>> 32) }) ∧
     (s.ss.dpl = 0 → i = 0x802 → s.cfg.x2apicReadable.contains i = true →
       exec .rdmsr s = .next { s with
         rip := s.nextRip, draws := s.draws + 1, gpr := (s.gpr.set .rax (s.cfg.apicId.setWidth 64)).set .rdx 0 }) ∧
     (s.ss.dpl = 3 → exec .rdmsr s = s.takeException (excGp 0) ∧ exec .wrmsr s = s.takeException (excGp 0))) ∧
  (∀ (s : State) (i : Nat) (v : Word), s.ss.dpl = 0 → i = (s.reg .rcx &&& 0xFFFFFFFF).toNat →
     v = (s.reg .rdx <<< 32) ||| (s.reg .rax &&& 0xFFFFFFFF) →
     (i = 0xC0000080 →
       (v ||| 0x400 = 0xD01 → exec .wrmsr s = .next { s with rip := s.nextRip }) ∧
       (v ||| 0x400 ≠ 0xD01 → exec .wrmsr s = s.takeException (excGp 0))) ∧
     (i = 0x1B →
       let ok := bit v 10 = true ∧ bit v 11 = true ∧ v &&& 0x2FF = 0 ∧ v.toNat < 2 ^ s.cfg.maxPA
       (ok → exec .wrmsr s = .next { s with
         rip := s.nextRip, plat := { s.plat with apicBase := (v &&& ~~~(0x100 : Word)) ||| (s.plat.apicBase &&& 0x100) } }) ∧
       (¬ok → exec .wrmsr s = s.takeException (excGp 0))) ∧
     (i = 0x3C →
       (s.biosDone = false → v.toNat < 2 ^ s.cfg.maxPA → v &&& 0xFFE = 0 →
         exec .wrmsr s = .next { s with rip := s.nextRip, plat := { s.plat with sipiPtr := v } }) ∧
       (s.biosDone = true ∨ 2 ^ s.cfg.maxPA ≤ v.toNat ∨ v &&& 0xFFE ≠ 0 →
         exec .wrmsr s = s.takeException (excGp 0))) ∧
     (i = 0x2FF →
       let ok := v &&& ~~~(0x8FF : Word) = 0 ∧ v &&& 0xFF ∈ [0, 1, 4, 5, 6]
       (ok → exec .wrmsr s = .next { s with rip := s.nextRip, plat := { s.plat with mtrrDefType := v } }) ∧
       (¬ok → exec .wrmsr s = s.takeException (excGp 0))) ∧
     (i = 0x6A5 → isCanonical (bit s.cr4 12) v = true → v &&& 3 = 0 →
       exec .wrmsr s = .next { s with rip := s.nextRip, cet := { s.cet with pl1Ssp := v } }) ∧
     (i = 0x6A6 → isCanonical (bit s.cr4 12) v = true → v &&& 3 = 0 →
       exec .wrmsr s = .next { s with rip := s.nextRip, cet := { s.cet with pl2Ssp := v } }) ∧
     (i = 0x6A5 ∨ i = 0x6A6 → (isCanonical (bit s.cr4 12) v = false ∨ v &&& 3 ≠ 0) →
       exec .wrmsr s = s.takeException (excGp 0)) ∧
     (∀ k, i = 0x400 + 4 * k → k < 32 → k < s.plat.mcCtl.length →
       exec .wrmsr s = .next { s with rip := s.nextRip, plat := { s.plat with mcCtl := s.plat.mcCtl.set k v } }) ∧
     (∀ t, (i, t) ∈ [(0xC0000081, { s with sys := { s.sys with star := v } }), (0x174, { s with sys := { s.sys with sysenterCs := v } }),
         (0x1D0, { s with plat := { s.plat with fredStkLvls := v } })] →
       exec .wrmsr s = .next { t with rip := s.nextRip }) ∧
     (∀ t, (i, t) ∈ [(0x175, { s with sys := { s.sys with sysenterEsp := v } }), (0x176, { s with sys := { s.sys with sysenterEip := v } }),
         (0xC0000082, { s with sys := { s.sys with lstar := v } }), (0xC0000083, { s with sys := { s.sys with cstar := v } }),
         (0xC0000102, { s with sys := { s.sys with kernelGsBase := v } }), (0xC0000100, { s with fs := ⟨s.fs.sel, v⟩ }),
         (0xC0000101, { s with gs := ⟨s.gs.sel, v⟩ })] →
       (isCanonical (bit s.cr4 12) v = true → exec .wrmsr s = .next { t with rip := s.nextRip }) ∧
       (isCanonical (bit s.cr4 12) v = false → exec .wrmsr s = s.takeException (excGp 0))) ∧
     (i = 0xC0000084 →
       (v >>> 32 = 0 → exec .wrmsr s = .next { s with rip := s.nextRip, sys := { s.sys with fmask := v } }) ∧
       (v >>> 32 ≠ 0 → exec .wrmsr s = s.takeException (excGp 0))) ∧
     (i = 0x1D4 →
       let ok := isCanonical (bit s.cr4 12) v = true ∧ v &&& s.cfg.fredConfigReserved = 0
       (ok → exec .wrmsr s = .next { s with rip := s.nextRip, plat := { s.plat with fredConfig := v } }) ∧
       (¬ok → exec .wrmsr s = s.takeException (excGp 0))))

/-- R281, R63, R3: CPUID writes EAX, EBX, ECX and EDX, each cleared above bit 31, whatever they answer (free values, log entry 11); leaf 7
sub-leaf 1 answers ECX bits 2 and 4 as 1. Nothing else changes. -/
def Obligations.Cpuid : Prop :=
  ∀ (s : State), s.nonRoot = false →
    ∃ a b c d : DWord, exec .cpuid s = .next { s with
      rip := s.nextRip, draws := s.draws + 1
      gpr := (((s.gpr.set .rax (a.setWidth 64)).set .rbx (b.setWidth 64)).set .rcx (c.setWidth 64)).set .rdx (d.setWidth 64) } ∧
    (s.reg .rax &&& 0xFFFFFFFF = 7 → s.reg .rcx &&& 0xFFFFFFFF = 1 → c.getLsbD 2 = true ∧ c.getLsbD 4 = true)

/-! ## Flags -/

/-- R290, R291: POPF loads CF, PF, AF, ZF, SF, TF, DF, OF, NT, AC and ID from the image, IF only in ring 0; IOPL, VM, VIF and
VIP of the image are ignored and RF is cleared. The 16-bit form loads those of bits 15:0 and keeps bits 31:16. R292, R104:
PUSHF stores RFLAGS with VM and RF as 0, in a slot of the stack operand size. That the 16-bit POPF keeps bits 31:16, RF among them, is the
spec's own decision D18 of R291 (log entry 36, DEDUCED). R296, R297: CLI and STI outside ring 3 write IF; STI holds off interrupts
until after the next instruction where IF was 0. In ring 3 both raise #GP(0). -/
def Obligations.FlagInstructions : Prop :=
  (∀ (p : Pfx) (s : State) (image : Word),
     (s.popAt (s.stackSize p) 0 = .ok image →
       exec (.popf p) s = .next { s with
         rip := s.nextRip, gpr := s.gpr.set .rsp (s.spUp (stackBytes s p))
         rflags := ((s.rflags &&& ~~~(if s.ss.dpl = 0 then (0x244FD5 : Word) else 0x244DD5)) |||
           (image &&& (if s.ss.dpl = 0 then (0x244FD5 : Word) else 0x244DD5))) &&& ~~~(0x10000 : Word) }) ∧
     (s.popAt .w16 0 = .ok image →
       exec (.popf16 p) s = .next { s with
         rip := s.nextRip, gpr := s.gpr.set .rsp (s.spUp 2)
         rflags := (s.rflags &&& ~~~(if s.ss.dpl = 0 then (0x4FD5 : Word) else 0x4DD5)) |||
           (image &&& (if s.ss.dpl = 0 then (0x4FD5 : Word) else 0x4DD5)) })) ∧
  (∀ (p : Pfx) (s : State) (pas : List Nat) (n : Nat), s.memWf = true → n = stackBytes s p →
     s.pushPas s.dataAccess s.cs.l s.sp n 1 = .ok pas →
     storesTo (.pushf p) s { s with rip := s.nextRip, gpr := s.gpr.set .rsp (stackDown s.cs.l s.sp n) } pas
       (leBytes n (s.rflags &&& 0xFCFFFF))) ∧
  (∀ (s : State),
     (s.ss.dpl ≠ 3 →
       exec .cli s = .next { s with rip := s.nextRip, rflags := s.rflags &&& ~~~(0x200 : Word) } ∧
       exec .sti s = .next { s with
         rip := s.nextRip, rflags := s.rflags ||| 0x200, stiBlocked := !bit s.rflags 9 }) ∧
     (s.ss.dpl = 3 → exec .cli s = s.takeException (excGp 0) ∧ exec .sti s = s.takeException (excGp 0)))

/-! ## Ports -/

/-- R299, R300, R94: IN outside ring 3 that causes no VM exit reads a port into AL, AX or EAX. What the port answers is a free
value (U18, log entry 12); REX.W wins over 0x66 (R135). R301, R304, R94: OUT outside ring 3 that causes no VM exit reports a
write of AL, AX or EAX to a port, and changes nothing else. R298: in ring 3 every IN and OUT raises #GP(0), before any VM exit. -/
def Obligations.Ports : Prop :=
  (∀ (p : Pfx) (imm : BitVec 8) (s : State) (n : Nat) (al eax : Half → Word), s.ss.dpl ≠ 3 →
     n = (if p.osz && !p.w then 2 else 4) →
     al = (fun port => (s.reg .rax &&& ~~~(0xFF : Word)) ||| ((Config.freePort s.draws port 1).setWidth 64 &&& 0xFF)) →
     eax = (fun port => regWritten (s.reg .rax) n ((Config.freePort s.draws port n).setWidth 64)) →
     let u := fun v => { s with rip := s.nextRip, draws := s.draws + 1, gpr := s.gpr.set .rax v }
     (portFree s (imm.setWidth 16) 1 → exec (.inAlImm imm) s = .next (u (al (imm.setWidth 16)))) ∧
     (portFree s (imm.setWidth 16) n → exec (.inEaxImm p imm) s = .next (u (eax (imm.setWidth 16)))) ∧
     (portFree s ((s.reg .rdx).setWidth 16) 1 → exec .inAlDx s = .next (u (al ((s.reg .rdx).setWidth 16)))) ∧
     (portFree s ((s.reg .rdx).setWidth 16) n → exec (.inEaxDx p) s = .next (u (eax ((s.reg .rdx).setWidth 16))))) ∧
  (∀ (p : Pfx) (imm : BitVec 8) (s : State) (n : Nat) (eax : DWord), s.ss.dpl ≠ 3 →
     n = (if p.osz && !p.w then 2 else 4) → eax = (s.reg .rax).setWidth 32 →
     let u := fun (w : PortWrite) => { s with rip := s.nextRip, portWrites := w :: s.portWrites }
     (portFree s (imm.setWidth 16) 1 → exec (.outImmAl imm) s = .next (u ⟨imm.setWidth 16, 1, eax &&& 0xFF⟩)) ∧
     (portFree s (imm.setWidth 16) n →
       exec (.outImmEax p imm) s = .next (u ⟨imm.setWidth 16, n, if p.osz && !p.w then eax &&& 0xFFFF else eax⟩)) ∧
     (portFree s ((s.reg .rdx).setWidth 16) 1 → exec .outDxAl s = .next (u ⟨(s.reg .rdx).setWidth 16, 1, eax &&& 0xFF⟩)) ∧
     (portFree s ((s.reg .rdx).setWidth 16) n →
       exec (.outDxEax p) s = .next (u ⟨(s.reg .rdx).setWidth 16, n, if p.osz && !p.w then eax &&& 0xFFFF else eax⟩))) ∧
  (∀ (p : Pfx) (imm : BitVec 8) (s : State), s.ss.dpl = 3 →
     ∀ i ∈ [Instr.inAlImm imm, .inEaxImm p imm, .outImmAl imm, .outImmEax p imm, .inAlDx, .inEaxDx p, .outDxAl, .outDxEax p],
       exec i s = s.takeException (excGp 0))

/-! ## VMX -/

/-- R366, R369, R376, R377: VMLAUNCH and VMRESUME in VMX root operation, ring 0 and 64-bit mode, where every check of R360 to R369
passes (and those of the baseline, log entry 26) and no event is injected, load the guest's state and enter non-root operation.
SEAMRET in SEAM loads it too and leaves SEAM; that it looks at neither the controls nor the host area is log entry 27 (DESIGN CHOICE).
That bit 12 of the guest area's CR4 decides what is canonical, and that NMI blocking stays as it was, is log entry 26 (DESIGN CHOICE).
Nothing else changes. -/
def Obligations.VmEntry : Prop :=
  ∀ (s : State) (v : Vmcs), s.vmx = .root (some v) → s.cs.l = true → s.ss.dpl = 0 →
    ¬guestIllegal (bit (guestCr4 s.cfg v.guest.cr4) 12) v.guest → guestFlagsOk v.guest.rflags = true → s.guestCrOk v.guest = true →
    s.guestActivityOk v.guest = true →
    v.guest.addressesOk (bit (guestCr4 s.cfg v.guest.cr4) 12) = true →
    let entered := { guestLoaded s v.guest with vmx := .nonRoot { v with ctl := { v.ctl with launched := true } } }
    (s.ctlOk v.ctl = true → s.hostOk v.host = true → v.ctl.entryIntrInfo.getLsbD 31 = false →
      (v.ctl.launched = false → exec .vmlaunch s = .next entered) ∧
      (v.ctl.launched = true → exec .vmresume s = .next entered)) ∧
    (s.inSeam = true → exec .seamret s = .next { guestLoaded s v.guest with inSeam := false })

/-- R362, R363, R364, R367, R368, R365, R369: a control that is not fixed as X86S asks fails VM entry in the VMCS (the baseline's error
7), and a host CR0 or CR4 that differs from its FIXED MSRs too (the baseline's error 8). A guest area in which one of the nine conditions
of R367 or those of R368 holds, whose activity state is wait-for-SIPI, whose CR4 has PAE = 0, or whose CR0 or CR4 differs from its FIXED
MSRs where the parameter asks for failure, fails it (and SEAMRET) with invalid guest state: the host state is loaded and the exit
reason says so. The error numbers, the order of the checks and the rest of the baseline's part are log entry 26 (PRESUMED), and so is that bit 12 of the guest
area's CR4 decides what is canonical (DESIGN CHOICE); that a SEAMRET that fails loads the host state, unchecked, and stays in SEAM is log
entry 27 (PRESUMED, DESIGN CHOICE). -/
def Obligations.VmEntryFails : Prop :=
  ∀ (s : State) (v : Vmcs) (i : Instr), s.vmx = .root (some v) → s.cs.l = true → s.ss.dpl = 0 →
    let fails := fun (n : DWord) => exec i s = .next { s with
      rip := s.nextRip, rflags := (s.rflags &&& ~~~(0x8D5 : Word)) ||| 0x40
      vmx := .root (some { v with exit := { v.exit with instructionError := n } }) }
    let entry := i = .vmlaunch ∧ v.ctl.launched = false ∨ i = .vmresume ∧ v.ctl.launched = true
    (entry → v.ctl.hostAddressSpaceSize = false ∨ v.ctl.ia32eGuest = false ∨ v.ctl.unrestrictedGuest = true → fails 7) ∧
    (entry → s.ctlOk v.ctl = true → s.fixedCrOk v.host.cr0 v.host.cr4 = false → fails 8) ∧
    (entry ∧ s.ctlOk v.ctl = true ∧ s.hostOk v.host = true ∨ i = .seamret ∧ s.inSeam = true →
      guestIllegal (bit (guestCr4 s.cfg v.guest.cr4) 12) v.guest ∨ v.guest.activity = 3 ∨ bit v.guest.cr4 5 = false ∨
        s.cfg.vmentryFixedCrFail = true ∧ s.fixedCrOk v.guest.cr0 v.guest.cr4 = false →
      exec i s = .next { hostLoaded s v.host with
        vmx := .root (some { v with exit := { v.exit with reason := 0x80000021, qualification := 0 } }) })

/-- R370: VM entry can inject any event, #NP and #SS with an error code among them: the guest's state is loaded, and the event reaches the
handler in it as one that interrupts the guest there, with the error code supplied. Software interrupts and exceptions (types 4 to 6)
save the RIP after the instruction length supplied. EXT, the layout of the interruption information, the checks of it, and that the
exception bitmap does not see an injected event, are log entry 26 (PRESUMED). -/
def Obligations.EventInjection : Prop :=
  ∀ (s : State) (v : Vmcs) (i : Instr) (type : BitVec 3) (kind : EventKind) (ext : Bool) (length : DWord) (e : Event) (p : Plan),
    s.vmx = .root (some v) → s.cs.l = true → s.ss.dpl = 0 → s.memWf = true → (i = .vmlaunch ∧ v.ctl.launched = false ∨ i = .vmresume ∧ v.ctl.launched = true) →
    s.ctlOk v.ctl = true → s.hostOk v.host = true → s.guestOk v.guest = true → v.guest.activity = 0 →
    v.ctl.entryIntrInfo.getLsbD 31 = true →
    (type, kind, ext, length) ∈ [(0, EventKind.external, true, 0), (2, .nmi, true, 0), (3, .exception, true, 0),
      (4, .softInt, false, v.ctl.entryInstrLen), (5, .int1, true, v.ctl.entryInstrLen), (6, .softInt, false, v.ctl.entryInstrLen)] →
    v.ctl.entryIntrInfo.extractLsb' 8 3 = type →
    e = ⟨v.ctl.entryIntrInfo.setWidth 8, kind, ext,
         if v.ctl.entryIntrInfo.getLsbD 11 then some v.ctl.entryErrorCode else none, v.guest.rip + length.setWidth 64⟩ →
    let entered := { guestLoaded s v.guest with vmx := .nonRoot { v with ctl := { v.ctl with launched := true } } }
    reachesHandler entered e p → handled entered e p (exec i s)

/-- R371, R372, R375, R377, R390: a VM exit saves the guest's segments and registers and loads the host's. VMLAUNCH, VMRESUME and, with
CR4.SMXE = 1, GETSEC cause one in non-root operation, and so does INIT, of which the exit is the whole effect. R380: a guest's access to
the APIC-access page is an APIC-access exit, or reaches the virtual-APIC page; with the TPR shadow MOV from CR8 reads that page. That
VMLAUNCH and VMRESUME raise #UD first in compatibility mode, the reasons and qualifications, and which accesses are virtualized are log
entry 26 (PRESUMED), and that NMI blocking stays as it was over a VM exit is DESIGN CHOICE there. -/
def Obligations.VmExits : Prop :=
  ∀ (s : State) (v : Vmcs), s.vmx = .nonRoot v →
    (s.cs.l = true → exec .vmlaunch s = .next (exited s v 20 0 0 0) ∧ exec .vmresume s = .next (exited s v 24 0 0 0)) ∧
    (s.cs.l = false → exec .vmlaunch s = s.takeException excUd ∧ exec .vmresume s = s.takeException excUd) ∧
    (bit s.cr4 14 = true → exec .getsec s = .next (exited s v 11 0 0 0)) ∧
    (s.due = some .init → step s = .next (exited { s with pending := { s.pending with init := false } } v 3 0 0 0)) ∧
    (∀ (p : Pfx) (m : Mem) (pa : Nat), s.cs.l = true → s.ss.dpl = 0 → v.ctl.virtualizeApicAccesses = true →
      isCanonical (bit s.cr4 12) (s.linAddr p m) = true → s.translate s.dataAccess (s.linAddr p m) = .ok pa →
      pa / 4096 = v.ctl.apicAccessAddr.toNat / 4096 → apicVirtualized v.ctl s.dataAccess (pa % 4096) = false →
      exec (.verr p (.mem m)) s = .next (exited s v 44 (BitVec.ofNat 64 (pa % 4096)) 0 0)) ∧
    (∀ (a : Access) (la : Word) (pa : Nat), v.ctl.virtualizeApicAccesses = true → isCanonical (bit s.cr4 12) la = true →
      s.translate a la = .ok pa → pa / 4096 = v.ctl.apicAccessAddr.toNat / 4096 → v.ctl.virtualApicAddr.toNat < 2 ^ s.cfg.maxPA →
      12 ≤ s.cfg.maxPA → a.fetch = false → v.ctl.useTprShadow = true → 0x80 ≤ pa % 4096 → pa % 4096 < 0x84 →
      s.linear a la = .ok (v.ctl.virtualApicAddr.toNat / 4096 * 4096 + pa % 4096)) ∧
    (∀ r : Reg, s.ss.dpl = 0 → v.ctl.useTprShadow = true → exec (.movRCr 8 r) s = .next { s with
      rip := s.nextRip, draws := s.draws + 1
      rflags := (s.rflags &&& ~~~(0x8D5 : Word)) ||| (Config.freeWord s.draws &&& 0x8D5)
      gpr := s.gpr.set r ((s.byteAt (v.ctl.virtualApicAddr.toNat / 4096 * 4096 + 0x80)).setWidth 64 >>> 4) })

/-- R374, R270, R271, R273, R281, R298: in non-root operation, ring 0, MOV to CR0 or CR4 exits where a bit of the guest/host mask
differs from the read shadow, also with a value that is not legal, and else loads the bits outside the mask or raises #GP(0); a read
shows the shadow in the masked bits; I/O exits always or, with the I/O bitmaps, where the bit of one of its ports is set or it passes the
last port. In either ring and mode CPUID exits always, and an exception, INT3, INT1, and INTO with OF = 1 in compatibility mode, exit
where the exception bitmap has their vector. An exception that the checks of a delivery find exits exactly where its own bit is set, before
#DF or a triple fault is made of it; where it is clear, a second contributory one exits as #DF where that bit is set, and one in the
delivery of #DF exits as a triple fault (log entries 21, DEDUCED, and 26). The reasons, qualifications and interruption information, that masked bits keep
their values and that the checks look at the merged value are log entry 26 (PRESUMED); the consistency
checks of CR0 and CR4 are log entry 15 (PRESUMED), what a write of CR4 flushes log entry 3 (PRESUMED), and the status flags are free
values afterwards (U7, log entry 9). -/
def Obligations.GuestExits : Prop :=
  ∀ (s : State) (v : Vmcs), s.vmx = .nonRoot v →
    (∀ (u : State) (r : Reg) (new0 new4 : Word), s.ss.dpl = 0 →
      u = { s with rip := s.nextRip, draws := s.draws + 1
                   rflags := (s.rflags &&& ~~~(0x8D5 : Word)) ||| (Config.freeWord s.draws &&& 0x8D5) } →
      new0 = (s.reg r &&& ~~~v.ctl.cr0Mask) ||| (s.cr0 &&& v.ctl.cr0Mask) →
      new4 = (s.reg r &&& ~~~v.ctl.cr4Mask) ||| (s.cr4 &&& v.ctl.cr4Mask) →
      ((s.reg r ^^^ v.ctl.cr0Shadow) &&& v.ctl.cr0Mask ≠ 0 →
        exec (.movCr0R r) s = .next (exited s v 28 (crQualification 0 r) 0 0)) ∧
      ((s.reg r ^^^ v.ctl.cr0Shadow) &&& v.ctl.cr0Mask = 0 →
        let ok := new0 >>> 32 = 0 ∧ new0 &&& 0xA0000027 = 0x80000023 ∧ (bit s.cr4 23 = false ∨ bit new0 16 = true)
        (ok → exec (.movCr0R r) s = .next { u with cr0 := 0x80000033 ||| (new0 &&& 0x40050008) }) ∧
        (¬ok → exec (.movCr0R r) s = s.takeException (excGp 0))) ∧
      ((s.reg r ^^^ v.ctl.cr4Shadow) &&& v.ctl.cr4Mask ≠ 0 →
        exec (.movCr4R r) s = .next (exited s v 28 (crQualification 4 r) 0 0)) ∧
      ((s.reg r ^^^ v.ctl.cr4Shadow) &&& v.ctl.cr4Mask = 0 →
        (s.cr4WriteOk new4 = true → exec (.movCr4R r) s = .next { u with cr4 := new4, tlb := s.tlbAfterCr4 new4 }) ∧
        (s.cr4WriteOk new4 = false → exec (.movCr4R r) s = s.takeException (excGp 0))) ∧
      exec (.movRCr 0 r) s = .next { u with
        gpr := s.gpr.set r ((s.cr0 &&& ~~~v.ctl.cr0Mask) ||| (v.ctl.cr0Shadow &&& v.ctl.cr0Mask)) } ∧
      exec (.movRCr 4 r) s = .next { u with
        gpr := s.gpr.set r ((s.cr4 &&& ~~~v.ctl.cr4Mask) ||| (v.ctl.cr4Shadow &&& v.ctl.cr4Mask)) }) ∧
    (∀ (p : Pfx) (imm : BitVec 8) (n : Nat), s.ss.dpl = 0 → n = (if p.osz && !p.w then 2 else 4) →
      let dx : Half := (s.reg .rdx).setWidth 16
      let out := fun (width : Nat) (port : Half) (how : Word) =>
        exited s v 30 (BitVec.ofNat 64 (width - 1) ||| how ||| (port.setWidth 64 <<< 16)) 0 0
      (s.ioExits v.ctl (imm.setWidth 16) 1 = true →
        exec (.inAlImm imm) s = .next (out 1 (imm.setWidth 16) 0x48) ∧ exec (.outImmAl imm) s = .next (out 1 (imm.setWidth 16) 0x40)) ∧
      (s.ioExits v.ctl (imm.setWidth 16) n = true →
        exec (.inEaxImm p imm) s = .next (out n (imm.setWidth 16) 0x48) ∧
        exec (.outImmEax p imm) s = .next (out n (imm.setWidth 16) 0x40)) ∧
      (s.ioExits v.ctl dx 1 = true →
        exec .inAlDx s = .next (out 1 dx 8) ∧ exec .outDxAl s = .next (out 1 dx 0)) ∧
      (s.ioExits v.ctl dx n = true →
        exec (.inEaxDx p) s = .next (out n dx 8) ∧ exec (.outDxEax p) s = .next (out n dx 0))) ∧
    (∀ (port : Half) (width : Nat),
      (v.ctl.useIoBitmaps = false → s.ioExits v.ctl port width = v.ctl.ioExiting) ∧
      (v.ctl.useIoBitmaps = true → (s.ioExits v.ctl port width = true ↔ 0x10000 < port.toNat + width ∨
        ∃ k, k < width ∧ (s.byteAt ((if port.toNat + k < 0x8000 then v.ctl.ioBitmapA else v.ctl.ioBitmapB).toNat / 4096 * 4096 +
          (port.toNat + k) % 0x8000 / 8)).getLsbD ((port.toNat + k) % 8) = true))) ∧
    exec .cpuid s = .next (exited s v 10 0 0 0) ∧
    (∀ x : Exc, x.vector.toNat < 32 → v.ctl.exceptionBitmap.getLsbD x.vector.toNat = true →
      s.takeException x = .next (exited s v 0 (x.cr2.getD 0)
        (x.vector.setWidth 32 ||| 0x300 ||| (if x.err.isSome then 0x800 else 0) ||| 0x80000000) (x.err.getD 0))) ∧
    (∀ (e : Event) (b : Bool) (x : Exc) (y : State), bit s.cr4 32 = false → s.plan e = .error (.exc x) → x.vector.toNat < 32 →
      b = false ∨ 32 ≤ e.vector.toNat ∨ v.ctl.exceptionBitmap.getLsbD e.vector.toNat = false →
      y = { s with cr2 := x.cr2.getD s.cr2 } →
      let double := e.kind = .exception ∧ e.vector = 8
      let pair := e.kind = .exception ∧ e.vector.toNat ∈ [0, 10, 11, 12, 13, 14] ∧ x.vector.toNat ∈ [0, 10, 11, 12, 13, 14]
      (v.ctl.exceptionBitmap.getLsbD x.vector.toNat = true →
        s.deliver e b = .next (exited s v 0 (x.cr2.getD 0)
          (x.vector.setWidth 32 ||| 0x300 ||| (if x.err.isSome then 0x800 else 0) ||| 0x80000000) (x.err.getD 0))) ∧
      (v.ctl.exceptionBitmap.getLsbD x.vector.toNat = false →
        (double → s.deliver e b = .next (exited y v 2 0 0 0)) ∧
        (pair → v.ctl.exceptionBitmap.getLsbD 8 = true → s.deliver e b = .next (exited y v 0 0 0x80000B08 0)) ∧
        (∀ p : Plan, s.memWf = true → ¬double → ¬pair →
          reachesHandler y ⟨x.vector, .exception, decide (e.kind ≠ .softInt), x.err, s.rip⟩ p →
          handled y ⟨x.vector, .exception, decide (e.kind ≠ .softInt), x.err, s.rip⟩ p (s.deliver e b)))) ∧
    (v.ctl.exceptionBitmap.getLsbD 3 = true → exec .int3 s = .next (exited s v 0 0 0x80000603 0)) ∧
    (v.ctl.exceptionBitmap.getLsbD 4 = true → s.cs.l = false → bit s.rflags 11 = true →
      exec .into s = .next (exited s v 0 0 0x80000604 0)) ∧
    (v.ctl.exceptionBitmap.getLsbD 1 = true → exec .int1 s = .next (exited s v 0 0 0x80000501 0))

/-! ## SMX -/

/-- R390, R395: GETSEC raises #UD with CR4.SMXE = 0 or for a leaf that is not supported, and ENTERACCS and SENTER #GP(0) where the first
group of R395 holds or the module does not lie where it asks. CAPABILITIES writes EAX, a free value (log entry 30). -/
def Obligations.GetsecChecks : Prop :=
  ∀ (s : State) (leaf : Nat), leaf = (s.reg .rax &&& 0xFFFFFFFF).toNat →
    (bit s.cr4 14 = false → exec .getsec s = s.takeException excUd) ∧
    (bit s.cr4 14 = true → s.nonRoot = false → leaf ∉ s.cfg.getsecLeaves → exec .getsec s = s.takeException excUd) ∧
    (bit s.cr4 14 = true → s.nonRoot = false → leaf ∈ s.cfg.getsecLeaves →
      (leaf = 2 ∨ leaf = 4 →
        moduleForbidden s ∨ s.machineCheckClear = false ∨
          ¬modulePlaced s (s.reg .rbx &&& 0xFFFFFFFF).toNat (s.reg .rcx &&& 0xFFFFFFFF).toNat ∨ s.txt.secondaryReady = false →
        exec .getsec s = s.takeException (excGp 0)) ∧
      (leaf = 0 → exec .getsec s = .next { s with
        rip := s.nextRip, draws := s.draws + 1, gpr := s.gpr.set .rax (Config.freeWord s.draws &&& 0xFFFFFFFF) }))

/-- R394, R396, R397: ENTERACCS, and SENTER, which sets SENTERFLAG too, of a module that passes every check: it is copied to ACRAM and
the two signatures to its scratch area there, CR0, CR3, CR4, RSP, RIP, RFLAGS, DR7 and the FRED and debug MSRs take the values of Table
19, events are masked, the translations flushed, and the six slots of the state save area, which does not lie over the header, hold what
they held before. A module that is no ACM, whose key is not the chipset's or whose signatures differ, or whose save area is not
aligned, shuts the processor down with the code of R401. The offsets of the slots and of the scratch area are log entry 1, what the
chipset and the hardware hash answer and that a save area outside the ACRAM is written to physical memory log entry 29 (DESIGN CHOICE), and that no debug trap stays pending log entry 23. -/
def Obligations.EnterModule : Prop :=
  ∀ (s : State) (base size ssa leaf n : Nat), base = (s.reg .rbx &&& 0xFFFFFFFF).toNat →
    size = (s.reg .rcx &&& 0xFFFFFFFF).toNat → leaf = (s.reg .rax &&& 0xFFFFFFFF).toNat → leaf = 2 ∨ leaf = 4 →
    bit s.cr4 14 = true → leaf ∈ s.cfg.getsecLeaves → ¬moduleForbidden s → s.machineCheckClear = true →
    modulePlaced s base size → 48 ≤ size → 48 ≤ s.cfg.acmScratch → n = s.cfg.signatureLen → s.txt.secondaryReady = true →
    base + size ≤ 2 ^ s.cfg.maxPA → ssa = (moduleField s 32 4).toNat →
    let isAcm := moduleField s 8 4 = s.cfg.acmHeaderVersion.setWidth 64 ∧ moduleField s 0 2 = 2
    let signed := ∀ k, k < n → s.txt.signature.getD k 0 = s.txt.computedSignature.getD k 0
    let fails := fun (e : TxtError) => ∃ t, exec .getsec s = .next t ∧ t.activity = .shutdown (.txt e)
    (¬isAcm → fails .unsupportedACM) ∧
    (isAcm → s.txt.keyMatches = false → fails .authenticateFail) ∧
    (isAcm → s.txt.keyMatches = true → ¬signed → fails .authenticateFail) ∧
    (isAcm → s.txt.keyMatches = true → signed → (ssa % 64 ≠ 0 ∨ moduleField s 40 4 &&& s.cfg.fredConfigReserved ≠ 0) →
      fails .badACMFormat) ∧
    (isAcm → s.txt.keyMatches = true → signed → ssa % 64 = 0 → ssa ≠ 0xFEB00000 →
      moduleField s 40 4 &&& s.cfg.fredConfigReserved = 0 → s.cfg.ssaOffsets = [0, 8, 16, 24, 32, 40] →
      ssa + 48 ≤ 2 ^ s.cfg.maxPA → s.memWf = true →
      ∃ t, exec .getsec s = .next t ∧
        State.sameButMem { s with
          cr0 := 0x80010033 ||| (s.cr0 &&& 0x40000008), cr3 := moduleField s 36 4, cr4 := 0x100004020, rflags := 2
          gpr := s.gpr.set .rsp 0xFEB00400, rip := moduleField s 44 4, dbg := { s.dbg with dr7 := 0x400 }
          plat := { s.plat with miscEnable := s.plat.miscEnable &&& s.cfg.maskConst, debugCtl := 0, fredStkLvls := 0,
                                fredConfig := moduleField s 40 4 }
          smx := { s.smx with maskSmi := true, maskInit := true, maskA20m := true, maskNmi := true, acMode := true,
                              senter := s.smx.senter || leaf == 4 }
          txt := { s.txt with messages := .openLocality3 :: .openPrivate :: .processorHold :: s.txt.messages }
          tlb := Tlb.empty, dbPending := false, bpHits := 0, stored := [] } t ∧
        t.physRead8 ssa = .ok s.nextRip ∧ t.physRead8 (ssa + 8) = .ok (s.reg .rsp) ∧ t.physRead8 (ssa + 16) = .ok s.cr4 ∧
        t.physRead8 (ssa + 24) = .ok s.cr3 ∧ t.physRead8 (ssa + 32) = .ok s.plat.fredConfig ∧
        t.physRead8 (ssa + 40) = .ok s.plat.fredStkLvls ∧
        (∀ a k, a < ssa ∨ ssa + 48 ≤ a → a = 0xFEB00000 + k → k < s.cfg.acramCapacity →
          t.byteAt a =
            if s.cfg.acmScratch ≤ k ∧ k < s.cfg.acmScratch + n then s.txt.signature.getD (k - s.cfg.acmScratch) 0
            else if s.cfg.acmScratch + n ≤ k ∧ k < s.cfg.acmScratch + n + n then
              s.txt.computedSignature.getD (k - s.cfg.acmScratch - n) 0
            else if k < size then Memory.read s.mem (base + k) else 0) ∧
        (∀ a, a < ssa ∨ ssa + 48 ≤ a → a < 0xFEB00000 ∨ 0xFEB00000 + s.cfg.acramCapacity ≤ a → t.byteAt a = s.byteAt a))

/-- R398: EXITAC in the module, with the six slots at R8 legal, loads CR3, CR4, RIP, RSP and the FRED MSRs from them, empties
ACRAM, flushes the translations, unmasks INIT and, by SENTERFLAG and IA32_SMM_MONITOR_CTL, the other events. In VMX operation, outside ring 0,
outside the module, in SMM, with EDX not 0, with RBX not canonical in 64-bit mode, and with a slot that is not legal, it raises #GP(0); a saved CR4 with PAE = 0 or PVI = 1 and nothing else wrong is refused (U5, log
entry 31). The offsets of the slots are log entry 1, that the saved CR4.LA57 decides for IA32_FRED_CONFIG too log entry 45 (DEDUCED). -/
def Obligations.ExitModule : Prop :=
  ∀ (s : State) (a : Nat) (rip rsp cr4 cr3 config levels : Word), s.reg .rax &&& 0xFFFFFFFF = 3 → 3 ∈ s.cfg.getsecLeaves →
    bit s.cr4 14 = true → s.nonRoot = false → a = (s.reg .r8).toNat →
    (s.vmx ≠ .off ∨ s.cs.l = true ∧ isCanonical (bit s.cr4 12) (s.reg .rbx) = false ∨ s.ss.dpl ≠ 0 ∨ s.smx.acMode = false ∨
        s.inSmm = true ∨ s.reg .rdx &&& 0xFFFFFFFF ≠ 0 →
      exec .getsec s = s.takeException (excGp 0)) ∧
    (s.vmx = .off → (s.cs.l = true → isCanonical (bit s.cr4 12) (s.reg .rbx) = true) → s.ss.dpl = 0 → s.smx.acMode = true →
      s.inSmm = false → s.reg .rdx &&& 0xFFFFFFFF = 0 → s.cfg.ssaOffsets = [0, 8, 16, 24, 32, 40] →
      (a % 64 ≠ 0 ∨ 2 ^ s.cfg.maxPA ≤ a → exec .getsec s = s.takeException (excGp 0)) ∧
      (a % 64 = 0 → a < 2 ^ s.cfg.maxPA →
        s.physRead8 a = .ok rip → s.physRead8 (a + 8) = .ok rsp → s.physRead8 (a + 16) = .ok cr4 →
        s.physRead8 (a + 24) = .ok cr3 → s.physRead8 (a + 32) = .ok config → s.physRead8 (a + 40) = .ok levels →
        let legal := cr3.toNat < 2 ^ s.cfg.maxPA ∧ isCanonical (bit cr4 12) rip = true ∧ isCanonical (bit cr4 12) rsp = true ∧
          cr4 &&& s.cfg.cr4MaskConst = 0 ∧ s.cr4Reserved cr4 = false ∧ config &&& s.cfg.fredConfigReserved = 0 ∧
          isCanonical (bit cr4 12) config = true
        (¬legal → exec .getsec s = s.takeException (excGp 0)) ∧
        (legal → cr4 &&& 0x22 ≠ 0x20 → exec .getsec s = .refused .exitacFixedBits) ∧
        (legal → cr4 &&& 0x22 = 0x20 → exec .getsec s = .next { s with
          acram := [], tlb := Tlb.empty, cr3 := cr3, cr4 := cr4, rip := rip, gpr := s.gpr.set .rsp rsp
          plat := { s.plat with fredConfig := config, fredStkLvls := levels }
          txt := { s.txt with messages := .processorRelease :: .lockSMRAM :: .closeLocality3 :: s.txt.messages }
          smx := { s.smx with
            maskInit := false, acMode := false
            maskSmi := s.smx.maskSmi && s.smx.senter && bit s.plat.smmMonitorCtl 0
            maskNmi := s.smx.maskNmi && s.smx.senter
            maskA20m := s.smx.maskA20m && s.smx.senter } })))

/-- R400 and log entry 30 (PRESUMED, the baseline's): GETSEC[SEXIT] and GETSEC[WAKEUP] in an environment that SENTER made, SMCTRL,
which unmasks SMI, PARAMETERS, whose answers are free values; elsewhere #GP(0). R399: SignalWAKEUP starts a processor that sleeps in
SENTER from the JOIN structure; a bit 0 of IA32_SMM_MONITOR_CTL other than the initiating processor's, and a structure that fails a
check, shut it down with the code of R401. That a CR4 which passes with PAE = 0 or PVI = 1 is loaded with these two bits at the values of
R33 is log entry 32 (DESIGN CHOICE), that the wake-up leaves RSP, RFLAGS and
every other register as they were, where R399 states no value, log entry 32 too (DEDUCED), that LA57 of the structure's CR4 decides for
its RIP log entry 45 (DEDUCED). R373: STM
activation loads CS, SS, DS, ES, FS and GS and clears CR4.FRED; that it changes nothing else,
in every activity state, is log entry 46 (DESIGN CHOICE). -/
def Obligations.OtherSmxFlows : Prop :=
  (∀ (s u : State) (leaf : Nat), leaf = (s.reg .rax &&& 0xFFFFFFFF).toNat → bit s.cr4 14 = true → s.nonRoot = false →
     leaf ∈ s.cfg.getsecLeaves → u = { s with rip := s.nextRip } →
     let env := s.vmx = .off ∧ s.ss.dpl = 0 ∧ bit s.plat.apicBase 8 = true ∧ s.txt.present = true ∧ s.smx.senter = true ∧
       s.smx.acMode = false ∧ s.inSmm = false
     let smi := s.ss.dpl = 0 ∧ s.reg .rbx &&& 0xFFFFFFFF = 0 ∧ s.smx.senter = true ∧ s.smx.acMode = false ∧ s.inSmm = false ∧
       (s.vmx = .off ∨ bit s.plat.smmMonitorCtl 0 = false)
     (leaf = 5 → env → exec .getsec s = .next { u with
       smx := { s.smx with senter := false, maskSmi := false, maskInit := false, maskA20m := false, maskNmi := false }
       txt := { s.txt with messages := .sexit :: s.txt.messages } }) ∧
     (leaf = 8 → env → exec .getsec s = .next { u with txt := { s.txt with messages := .wakeup :: s.txt.messages } }) ∧
     (leaf = 5 ∨ leaf = 8 → ¬env → exec .getsec s = s.takeException (excGp 0)) ∧
     (leaf = 6 → exec .getsec s = .next { u with
       draws := s.draws + 3
       gpr := ((s.gpr.set .rax (Config.freeWord s.draws &&& 0xFFFFFFFF)).set .rbx
         (Config.freeWord (s.draws + 1) &&& 0xFFFFFFFF)).set .rcx (Config.freeWord (s.draws + 2) &&& 0xFFFFFFFF) }) ∧
     (leaf = 7 → smi → exec .getsec s = .next { u with smx := { s.smx with maskSmi := false } }) ∧
     (leaf = 7 → ¬smi → exec .getsec s = s.takeException (excGp 0))) ∧
  (∀ (s t u : State) (a : Nat) (rip cr3 cr4 : Word), s.due = some .wakeup →
     t = { s with pending := { s.pending with wakeup := false } } → a = s.txt.mleJoin.toNat →
     u = { t with tlb := Tlb.empty, smx := { s.smx with
       maskSmi := bit s.plat.smmMonitorCtl 0, maskA20m := true, maskNmi := true, maskInit := false, maskWakeup := true } } →
     (bit s.plat.smmMonitorCtl 0 ≠ s.txt.ilpSmmMonitorCtl0 →
       step s = .next { t with activity := .shutdown (.txt .illegalEvent) }) ∧
     (bit s.plat.smmMonitorCtl 0 = s.txt.ilpSmmMonitorCtl0 → s.physRead8 a = .ok rip → s.physRead8 (a + 8) = .ok cr3 →
       s.physRead8 (a + 16) = .ok cr4 →
       let legal := cr3.toNat < 2 ^ s.cfg.maxPA ∧ isCanonical (bit cr4 12) rip = true ∧ cr4 &&& s.cfg.cr4ReservedBitMask = 0 ∧
         s.cr4Reserved cr4 = false
       (¬legal → step s = .next { u with activity := .shutdown (.txt .badJOINFormat) }) ∧
       (legal → step s = .next { u with
         cr3 := cr3, cr4 := (cr4 ||| 0x20) &&& ~~~(2 : Word), rip := rip, activity := .running }))) ∧
  (∀ s : State, s.due = some .stm → step s = .next { s with
     pending := { s.pending with stm := false }, cs := ⟨8, true⟩, ss := ⟨16, 0, false⟩, ds := 16, es := 16
     fs := ⟨16, 0⟩, gs := ⟨16, 0⟩, cr4 := s.cr4 &&& ~~~(0x100000000 : Word) })
end

