-- ==== Sys2Proof/Laws/Memory.lean ====
section
/-! SUPPORT. Memory laws: a read after a write, and every write keeps the canonical form (R90). -/

namespace Sys2Proof.Machine

@[simp] theorem Memory.read_nil (a : Nat) : Memory.read [] a = unlistedByte := rfl

@[simp] theorem Memory.wf_nil : Memory.wf [] = true := rfl

theorem Memory.wf_cons (k : Nat) (v : Byte) (t : List Host.Cell) :
    Memory.wf ((k, v) :: t) = true ↔ v ≠ unlistedByte ∧ (∀ c ∈ t, k < c.1) ∧ Memory.wf t = true := by
  simp [Memory.wf, and_assoc]

/-- An address below every listed one reads as unlisted. -/
theorem Memory.read_of_lt (m : List Host.Cell) (a : Nat) (h : ∀ c ∈ m, a < c.1) :
    Memory.read m a = unlistedByte := by
  induction m with
  | nil => rfl
  | cons c t ih =>
    obtain ⟨k, v⟩ := c
    have hk : a < k := h (k, v) (by simp)
    simp only [Memory.read]
    rw [if_neg (by omega)]
    exact ih (fun c hc => h c (by simp [hc]))

/-- Every address that a write lists was listed before or is the one written. -/
theorem Memory.mem_write (m : List Host.Cell) (a : Nat) (v : Byte) (c : Host.Cell) (h : c ∈ Memory.write m a v) :
    c ∈ m ∨ c = (a, v) := by
  induction m with
  | nil =>
    simp only [Memory.write] at h
    split at h <;> simp_all
  | cons d t ih =>
    obtain ⟨k, w⟩ := d
    simp only [Memory.write] at h
    split at h
    · rcases List.mem_cons.1 h with h | h
      · simp [h]
      · rcases ih h with h | h <;> simp [h]
    · split at h
      · split at h
        · simp [h]
        · rcases List.mem_cons.1 h with h | h <;> simp [h]
      · split at h
        · exact .inl h
        · rcases List.mem_cons.1 h with h | h
          · exact .inr h
          · exact .inl h

/-- A write keeps the canonical form. -/
theorem Memory.wf_write (m : List Host.Cell) (a : Nat) (v : Byte) (h : Memory.wf m = true) :
    Memory.wf (Memory.write m a v) = true := by
  induction m with
  | nil =>
    simp only [Memory.write]
    split
    · rfl
    · next hv => simp [Memory.wf, hv]
  | cons d t ih =>
    obtain ⟨k, w⟩ := d
    have h' := (Memory.wf_cons k w t).1 h
    simp only [Memory.write]
    split
    · next hka =>
      refine (Memory.wf_cons _ _ _).2 ⟨h'.1, fun c hc => ?_, ih h'.2.2⟩
      rcases Memory.mem_write t a v c hc with hc | hc
      · exact h'.2.1 c hc
      · simpa [hc] using hka
    · split
      · next hka =>
        split
        · exact h'.2.2
        · next hv => subst hka; exact (Memory.wf_cons _ _ _).2 ⟨hv, h'.2.1, h'.2.2⟩
      · split
        · exact h
        · next h1 h2 hv =>
          refine (Memory.wf_cons _ _ _).2 ⟨hv, fun c hc => ?_, h⟩
          rcases List.mem_cons.1 hc with hc | hc
          · simp only [hc]; omega
          · have := h'.2.1 c hc; omega

/-- A read of the address written gives the value written, in a canonical memory. -/
theorem Memory.read_write_same (m : List Host.Cell) (a : Nat) (v : Byte) (h : Memory.wf m = true) :
    Memory.read (Memory.write m a v) a = v := by
  induction m with
  | nil =>
    simp only [Memory.write]
    split
    · next hv => simp [hv]
    · simp [Memory.read]
  | cons d t ih =>
    obtain ⟨k, w⟩ := d
    have h' := (Memory.wf_cons k w t).1 h
    simp only [Memory.write]
    split
    · next hka => simp only [Memory.read]; rw [if_neg (by omega)]; exact ih h'.2.2
    · split
      · next hka =>
        split
        · next hv => rw [hv]; subst hka; exact Memory.read_of_lt t k h'.2.1
        · simp [Memory.read]
      · split
        · next h1 h2 hv =>
          rw [hv]
          refine Memory.read_of_lt _ a (fun c hc => ?_)
          rcases List.mem_cons.1 hc with hc | hc
          · simp only [hc]; omega
          · have := h'.2.1 c hc; omega
        · simp [Memory.read]

/-- A read of any other address is unchanged. -/
theorem Memory.read_write_other (m : List Host.Cell) (a b : Nat) (v : Byte) (hab : b ≠ a)
    (h : Memory.wf m = true) : Memory.read (Memory.write m a v) b = Memory.read m b := by
  induction m with
  | nil =>
    simp only [Memory.write]
    split
    · rfl
    · simp [Memory.read, Ne.symm hab]
  | cons d t ih =>
    obtain ⟨k, w⟩ := d
    have h' := (Memory.wf_cons k w t).1 h
    simp only [Memory.write]
    split
    · simp only [Memory.read]
      split
      · rfl
      · exact ih h'.2.2
    · split
      · next hka =>
        subst hka
        have hb : Memory.read ((k, w) :: t) b = Memory.read t b := by simp [Memory.read, Ne.symm hab]
        split
        · exact hb.symm
        · rw [hb]; simp [Memory.read, Ne.symm hab]
      · split
        · rfl
        · simp [Memory.read, Ne.symm hab]

/-- Writing a list of bytes keeps the canonical form. -/
theorem Memory.wf_writeAll (l : List (Nat × Byte)) (m : List Host.Cell) (h : Memory.wf m = true) :
    Memory.wf (Memory.writeAll m l) = true := by
  induction l generalizing m with
  | nil => exact h
  | cons c t ih => exact ih _ (Memory.wf_write m c.1 c.2 h)

/-- Writing bytes from an address on keeps the canonical form. -/
theorem Memory.wf_writeFrom (bs : List Byte) (m : List Host.Cell) (a : Nat) (h : Memory.wf m = true) :
    Memory.wf (Memory.writeFrom m a bs) = true := by
  induction bs generalizing m a with
  | nil => exact h
  | cons b bs ih => exact ih _ _ (Memory.wf_write m a b h)

/-- Writing bytes from an address on leaves the bytes below it. -/
theorem Memory.read_writeFrom_below (bs : List Byte) (m : List Host.Cell) (a c : Nat) (hc : c < a) (h : Memory.wf m = true) :
    Memory.read (Memory.writeFrom m a bs) c = Memory.read m c := by
  induction bs generalizing m a with
  | nil => rfl
  | cons b bs ih =>
    rw [Memory.writeFrom, ih _ (a + 1) (by omega) (Memory.wf_write m a b h), Memory.read_write_other _ _ _ _ (by omega) h]

/-- Two canonical memories that read alike are the same data. -/
theorem Memory.eq_of_read (m n : List Host.Cell) (hm : Memory.wf m = true) (hn : Memory.wf n = true)
    (h : ∀ a, Memory.read m a = Memory.read n a) : m = n := by
  induction m generalizing n with
  | nil =>
    cases n with
    | nil => rfl
    | cons d t =>
      obtain ⟨k, v⟩ := d
      have := h k
      simp only [Memory.read, if_true] at this
      exact absurd this.symm ((Memory.wf_cons k v t).1 hn).1
  | cons c s ih =>
    obtain ⟨k, v⟩ := c
    have hm' := (Memory.wf_cons k v s).1 hm
    cases n with
    | nil =>
      have := h k
      simp only [Memory.read, if_true] at this
      exact absurd this hm'.1
    | cons d t =>
      obtain ⟨j, w⟩ := d
      have hn' := (Memory.wf_cons j w t).1 hn
      have hkj : k = j := by
        rcases lt_trichotomy k j with hlt | heq | hgt
        · have := h k
          rw [Memory.read_of_lt ((j, w) :: t) k (fun c hc => by
            rcases List.mem_cons.1 hc with hc | hc
            · simpa [hc] using hlt
            · exact lt_trans hlt (hn'.2.1 c hc))] at this
          simp only [Memory.read, if_true] at this
          exact absurd this hm'.1
        · exact heq
        · have := h j
          rw [Memory.read_of_lt ((k, v) :: s) j (fun c hc => by
            rcases List.mem_cons.1 hc with hc | hc
            · simpa [hc] using hgt
            · exact lt_trans hgt (hm'.2.1 c hc))] at this
          simp only [Memory.read, if_true] at this
          exact absurd this.symm hn'.1
      subst hkj
      have hv : v = w := by simpa [Memory.read] using h k
      subst hv
      rw [ih t hm'.2.2 hn'.2.2 (fun a => ?_)]
      by_cases ha : k = a
      · subst ha
        rw [Memory.read_of_lt s k hm'.2.1, Memory.read_of_lt t k hn'.2.1]
      · simpa [Memory.read, ha] using h a

/-- The memory of the reset state is canonical, whatever BootImage holds. -/
theorem reset_mem_wf (c : Config) : Memory.wf (State.resetOf c).mem = true ∧ Memory.wf (State.resetOf c).acram = true :=
  ⟨Memory.wf_writeAll c.bootImage [] rfl, rfl⟩

end Sys2Proof.Machine
end

