-- ==== Sys2Proof/Laws/State.lean ====
section
/-! SUPPORT. The value of every field of State after each named update, so that no proof unfolds a record update. -/

namespace Sys2Proof.Machine

variable (s : State)

section Gpr
variable (v : Gprs)
@[simp] theorem State.setGpr_cfg : (s.setGpr v).cfg = s.cfg := rfl
@[simp] theorem State.setGpr_gpr : (s.setGpr v).gpr = v := rfl
@[simp] theorem State.setGpr_rip : (s.setGpr v).rip = s.rip := rfl
@[simp] theorem State.setGpr_nextRip : (s.setGpr v).nextRip = s.nextRip := rfl
@[simp] theorem State.setGpr_rflags : (s.setGpr v).rflags = s.rflags := rfl
@[simp] theorem State.setGpr_cr0 : (s.setGpr v).cr0 = s.cr0 := rfl
@[simp] theorem State.setGpr_cr2 : (s.setGpr v).cr2 = s.cr2 := rfl
@[simp] theorem State.setGpr_cr3 : (s.setGpr v).cr3 = s.cr3 := rfl
@[simp] theorem State.setGpr_cr4 : (s.setGpr v).cr4 = s.cr4 := rfl
@[simp] theorem State.setGpr_cr8 : (s.setGpr v).cr8 = s.cr8 := rfl
@[simp] theorem State.setGpr_efer : (s.setGpr v).efer = s.efer := rfl
@[simp] theorem State.setGpr_xcr0 : (s.setGpr v).xcr0 = s.xcr0 := rfl
@[simp] theorem State.setGpr_cs : (s.setGpr v).cs = s.cs := rfl
@[simp] theorem State.setGpr_ss : (s.setGpr v).ss = s.ss := rfl
@[simp] theorem State.setGpr_ds : (s.setGpr v).ds = s.ds := rfl
@[simp] theorem State.setGpr_es : (s.setGpr v).es = s.es := rfl
@[simp] theorem State.setGpr_fs : (s.setGpr v).fs = s.fs := rfl
@[simp] theorem State.setGpr_gs : (s.setGpr v).gs = s.gs := rfl
@[simp] theorem State.setGpr_gdtr : (s.setGpr v).gdtr = s.gdtr := rfl
@[simp] theorem State.setGpr_idtr : (s.setGpr v).idtr = s.idtr := rfl
@[simp] theorem State.setGpr_ldtr : (s.setGpr v).ldtr = s.ldtr := rfl
@[simp] theorem State.setGpr_tr : (s.setGpr v).tr = s.tr := rfl
@[simp] theorem State.setGpr_dbg : (s.setGpr v).dbg = s.dbg := rfl
@[simp] theorem State.setGpr_fpu : (s.setGpr v).fpu = s.fpu := rfl
@[simp] theorem State.setGpr_sys : (s.setGpr v).sys = s.sys := rfl
@[simp] theorem State.setGpr_cet : (s.setGpr v).cet = s.cet := rfl
@[simp] theorem State.setGpr_plat : (s.setGpr v).plat = s.plat := rfl
@[simp] theorem State.setGpr_cnt : (s.setGpr v).cnt = s.cnt := rfl
@[simp] theorem State.setGpr_nmiBlocked : (s.setGpr v).nmiBlocked = s.nmiBlocked := rfl
@[simp] theorem State.setGpr_movSsBlocked : (s.setGpr v).movSsBlocked = s.movSsBlocked := rfl
@[simp] theorem State.setGpr_stiBlocked : (s.setGpr v).stiBlocked = s.stiBlocked := rfl
@[simp] theorem State.setGpr_dbPending : (s.setGpr v).dbPending = s.dbPending := rfl
@[simp] theorem State.setGpr_bpHits : (s.setGpr v).bpHits = s.bpHits := rfl
@[simp] theorem State.setGpr_activity : (s.setGpr v).activity = s.activity := rfl
@[simp] theorem State.setGpr_smx : (s.setGpr v).smx = s.smx := rfl
@[simp] theorem State.setGpr_acram : (s.setGpr v).acram = s.acram := rfl
@[simp] theorem State.setGpr_txt : (s.setGpr v).txt = s.txt := rfl
@[simp] theorem State.setGpr_vmx : (s.setGpr v).vmx = s.vmx := rfl
@[simp] theorem State.setGpr_inSmm : (s.setGpr v).inSmm = s.inSmm := rfl
@[simp] theorem State.setGpr_inSeam : (s.setGpr v).inSeam = s.inSeam := rfl
@[simp] theorem State.setGpr_smmSave : (s.setGpr v).smmSave = s.smmSave := rfl
@[simp] theorem State.setGpr_biosDone : (s.setGpr v).biosDone = s.biosDone := rfl
@[simp] theorem State.setGpr_pending : (s.setGpr v).pending = s.pending := rfl
@[simp] theorem State.setGpr_portWrites : (s.setGpr v).portWrites = s.portWrites := rfl
@[simp] theorem State.setGpr_apicWrites : (s.setGpr v).apicWrites = s.apicWrites := rfl
@[simp] theorem State.setGpr_tlb : (s.setGpr v).tlb = s.tlb := rfl
@[simp] theorem State.setGpr_stored : (s.setGpr v).stored = s.stored := rfl
@[simp] theorem State.setGpr_draws : (s.setGpr v).draws = s.draws := rfl
@[simp] theorem State.setGpr_mem : (s.setGpr v).mem = s.mem := rfl
end Gpr

section Rip
variable (v : Word)
@[simp] theorem State.setRip_cfg : (s.setRip v).cfg = s.cfg := rfl
@[simp] theorem State.setRip_gpr : (s.setRip v).gpr = s.gpr := rfl
@[simp] theorem State.setRip_rip : (s.setRip v).rip = v := rfl
@[simp] theorem State.setRip_nextRip : (s.setRip v).nextRip = s.nextRip := rfl
@[simp] theorem State.setRip_rflags : (s.setRip v).rflags = s.rflags := rfl
@[simp] theorem State.setRip_cr0 : (s.setRip v).cr0 = s.cr0 := rfl
@[simp] theorem State.setRip_cr2 : (s.setRip v).cr2 = s.cr2 := rfl
@[simp] theorem State.setRip_cr3 : (s.setRip v).cr3 = s.cr3 := rfl
@[simp] theorem State.setRip_cr4 : (s.setRip v).cr4 = s.cr4 := rfl
@[simp] theorem State.setRip_cr8 : (s.setRip v).cr8 = s.cr8 := rfl
@[simp] theorem State.setRip_efer : (s.setRip v).efer = s.efer := rfl
@[simp] theorem State.setRip_xcr0 : (s.setRip v).xcr0 = s.xcr0 := rfl
@[simp] theorem State.setRip_cs : (s.setRip v).cs = s.cs := rfl
@[simp] theorem State.setRip_ss : (s.setRip v).ss = s.ss := rfl
@[simp] theorem State.setRip_ds : (s.setRip v).ds = s.ds := rfl
@[simp] theorem State.setRip_es : (s.setRip v).es = s.es := rfl
@[simp] theorem State.setRip_fs : (s.setRip v).fs = s.fs := rfl
@[simp] theorem State.setRip_gs : (s.setRip v).gs = s.gs := rfl
@[simp] theorem State.setRip_gdtr : (s.setRip v).gdtr = s.gdtr := rfl
@[simp] theorem State.setRip_idtr : (s.setRip v).idtr = s.idtr := rfl
@[simp] theorem State.setRip_ldtr : (s.setRip v).ldtr = s.ldtr := rfl
@[simp] theorem State.setRip_tr : (s.setRip v).tr = s.tr := rfl
@[simp] theorem State.setRip_dbg : (s.setRip v).dbg = s.dbg := rfl
@[simp] theorem State.setRip_fpu : (s.setRip v).fpu = s.fpu := rfl
@[simp] theorem State.setRip_sys : (s.setRip v).sys = s.sys := rfl
@[simp] theorem State.setRip_cet : (s.setRip v).cet = s.cet := rfl
@[simp] theorem State.setRip_plat : (s.setRip v).plat = s.plat := rfl
@[simp] theorem State.setRip_cnt : (s.setRip v).cnt = s.cnt := rfl
@[simp] theorem State.setRip_nmiBlocked : (s.setRip v).nmiBlocked = s.nmiBlocked := rfl
@[simp] theorem State.setRip_movSsBlocked : (s.setRip v).movSsBlocked = s.movSsBlocked := rfl
@[simp] theorem State.setRip_stiBlocked : (s.setRip v).stiBlocked = s.stiBlocked := rfl
@[simp] theorem State.setRip_dbPending : (s.setRip v).dbPending = s.dbPending := rfl
@[simp] theorem State.setRip_bpHits : (s.setRip v).bpHits = s.bpHits := rfl
@[simp] theorem State.setRip_activity : (s.setRip v).activity = s.activity := rfl
@[simp] theorem State.setRip_smx : (s.setRip v).smx = s.smx := rfl
@[simp] theorem State.setRip_acram : (s.setRip v).acram = s.acram := rfl
@[simp] theorem State.setRip_txt : (s.setRip v).txt = s.txt := rfl
@[simp] theorem State.setRip_vmx : (s.setRip v).vmx = s.vmx := rfl
@[simp] theorem State.setRip_inSmm : (s.setRip v).inSmm = s.inSmm := rfl
@[simp] theorem State.setRip_inSeam : (s.setRip v).inSeam = s.inSeam := rfl
@[simp] theorem State.setRip_smmSave : (s.setRip v).smmSave = s.smmSave := rfl
@[simp] theorem State.setRip_biosDone : (s.setRip v).biosDone = s.biosDone := rfl
@[simp] theorem State.setRip_pending : (s.setRip v).pending = s.pending := rfl
@[simp] theorem State.setRip_portWrites : (s.setRip v).portWrites = s.portWrites := rfl
@[simp] theorem State.setRip_apicWrites : (s.setRip v).apicWrites = s.apicWrites := rfl
@[simp] theorem State.setRip_tlb : (s.setRip v).tlb = s.tlb := rfl
@[simp] theorem State.setRip_stored : (s.setRip v).stored = s.stored := rfl
@[simp] theorem State.setRip_draws : (s.setRip v).draws = s.draws := rfl
@[simp] theorem State.setRip_mem : (s.setRip v).mem = s.mem := rfl
end Rip

section NextRip
variable (v : Word)
@[simp] theorem State.setNextRip_cfg : (s.setNextRip v).cfg = s.cfg := rfl
@[simp] theorem State.setNextRip_gpr : (s.setNextRip v).gpr = s.gpr := rfl
@[simp] theorem State.setNextRip_rip : (s.setNextRip v).rip = s.rip := rfl
@[simp] theorem State.setNextRip_nextRip : (s.setNextRip v).nextRip = v := rfl
@[simp] theorem State.setNextRip_rflags : (s.setNextRip v).rflags = s.rflags := rfl
@[simp] theorem State.setNextRip_cr0 : (s.setNextRip v).cr0 = s.cr0 := rfl
@[simp] theorem State.setNextRip_cr2 : (s.setNextRip v).cr2 = s.cr2 := rfl
@[simp] theorem State.setNextRip_cr3 : (s.setNextRip v).cr3 = s.cr3 := rfl
@[simp] theorem State.setNextRip_cr4 : (s.setNextRip v).cr4 = s.cr4 := rfl
@[simp] theorem State.setNextRip_cr8 : (s.setNextRip v).cr8 = s.cr8 := rfl
@[simp] theorem State.setNextRip_efer : (s.setNextRip v).efer = s.efer := rfl
@[simp] theorem State.setNextRip_xcr0 : (s.setNextRip v).xcr0 = s.xcr0 := rfl
@[simp] theorem State.setNextRip_cs : (s.setNextRip v).cs = s.cs := rfl
@[simp] theorem State.setNextRip_ss : (s.setNextRip v).ss = s.ss := rfl
@[simp] theorem State.setNextRip_ds : (s.setNextRip v).ds = s.ds := rfl
@[simp] theorem State.setNextRip_es : (s.setNextRip v).es = s.es := rfl
@[simp] theorem State.setNextRip_fs : (s.setNextRip v).fs = s.fs := rfl
@[simp] theorem State.setNextRip_gs : (s.setNextRip v).gs = s.gs := rfl
@[simp] theorem State.setNextRip_gdtr : (s.setNextRip v).gdtr = s.gdtr := rfl
@[simp] theorem State.setNextRip_idtr : (s.setNextRip v).idtr = s.idtr := rfl
@[simp] theorem State.setNextRip_ldtr : (s.setNextRip v).ldtr = s.ldtr := rfl
@[simp] theorem State.setNextRip_tr : (s.setNextRip v).tr = s.tr := rfl
@[simp] theorem State.setNextRip_dbg : (s.setNextRip v).dbg = s.dbg := rfl
@[simp] theorem State.setNextRip_fpu : (s.setNextRip v).fpu = s.fpu := rfl
@[simp] theorem State.setNextRip_sys : (s.setNextRip v).sys = s.sys := rfl
@[simp] theorem State.setNextRip_cet : (s.setNextRip v).cet = s.cet := rfl
@[simp] theorem State.setNextRip_plat : (s.setNextRip v).plat = s.plat := rfl
@[simp] theorem State.setNextRip_cnt : (s.setNextRip v).cnt = s.cnt := rfl
@[simp] theorem State.setNextRip_nmiBlocked : (s.setNextRip v).nmiBlocked = s.nmiBlocked := rfl
@[simp] theorem State.setNextRip_movSsBlocked : (s.setNextRip v).movSsBlocked = s.movSsBlocked := rfl
@[simp] theorem State.setNextRip_stiBlocked : (s.setNextRip v).stiBlocked = s.stiBlocked := rfl
@[simp] theorem State.setNextRip_dbPending : (s.setNextRip v).dbPending = s.dbPending := rfl
@[simp] theorem State.setNextRip_bpHits : (s.setNextRip v).bpHits = s.bpHits := rfl
@[simp] theorem State.setNextRip_activity : (s.setNextRip v).activity = s.activity := rfl
@[simp] theorem State.setNextRip_smx : (s.setNextRip v).smx = s.smx := rfl
@[simp] theorem State.setNextRip_acram : (s.setNextRip v).acram = s.acram := rfl
@[simp] theorem State.setNextRip_txt : (s.setNextRip v).txt = s.txt := rfl
@[simp] theorem State.setNextRip_vmx : (s.setNextRip v).vmx = s.vmx := rfl
@[simp] theorem State.setNextRip_inSmm : (s.setNextRip v).inSmm = s.inSmm := rfl
@[simp] theorem State.setNextRip_inSeam : (s.setNextRip v).inSeam = s.inSeam := rfl
@[simp] theorem State.setNextRip_smmSave : (s.setNextRip v).smmSave = s.smmSave := rfl
@[simp] theorem State.setNextRip_biosDone : (s.setNextRip v).biosDone = s.biosDone := rfl
@[simp] theorem State.setNextRip_pending : (s.setNextRip v).pending = s.pending := rfl
@[simp] theorem State.setNextRip_portWrites : (s.setNextRip v).portWrites = s.portWrites := rfl
@[simp] theorem State.setNextRip_apicWrites : (s.setNextRip v).apicWrites = s.apicWrites := rfl
@[simp] theorem State.setNextRip_tlb : (s.setNextRip v).tlb = s.tlb := rfl
@[simp] theorem State.setNextRip_stored : (s.setNextRip v).stored = s.stored := rfl
@[simp] theorem State.setNextRip_draws : (s.setNextRip v).draws = s.draws := rfl
@[simp] theorem State.setNextRip_mem : (s.setNextRip v).mem = s.mem := rfl
end NextRip

section Rflags
variable (v : Word)
@[simp] theorem State.setRflags_cfg : (s.setRflags v).cfg = s.cfg := rfl
@[simp] theorem State.setRflags_gpr : (s.setRflags v).gpr = s.gpr := rfl
@[simp] theorem State.setRflags_rip : (s.setRflags v).rip = s.rip := rfl
@[simp] theorem State.setRflags_nextRip : (s.setRflags v).nextRip = s.nextRip := rfl
@[simp] theorem State.setRflags_rflags : (s.setRflags v).rflags = v := rfl
@[simp] theorem State.setRflags_cr0 : (s.setRflags v).cr0 = s.cr0 := rfl
@[simp] theorem State.setRflags_cr2 : (s.setRflags v).cr2 = s.cr2 := rfl
@[simp] theorem State.setRflags_cr3 : (s.setRflags v).cr3 = s.cr3 := rfl
@[simp] theorem State.setRflags_cr4 : (s.setRflags v).cr4 = s.cr4 := rfl
@[simp] theorem State.setRflags_cr8 : (s.setRflags v).cr8 = s.cr8 := rfl
@[simp] theorem State.setRflags_efer : (s.setRflags v).efer = s.efer := rfl
@[simp] theorem State.setRflags_xcr0 : (s.setRflags v).xcr0 = s.xcr0 := rfl
@[simp] theorem State.setRflags_cs : (s.setRflags v).cs = s.cs := rfl
@[simp] theorem State.setRflags_ss : (s.setRflags v).ss = s.ss := rfl
@[simp] theorem State.setRflags_ds : (s.setRflags v).ds = s.ds := rfl
@[simp] theorem State.setRflags_es : (s.setRflags v).es = s.es := rfl
@[simp] theorem State.setRflags_fs : (s.setRflags v).fs = s.fs := rfl
@[simp] theorem State.setRflags_gs : (s.setRflags v).gs = s.gs := rfl
@[simp] theorem State.setRflags_gdtr : (s.setRflags v).gdtr = s.gdtr := rfl
@[simp] theorem State.setRflags_idtr : (s.setRflags v).idtr = s.idtr := rfl
@[simp] theorem State.setRflags_ldtr : (s.setRflags v).ldtr = s.ldtr := rfl
@[simp] theorem State.setRflags_tr : (s.setRflags v).tr = s.tr := rfl
@[simp] theorem State.setRflags_dbg : (s.setRflags v).dbg = s.dbg := rfl
@[simp] theorem State.setRflags_fpu : (s.setRflags v).fpu = s.fpu := rfl
@[simp] theorem State.setRflags_sys : (s.setRflags v).sys = s.sys := rfl
@[simp] theorem State.setRflags_cet : (s.setRflags v).cet = s.cet := rfl
@[simp] theorem State.setRflags_plat : (s.setRflags v).plat = s.plat := rfl
@[simp] theorem State.setRflags_cnt : (s.setRflags v).cnt = s.cnt := rfl
@[simp] theorem State.setRflags_nmiBlocked : (s.setRflags v).nmiBlocked = s.nmiBlocked := rfl
@[simp] theorem State.setRflags_movSsBlocked : (s.setRflags v).movSsBlocked = s.movSsBlocked := rfl
@[simp] theorem State.setRflags_stiBlocked : (s.setRflags v).stiBlocked = s.stiBlocked := rfl
@[simp] theorem State.setRflags_dbPending : (s.setRflags v).dbPending = s.dbPending := rfl
@[simp] theorem State.setRflags_bpHits : (s.setRflags v).bpHits = s.bpHits := rfl
@[simp] theorem State.setRflags_activity : (s.setRflags v).activity = s.activity := rfl
@[simp] theorem State.setRflags_smx : (s.setRflags v).smx = s.smx := rfl
@[simp] theorem State.setRflags_acram : (s.setRflags v).acram = s.acram := rfl
@[simp] theorem State.setRflags_txt : (s.setRflags v).txt = s.txt := rfl
@[simp] theorem State.setRflags_vmx : (s.setRflags v).vmx = s.vmx := rfl
@[simp] theorem State.setRflags_inSmm : (s.setRflags v).inSmm = s.inSmm := rfl
@[simp] theorem State.setRflags_inSeam : (s.setRflags v).inSeam = s.inSeam := rfl
@[simp] theorem State.setRflags_smmSave : (s.setRflags v).smmSave = s.smmSave := rfl
@[simp] theorem State.setRflags_biosDone : (s.setRflags v).biosDone = s.biosDone := rfl
@[simp] theorem State.setRflags_pending : (s.setRflags v).pending = s.pending := rfl
@[simp] theorem State.setRflags_portWrites : (s.setRflags v).portWrites = s.portWrites := rfl
@[simp] theorem State.setRflags_apicWrites : (s.setRflags v).apicWrites = s.apicWrites := rfl
@[simp] theorem State.setRflags_tlb : (s.setRflags v).tlb = s.tlb := rfl
@[simp] theorem State.setRflags_stored : (s.setRflags v).stored = s.stored := rfl
@[simp] theorem State.setRflags_draws : (s.setRflags v).draws = s.draws := rfl
@[simp] theorem State.setRflags_mem : (s.setRflags v).mem = s.mem := rfl
end Rflags

section Cr0
variable (v : Word)
@[simp] theorem State.setCr0_cfg : (s.setCr0 v).cfg = s.cfg := rfl
@[simp] theorem State.setCr0_gpr : (s.setCr0 v).gpr = s.gpr := rfl
@[simp] theorem State.setCr0_rip : (s.setCr0 v).rip = s.rip := rfl
@[simp] theorem State.setCr0_nextRip : (s.setCr0 v).nextRip = s.nextRip := rfl
@[simp] theorem State.setCr0_rflags : (s.setCr0 v).rflags = s.rflags := rfl
@[simp] theorem State.setCr0_cr0 : (s.setCr0 v).cr0 = v := rfl
@[simp] theorem State.setCr0_cr2 : (s.setCr0 v).cr2 = s.cr2 := rfl
@[simp] theorem State.setCr0_cr3 : (s.setCr0 v).cr3 = s.cr3 := rfl
@[simp] theorem State.setCr0_cr4 : (s.setCr0 v).cr4 = s.cr4 := rfl
@[simp] theorem State.setCr0_cr8 : (s.setCr0 v).cr8 = s.cr8 := rfl
@[simp] theorem State.setCr0_efer : (s.setCr0 v).efer = s.efer := rfl
@[simp] theorem State.setCr0_xcr0 : (s.setCr0 v).xcr0 = s.xcr0 := rfl
@[simp] theorem State.setCr0_cs : (s.setCr0 v).cs = s.cs := rfl
@[simp] theorem State.setCr0_ss : (s.setCr0 v).ss = s.ss := rfl
@[simp] theorem State.setCr0_ds : (s.setCr0 v).ds = s.ds := rfl
@[simp] theorem State.setCr0_es : (s.setCr0 v).es = s.es := rfl
@[simp] theorem State.setCr0_fs : (s.setCr0 v).fs = s.fs := rfl
@[simp] theorem State.setCr0_gs : (s.setCr0 v).gs = s.gs := rfl
@[simp] theorem State.setCr0_gdtr : (s.setCr0 v).gdtr = s.gdtr := rfl
@[simp] theorem State.setCr0_idtr : (s.setCr0 v).idtr = s.idtr := rfl
@[simp] theorem State.setCr0_ldtr : (s.setCr0 v).ldtr = s.ldtr := rfl
@[simp] theorem State.setCr0_tr : (s.setCr0 v).tr = s.tr := rfl
@[simp] theorem State.setCr0_dbg : (s.setCr0 v).dbg = s.dbg := rfl
@[simp] theorem State.setCr0_fpu : (s.setCr0 v).fpu = s.fpu := rfl
@[simp] theorem State.setCr0_sys : (s.setCr0 v).sys = s.sys := rfl
@[simp] theorem State.setCr0_cet : (s.setCr0 v).cet = s.cet := rfl
@[simp] theorem State.setCr0_plat : (s.setCr0 v).plat = s.plat := rfl
@[simp] theorem State.setCr0_cnt : (s.setCr0 v).cnt = s.cnt := rfl
@[simp] theorem State.setCr0_nmiBlocked : (s.setCr0 v).nmiBlocked = s.nmiBlocked := rfl
@[simp] theorem State.setCr0_movSsBlocked : (s.setCr0 v).movSsBlocked = s.movSsBlocked := rfl
@[simp] theorem State.setCr0_stiBlocked : (s.setCr0 v).stiBlocked = s.stiBlocked := rfl
@[simp] theorem State.setCr0_dbPending : (s.setCr0 v).dbPending = s.dbPending := rfl
@[simp] theorem State.setCr0_bpHits : (s.setCr0 v).bpHits = s.bpHits := rfl
@[simp] theorem State.setCr0_activity : (s.setCr0 v).activity = s.activity := rfl
@[simp] theorem State.setCr0_smx : (s.setCr0 v).smx = s.smx := rfl
@[simp] theorem State.setCr0_acram : (s.setCr0 v).acram = s.acram := rfl
@[simp] theorem State.setCr0_txt : (s.setCr0 v).txt = s.txt := rfl
@[simp] theorem State.setCr0_vmx : (s.setCr0 v).vmx = s.vmx := rfl
@[simp] theorem State.setCr0_inSmm : (s.setCr0 v).inSmm = s.inSmm := rfl
@[simp] theorem State.setCr0_inSeam : (s.setCr0 v).inSeam = s.inSeam := rfl
@[simp] theorem State.setCr0_smmSave : (s.setCr0 v).smmSave = s.smmSave := rfl
@[simp] theorem State.setCr0_biosDone : (s.setCr0 v).biosDone = s.biosDone := rfl
@[simp] theorem State.setCr0_pending : (s.setCr0 v).pending = s.pending := rfl
@[simp] theorem State.setCr0_portWrites : (s.setCr0 v).portWrites = s.portWrites := rfl
@[simp] theorem State.setCr0_apicWrites : (s.setCr0 v).apicWrites = s.apicWrites := rfl
@[simp] theorem State.setCr0_tlb : (s.setCr0 v).tlb = s.tlb := rfl
@[simp] theorem State.setCr0_stored : (s.setCr0 v).stored = s.stored := rfl
@[simp] theorem State.setCr0_draws : (s.setCr0 v).draws = s.draws := rfl
@[simp] theorem State.setCr0_mem : (s.setCr0 v).mem = s.mem := rfl
end Cr0

section Cr2
variable (v : Word)
@[simp] theorem State.setCr2_cfg : (s.setCr2 v).cfg = s.cfg := rfl
@[simp] theorem State.setCr2_gpr : (s.setCr2 v).gpr = s.gpr := rfl
@[simp] theorem State.setCr2_rip : (s.setCr2 v).rip = s.rip := rfl
@[simp] theorem State.setCr2_nextRip : (s.setCr2 v).nextRip = s.nextRip := rfl
@[simp] theorem State.setCr2_rflags : (s.setCr2 v).rflags = s.rflags := rfl
@[simp] theorem State.setCr2_cr0 : (s.setCr2 v).cr0 = s.cr0 := rfl
@[simp] theorem State.setCr2_cr2 : (s.setCr2 v).cr2 = v := rfl
@[simp] theorem State.setCr2_cr3 : (s.setCr2 v).cr3 = s.cr3 := rfl
@[simp] theorem State.setCr2_cr4 : (s.setCr2 v).cr4 = s.cr4 := rfl
@[simp] theorem State.setCr2_cr8 : (s.setCr2 v).cr8 = s.cr8 := rfl
@[simp] theorem State.setCr2_efer : (s.setCr2 v).efer = s.efer := rfl
@[simp] theorem State.setCr2_xcr0 : (s.setCr2 v).xcr0 = s.xcr0 := rfl
@[simp] theorem State.setCr2_cs : (s.setCr2 v).cs = s.cs := rfl
@[simp] theorem State.setCr2_ss : (s.setCr2 v).ss = s.ss := rfl
@[simp] theorem State.setCr2_ds : (s.setCr2 v).ds = s.ds := rfl
@[simp] theorem State.setCr2_es : (s.setCr2 v).es = s.es := rfl
@[simp] theorem State.setCr2_fs : (s.setCr2 v).fs = s.fs := rfl
@[simp] theorem State.setCr2_gs : (s.setCr2 v).gs = s.gs := rfl
@[simp] theorem State.setCr2_gdtr : (s.setCr2 v).gdtr = s.gdtr := rfl
@[simp] theorem State.setCr2_idtr : (s.setCr2 v).idtr = s.idtr := rfl
@[simp] theorem State.setCr2_ldtr : (s.setCr2 v).ldtr = s.ldtr := rfl
@[simp] theorem State.setCr2_tr : (s.setCr2 v).tr = s.tr := rfl
@[simp] theorem State.setCr2_dbg : (s.setCr2 v).dbg = s.dbg := rfl
@[simp] theorem State.setCr2_fpu : (s.setCr2 v).fpu = s.fpu := rfl
@[simp] theorem State.setCr2_sys : (s.setCr2 v).sys = s.sys := rfl
@[simp] theorem State.setCr2_cet : (s.setCr2 v).cet = s.cet := rfl
@[simp] theorem State.setCr2_plat : (s.setCr2 v).plat = s.plat := rfl
@[simp] theorem State.setCr2_cnt : (s.setCr2 v).cnt = s.cnt := rfl
@[simp] theorem State.setCr2_nmiBlocked : (s.setCr2 v).nmiBlocked = s.nmiBlocked := rfl
@[simp] theorem State.setCr2_movSsBlocked : (s.setCr2 v).movSsBlocked = s.movSsBlocked := rfl
@[simp] theorem State.setCr2_stiBlocked : (s.setCr2 v).stiBlocked = s.stiBlocked := rfl
@[simp] theorem State.setCr2_dbPending : (s.setCr2 v).dbPending = s.dbPending := rfl
@[simp] theorem State.setCr2_bpHits : (s.setCr2 v).bpHits = s.bpHits := rfl
@[simp] theorem State.setCr2_activity : (s.setCr2 v).activity = s.activity := rfl
@[simp] theorem State.setCr2_smx : (s.setCr2 v).smx = s.smx := rfl
@[simp] theorem State.setCr2_acram : (s.setCr2 v).acram = s.acram := rfl
@[simp] theorem State.setCr2_txt : (s.setCr2 v).txt = s.txt := rfl
@[simp] theorem State.setCr2_vmx : (s.setCr2 v).vmx = s.vmx := rfl
@[simp] theorem State.setCr2_inSmm : (s.setCr2 v).inSmm = s.inSmm := rfl
@[simp] theorem State.setCr2_inSeam : (s.setCr2 v).inSeam = s.inSeam := rfl
@[simp] theorem State.setCr2_smmSave : (s.setCr2 v).smmSave = s.smmSave := rfl
@[simp] theorem State.setCr2_biosDone : (s.setCr2 v).biosDone = s.biosDone := rfl
@[simp] theorem State.setCr2_pending : (s.setCr2 v).pending = s.pending := rfl
@[simp] theorem State.setCr2_portWrites : (s.setCr2 v).portWrites = s.portWrites := rfl
@[simp] theorem State.setCr2_apicWrites : (s.setCr2 v).apicWrites = s.apicWrites := rfl
@[simp] theorem State.setCr2_tlb : (s.setCr2 v).tlb = s.tlb := rfl
@[simp] theorem State.setCr2_stored : (s.setCr2 v).stored = s.stored := rfl
@[simp] theorem State.setCr2_draws : (s.setCr2 v).draws = s.draws := rfl
@[simp] theorem State.setCr2_mem : (s.setCr2 v).mem = s.mem := rfl
end Cr2

section Cr3
variable (v : Word)
@[simp] theorem State.setCr3_cfg : (s.setCr3 v).cfg = s.cfg := rfl
@[simp] theorem State.setCr3_gpr : (s.setCr3 v).gpr = s.gpr := rfl
@[simp] theorem State.setCr3_rip : (s.setCr3 v).rip = s.rip := rfl
@[simp] theorem State.setCr3_nextRip : (s.setCr3 v).nextRip = s.nextRip := rfl
@[simp] theorem State.setCr3_rflags : (s.setCr3 v).rflags = s.rflags := rfl
@[simp] theorem State.setCr3_cr0 : (s.setCr3 v).cr0 = s.cr0 := rfl
@[simp] theorem State.setCr3_cr2 : (s.setCr3 v).cr2 = s.cr2 := rfl
@[simp] theorem State.setCr3_cr3 : (s.setCr3 v).cr3 = v := rfl
@[simp] theorem State.setCr3_cr4 : (s.setCr3 v).cr4 = s.cr4 := rfl
@[simp] theorem State.setCr3_cr8 : (s.setCr3 v).cr8 = s.cr8 := rfl
@[simp] theorem State.setCr3_efer : (s.setCr3 v).efer = s.efer := rfl
@[simp] theorem State.setCr3_xcr0 : (s.setCr3 v).xcr0 = s.xcr0 := rfl
@[simp] theorem State.setCr3_cs : (s.setCr3 v).cs = s.cs := rfl
@[simp] theorem State.setCr3_ss : (s.setCr3 v).ss = s.ss := rfl
@[simp] theorem State.setCr3_ds : (s.setCr3 v).ds = s.ds := rfl
@[simp] theorem State.setCr3_es : (s.setCr3 v).es = s.es := rfl
@[simp] theorem State.setCr3_fs : (s.setCr3 v).fs = s.fs := rfl
@[simp] theorem State.setCr3_gs : (s.setCr3 v).gs = s.gs := rfl
@[simp] theorem State.setCr3_gdtr : (s.setCr3 v).gdtr = s.gdtr := rfl
@[simp] theorem State.setCr3_idtr : (s.setCr3 v).idtr = s.idtr := rfl
@[simp] theorem State.setCr3_ldtr : (s.setCr3 v).ldtr = s.ldtr := rfl
@[simp] theorem State.setCr3_tr : (s.setCr3 v).tr = s.tr := rfl
@[simp] theorem State.setCr3_dbg : (s.setCr3 v).dbg = s.dbg := rfl
@[simp] theorem State.setCr3_fpu : (s.setCr3 v).fpu = s.fpu := rfl
@[simp] theorem State.setCr3_sys : (s.setCr3 v).sys = s.sys := rfl
@[simp] theorem State.setCr3_cet : (s.setCr3 v).cet = s.cet := rfl
@[simp] theorem State.setCr3_plat : (s.setCr3 v).plat = s.plat := rfl
@[simp] theorem State.setCr3_cnt : (s.setCr3 v).cnt = s.cnt := rfl
@[simp] theorem State.setCr3_nmiBlocked : (s.setCr3 v).nmiBlocked = s.nmiBlocked := rfl
@[simp] theorem State.setCr3_movSsBlocked : (s.setCr3 v).movSsBlocked = s.movSsBlocked := rfl
@[simp] theorem State.setCr3_stiBlocked : (s.setCr3 v).stiBlocked = s.stiBlocked := rfl
@[simp] theorem State.setCr3_dbPending : (s.setCr3 v).dbPending = s.dbPending := rfl
@[simp] theorem State.setCr3_bpHits : (s.setCr3 v).bpHits = s.bpHits := rfl
@[simp] theorem State.setCr3_activity : (s.setCr3 v).activity = s.activity := rfl
@[simp] theorem State.setCr3_smx : (s.setCr3 v).smx = s.smx := rfl
@[simp] theorem State.setCr3_acram : (s.setCr3 v).acram = s.acram := rfl
@[simp] theorem State.setCr3_txt : (s.setCr3 v).txt = s.txt := rfl
@[simp] theorem State.setCr3_vmx : (s.setCr3 v).vmx = s.vmx := rfl
@[simp] theorem State.setCr3_inSmm : (s.setCr3 v).inSmm = s.inSmm := rfl
@[simp] theorem State.setCr3_inSeam : (s.setCr3 v).inSeam = s.inSeam := rfl
@[simp] theorem State.setCr3_smmSave : (s.setCr3 v).smmSave = s.smmSave := rfl
@[simp] theorem State.setCr3_biosDone : (s.setCr3 v).biosDone = s.biosDone := rfl
@[simp] theorem State.setCr3_pending : (s.setCr3 v).pending = s.pending := rfl
@[simp] theorem State.setCr3_portWrites : (s.setCr3 v).portWrites = s.portWrites := rfl
@[simp] theorem State.setCr3_apicWrites : (s.setCr3 v).apicWrites = s.apicWrites := rfl
@[simp] theorem State.setCr3_tlb : (s.setCr3 v).tlb = s.tlb := rfl
@[simp] theorem State.setCr3_stored : (s.setCr3 v).stored = s.stored := rfl
@[simp] theorem State.setCr3_draws : (s.setCr3 v).draws = s.draws := rfl
@[simp] theorem State.setCr3_mem : (s.setCr3 v).mem = s.mem := rfl
end Cr3

section Cr4
variable (v : Word)
@[simp] theorem State.setCr4_cfg : (s.setCr4 v).cfg = s.cfg := rfl
@[simp] theorem State.setCr4_gpr : (s.setCr4 v).gpr = s.gpr := rfl
@[simp] theorem State.setCr4_rip : (s.setCr4 v).rip = s.rip := rfl
@[simp] theorem State.setCr4_nextRip : (s.setCr4 v).nextRip = s.nextRip := rfl
@[simp] theorem State.setCr4_rflags : (s.setCr4 v).rflags = s.rflags := rfl
@[simp] theorem State.setCr4_cr0 : (s.setCr4 v).cr0 = s.cr0 := rfl
@[simp] theorem State.setCr4_cr2 : (s.setCr4 v).cr2 = s.cr2 := rfl
@[simp] theorem State.setCr4_cr3 : (s.setCr4 v).cr3 = s.cr3 := rfl
@[simp] theorem State.setCr4_cr4 : (s.setCr4 v).cr4 = v := rfl
@[simp] theorem State.setCr4_cr8 : (s.setCr4 v).cr8 = s.cr8 := rfl
@[simp] theorem State.setCr4_efer : (s.setCr4 v).efer = s.efer := rfl
@[simp] theorem State.setCr4_xcr0 : (s.setCr4 v).xcr0 = s.xcr0 := rfl
@[simp] theorem State.setCr4_cs : (s.setCr4 v).cs = s.cs := rfl
@[simp] theorem State.setCr4_ss : (s.setCr4 v).ss = s.ss := rfl
@[simp] theorem State.setCr4_ds : (s.setCr4 v).ds = s.ds := rfl
@[simp] theorem State.setCr4_es : (s.setCr4 v).es = s.es := rfl
@[simp] theorem State.setCr4_fs : (s.setCr4 v).fs = s.fs := rfl
@[simp] theorem State.setCr4_gs : (s.setCr4 v).gs = s.gs := rfl
@[simp] theorem State.setCr4_gdtr : (s.setCr4 v).gdtr = s.gdtr := rfl
@[simp] theorem State.setCr4_idtr : (s.setCr4 v).idtr = s.idtr := rfl
@[simp] theorem State.setCr4_ldtr : (s.setCr4 v).ldtr = s.ldtr := rfl
@[simp] theorem State.setCr4_tr : (s.setCr4 v).tr = s.tr := rfl
@[simp] theorem State.setCr4_dbg : (s.setCr4 v).dbg = s.dbg := rfl
@[simp] theorem State.setCr4_fpu : (s.setCr4 v).fpu = s.fpu := rfl
@[simp] theorem State.setCr4_sys : (s.setCr4 v).sys = s.sys := rfl
@[simp] theorem State.setCr4_cet : (s.setCr4 v).cet = s.cet := rfl
@[simp] theorem State.setCr4_plat : (s.setCr4 v).plat = s.plat := rfl
@[simp] theorem State.setCr4_cnt : (s.setCr4 v).cnt = s.cnt := rfl
@[simp] theorem State.setCr4_nmiBlocked : (s.setCr4 v).nmiBlocked = s.nmiBlocked := rfl
@[simp] theorem State.setCr4_movSsBlocked : (s.setCr4 v).movSsBlocked = s.movSsBlocked := rfl
@[simp] theorem State.setCr4_stiBlocked : (s.setCr4 v).stiBlocked = s.stiBlocked := rfl
@[simp] theorem State.setCr4_dbPending : (s.setCr4 v).dbPending = s.dbPending := rfl
@[simp] theorem State.setCr4_bpHits : (s.setCr4 v).bpHits = s.bpHits := rfl
@[simp] theorem State.setCr4_activity : (s.setCr4 v).activity = s.activity := rfl
@[simp] theorem State.setCr4_smx : (s.setCr4 v).smx = s.smx := rfl
@[simp] theorem State.setCr4_acram : (s.setCr4 v).acram = s.acram := rfl
@[simp] theorem State.setCr4_txt : (s.setCr4 v).txt = s.txt := rfl
@[simp] theorem State.setCr4_vmx : (s.setCr4 v).vmx = s.vmx := rfl
@[simp] theorem State.setCr4_inSmm : (s.setCr4 v).inSmm = s.inSmm := rfl
@[simp] theorem State.setCr4_inSeam : (s.setCr4 v).inSeam = s.inSeam := rfl
@[simp] theorem State.setCr4_smmSave : (s.setCr4 v).smmSave = s.smmSave := rfl
@[simp] theorem State.setCr4_biosDone : (s.setCr4 v).biosDone = s.biosDone := rfl
@[simp] theorem State.setCr4_pending : (s.setCr4 v).pending = s.pending := rfl
@[simp] theorem State.setCr4_portWrites : (s.setCr4 v).portWrites = s.portWrites := rfl
@[simp] theorem State.setCr4_apicWrites : (s.setCr4 v).apicWrites = s.apicWrites := rfl
@[simp] theorem State.setCr4_tlb : (s.setCr4 v).tlb = s.tlb := rfl
@[simp] theorem State.setCr4_stored : (s.setCr4 v).stored = s.stored := rfl
@[simp] theorem State.setCr4_draws : (s.setCr4 v).draws = s.draws := rfl
@[simp] theorem State.setCr4_mem : (s.setCr4 v).mem = s.mem := rfl
end Cr4

section Cr8
variable (v : Word)
@[simp] theorem State.setCr8_cfg : (s.setCr8 v).cfg = s.cfg := rfl
@[simp] theorem State.setCr8_gpr : (s.setCr8 v).gpr = s.gpr := rfl
@[simp] theorem State.setCr8_rip : (s.setCr8 v).rip = s.rip := rfl
@[simp] theorem State.setCr8_nextRip : (s.setCr8 v).nextRip = s.nextRip := rfl
@[simp] theorem State.setCr8_rflags : (s.setCr8 v).rflags = s.rflags := rfl
@[simp] theorem State.setCr8_cr0 : (s.setCr8 v).cr0 = s.cr0 := rfl
@[simp] theorem State.setCr8_cr2 : (s.setCr8 v).cr2 = s.cr2 := rfl
@[simp] theorem State.setCr8_cr3 : (s.setCr8 v).cr3 = s.cr3 := rfl
@[simp] theorem State.setCr8_cr4 : (s.setCr8 v).cr4 = s.cr4 := rfl
@[simp] theorem State.setCr8_cr8 : (s.setCr8 v).cr8 = v := rfl
@[simp] theorem State.setCr8_efer : (s.setCr8 v).efer = s.efer := rfl
@[simp] theorem State.setCr8_xcr0 : (s.setCr8 v).xcr0 = s.xcr0 := rfl
@[simp] theorem State.setCr8_cs : (s.setCr8 v).cs = s.cs := rfl
@[simp] theorem State.setCr8_ss : (s.setCr8 v).ss = s.ss := rfl
@[simp] theorem State.setCr8_ds : (s.setCr8 v).ds = s.ds := rfl
@[simp] theorem State.setCr8_es : (s.setCr8 v).es = s.es := rfl
@[simp] theorem State.setCr8_fs : (s.setCr8 v).fs = s.fs := rfl
@[simp] theorem State.setCr8_gs : (s.setCr8 v).gs = s.gs := rfl
@[simp] theorem State.setCr8_gdtr : (s.setCr8 v).gdtr = s.gdtr := rfl
@[simp] theorem State.setCr8_idtr : (s.setCr8 v).idtr = s.idtr := rfl
@[simp] theorem State.setCr8_ldtr : (s.setCr8 v).ldtr = s.ldtr := rfl
@[simp] theorem State.setCr8_tr : (s.setCr8 v).tr = s.tr := rfl
@[simp] theorem State.setCr8_dbg : (s.setCr8 v).dbg = s.dbg := rfl
@[simp] theorem State.setCr8_fpu : (s.setCr8 v).fpu = s.fpu := rfl
@[simp] theorem State.setCr8_sys : (s.setCr8 v).sys = s.sys := rfl
@[simp] theorem State.setCr8_cet : (s.setCr8 v).cet = s.cet := rfl
@[simp] theorem State.setCr8_plat : (s.setCr8 v).plat = s.plat := rfl
@[simp] theorem State.setCr8_cnt : (s.setCr8 v).cnt = s.cnt := rfl
@[simp] theorem State.setCr8_nmiBlocked : (s.setCr8 v).nmiBlocked = s.nmiBlocked := rfl
@[simp] theorem State.setCr8_movSsBlocked : (s.setCr8 v).movSsBlocked = s.movSsBlocked := rfl
@[simp] theorem State.setCr8_stiBlocked : (s.setCr8 v).stiBlocked = s.stiBlocked := rfl
@[simp] theorem State.setCr8_dbPending : (s.setCr8 v).dbPending = s.dbPending := rfl
@[simp] theorem State.setCr8_bpHits : (s.setCr8 v).bpHits = s.bpHits := rfl
@[simp] theorem State.setCr8_activity : (s.setCr8 v).activity = s.activity := rfl
@[simp] theorem State.setCr8_smx : (s.setCr8 v).smx = s.smx := rfl
@[simp] theorem State.setCr8_acram : (s.setCr8 v).acram = s.acram := rfl
@[simp] theorem State.setCr8_txt : (s.setCr8 v).txt = s.txt := rfl
@[simp] theorem State.setCr8_vmx : (s.setCr8 v).vmx = s.vmx := rfl
@[simp] theorem State.setCr8_inSmm : (s.setCr8 v).inSmm = s.inSmm := rfl
@[simp] theorem State.setCr8_inSeam : (s.setCr8 v).inSeam = s.inSeam := rfl
@[simp] theorem State.setCr8_smmSave : (s.setCr8 v).smmSave = s.smmSave := rfl
@[simp] theorem State.setCr8_biosDone : (s.setCr8 v).biosDone = s.biosDone := rfl
@[simp] theorem State.setCr8_pending : (s.setCr8 v).pending = s.pending := rfl
@[simp] theorem State.setCr8_portWrites : (s.setCr8 v).portWrites = s.portWrites := rfl
@[simp] theorem State.setCr8_apicWrites : (s.setCr8 v).apicWrites = s.apicWrites := rfl
@[simp] theorem State.setCr8_tlb : (s.setCr8 v).tlb = s.tlb := rfl
@[simp] theorem State.setCr8_stored : (s.setCr8 v).stored = s.stored := rfl
@[simp] theorem State.setCr8_draws : (s.setCr8 v).draws = s.draws := rfl
@[simp] theorem State.setCr8_mem : (s.setCr8 v).mem = s.mem := rfl
end Cr8

section Cs
variable (v : CsReg)
@[simp] theorem State.setCs_cfg : (s.setCs v).cfg = s.cfg := rfl
@[simp] theorem State.setCs_gpr : (s.setCs v).gpr = s.gpr := rfl
@[simp] theorem State.setCs_rip : (s.setCs v).rip = s.rip := rfl
@[simp] theorem State.setCs_nextRip : (s.setCs v).nextRip = s.nextRip := rfl
@[simp] theorem State.setCs_rflags : (s.setCs v).rflags = s.rflags := rfl
@[simp] theorem State.setCs_cr0 : (s.setCs v).cr0 = s.cr0 := rfl
@[simp] theorem State.setCs_cr2 : (s.setCs v).cr2 = s.cr2 := rfl
@[simp] theorem State.setCs_cr3 : (s.setCs v).cr3 = s.cr3 := rfl
@[simp] theorem State.setCs_cr4 : (s.setCs v).cr4 = s.cr4 := rfl
@[simp] theorem State.setCs_cr8 : (s.setCs v).cr8 = s.cr8 := rfl
@[simp] theorem State.setCs_efer : (s.setCs v).efer = s.efer := rfl
@[simp] theorem State.setCs_xcr0 : (s.setCs v).xcr0 = s.xcr0 := rfl
@[simp] theorem State.setCs_cs : (s.setCs v).cs = v := rfl
@[simp] theorem State.setCs_ss : (s.setCs v).ss = s.ss := rfl
@[simp] theorem State.setCs_ds : (s.setCs v).ds = s.ds := rfl
@[simp] theorem State.setCs_es : (s.setCs v).es = s.es := rfl
@[simp] theorem State.setCs_fs : (s.setCs v).fs = s.fs := rfl
@[simp] theorem State.setCs_gs : (s.setCs v).gs = s.gs := rfl
@[simp] theorem State.setCs_gdtr : (s.setCs v).gdtr = s.gdtr := rfl
@[simp] theorem State.setCs_idtr : (s.setCs v).idtr = s.idtr := rfl
@[simp] theorem State.setCs_ldtr : (s.setCs v).ldtr = s.ldtr := rfl
@[simp] theorem State.setCs_tr : (s.setCs v).tr = s.tr := rfl
@[simp] theorem State.setCs_dbg : (s.setCs v).dbg = s.dbg := rfl
@[simp] theorem State.setCs_fpu : (s.setCs v).fpu = s.fpu := rfl
@[simp] theorem State.setCs_sys : (s.setCs v).sys = s.sys := rfl
@[simp] theorem State.setCs_cet : (s.setCs v).cet = s.cet := rfl
@[simp] theorem State.setCs_plat : (s.setCs v).plat = s.plat := rfl
@[simp] theorem State.setCs_cnt : (s.setCs v).cnt = s.cnt := rfl
@[simp] theorem State.setCs_nmiBlocked : (s.setCs v).nmiBlocked = s.nmiBlocked := rfl
@[simp] theorem State.setCs_movSsBlocked : (s.setCs v).movSsBlocked = s.movSsBlocked := rfl
@[simp] theorem State.setCs_stiBlocked : (s.setCs v).stiBlocked = s.stiBlocked := rfl
@[simp] theorem State.setCs_dbPending : (s.setCs v).dbPending = s.dbPending := rfl
@[simp] theorem State.setCs_bpHits : (s.setCs v).bpHits = s.bpHits := rfl
@[simp] theorem State.setCs_activity : (s.setCs v).activity = s.activity := rfl
@[simp] theorem State.setCs_smx : (s.setCs v).smx = s.smx := rfl
@[simp] theorem State.setCs_acram : (s.setCs v).acram = s.acram := rfl
@[simp] theorem State.setCs_txt : (s.setCs v).txt = s.txt := rfl
@[simp] theorem State.setCs_vmx : (s.setCs v).vmx = s.vmx := rfl
@[simp] theorem State.setCs_inSmm : (s.setCs v).inSmm = s.inSmm := rfl
@[simp] theorem State.setCs_inSeam : (s.setCs v).inSeam = s.inSeam := rfl
@[simp] theorem State.setCs_smmSave : (s.setCs v).smmSave = s.smmSave := rfl
@[simp] theorem State.setCs_biosDone : (s.setCs v).biosDone = s.biosDone := rfl
@[simp] theorem State.setCs_pending : (s.setCs v).pending = s.pending := rfl
@[simp] theorem State.setCs_portWrites : (s.setCs v).portWrites = s.portWrites := rfl
@[simp] theorem State.setCs_apicWrites : (s.setCs v).apicWrites = s.apicWrites := rfl
@[simp] theorem State.setCs_tlb : (s.setCs v).tlb = s.tlb := rfl
@[simp] theorem State.setCs_stored : (s.setCs v).stored = s.stored := rfl
@[simp] theorem State.setCs_draws : (s.setCs v).draws = s.draws := rfl
@[simp] theorem State.setCs_mem : (s.setCs v).mem = s.mem := rfl
end Cs

section Ss
variable (v : SsReg)
@[simp] theorem State.setSs_cfg : (s.setSs v).cfg = s.cfg := rfl
@[simp] theorem State.setSs_gpr : (s.setSs v).gpr = s.gpr := rfl
@[simp] theorem State.setSs_rip : (s.setSs v).rip = s.rip := rfl
@[simp] theorem State.setSs_nextRip : (s.setSs v).nextRip = s.nextRip := rfl
@[simp] theorem State.setSs_rflags : (s.setSs v).rflags = s.rflags := rfl
@[simp] theorem State.setSs_cr0 : (s.setSs v).cr0 = s.cr0 := rfl
@[simp] theorem State.setSs_cr2 : (s.setSs v).cr2 = s.cr2 := rfl
@[simp] theorem State.setSs_cr3 : (s.setSs v).cr3 = s.cr3 := rfl
@[simp] theorem State.setSs_cr4 : (s.setSs v).cr4 = s.cr4 := rfl
@[simp] theorem State.setSs_cr8 : (s.setSs v).cr8 = s.cr8 := rfl
@[simp] theorem State.setSs_efer : (s.setSs v).efer = s.efer := rfl
@[simp] theorem State.setSs_xcr0 : (s.setSs v).xcr0 = s.xcr0 := rfl
@[simp] theorem State.setSs_cs : (s.setSs v).cs = s.cs := rfl
@[simp] theorem State.setSs_ss : (s.setSs v).ss = v := rfl
@[simp] theorem State.setSs_ds : (s.setSs v).ds = s.ds := rfl
@[simp] theorem State.setSs_es : (s.setSs v).es = s.es := rfl
@[simp] theorem State.setSs_fs : (s.setSs v).fs = s.fs := rfl
@[simp] theorem State.setSs_gs : (s.setSs v).gs = s.gs := rfl
@[simp] theorem State.setSs_gdtr : (s.setSs v).gdtr = s.gdtr := rfl
@[simp] theorem State.setSs_idtr : (s.setSs v).idtr = s.idtr := rfl
@[simp] theorem State.setSs_ldtr : (s.setSs v).ldtr = s.ldtr := rfl
@[simp] theorem State.setSs_tr : (s.setSs v).tr = s.tr := rfl
@[simp] theorem State.setSs_dbg : (s.setSs v).dbg = s.dbg := rfl
@[simp] theorem State.setSs_fpu : (s.setSs v).fpu = s.fpu := rfl
@[simp] theorem State.setSs_sys : (s.setSs v).sys = s.sys := rfl
@[simp] theorem State.setSs_cet : (s.setSs v).cet = s.cet := rfl
@[simp] theorem State.setSs_plat : (s.setSs v).plat = s.plat := rfl
@[simp] theorem State.setSs_cnt : (s.setSs v).cnt = s.cnt := rfl
@[simp] theorem State.setSs_nmiBlocked : (s.setSs v).nmiBlocked = s.nmiBlocked := rfl
@[simp] theorem State.setSs_movSsBlocked : (s.setSs v).movSsBlocked = s.movSsBlocked := rfl
@[simp] theorem State.setSs_stiBlocked : (s.setSs v).stiBlocked = s.stiBlocked := rfl
@[simp] theorem State.setSs_dbPending : (s.setSs v).dbPending = s.dbPending := rfl
@[simp] theorem State.setSs_bpHits : (s.setSs v).bpHits = s.bpHits := rfl
@[simp] theorem State.setSs_activity : (s.setSs v).activity = s.activity := rfl
@[simp] theorem State.setSs_smx : (s.setSs v).smx = s.smx := rfl
@[simp] theorem State.setSs_acram : (s.setSs v).acram = s.acram := rfl
@[simp] theorem State.setSs_txt : (s.setSs v).txt = s.txt := rfl
@[simp] theorem State.setSs_vmx : (s.setSs v).vmx = s.vmx := rfl
@[simp] theorem State.setSs_inSmm : (s.setSs v).inSmm = s.inSmm := rfl
@[simp] theorem State.setSs_inSeam : (s.setSs v).inSeam = s.inSeam := rfl
@[simp] theorem State.setSs_smmSave : (s.setSs v).smmSave = s.smmSave := rfl
@[simp] theorem State.setSs_biosDone : (s.setSs v).biosDone = s.biosDone := rfl
@[simp] theorem State.setSs_pending : (s.setSs v).pending = s.pending := rfl
@[simp] theorem State.setSs_portWrites : (s.setSs v).portWrites = s.portWrites := rfl
@[simp] theorem State.setSs_apicWrites : (s.setSs v).apicWrites = s.apicWrites := rfl
@[simp] theorem State.setSs_tlb : (s.setSs v).tlb = s.tlb := rfl
@[simp] theorem State.setSs_stored : (s.setSs v).stored = s.stored := rfl
@[simp] theorem State.setSs_draws : (s.setSs v).draws = s.draws := rfl
@[simp] theorem State.setSs_mem : (s.setSs v).mem = s.mem := rfl
end Ss

section Ds
variable (v : Half)
@[simp] theorem State.setDs_cfg : (s.setDs v).cfg = s.cfg := rfl
@[simp] theorem State.setDs_gpr : (s.setDs v).gpr = s.gpr := rfl
@[simp] theorem State.setDs_rip : (s.setDs v).rip = s.rip := rfl
@[simp] theorem State.setDs_nextRip : (s.setDs v).nextRip = s.nextRip := rfl
@[simp] theorem State.setDs_rflags : (s.setDs v).rflags = s.rflags := rfl
@[simp] theorem State.setDs_cr0 : (s.setDs v).cr0 = s.cr0 := rfl
@[simp] theorem State.setDs_cr2 : (s.setDs v).cr2 = s.cr2 := rfl
@[simp] theorem State.setDs_cr3 : (s.setDs v).cr3 = s.cr3 := rfl
@[simp] theorem State.setDs_cr4 : (s.setDs v).cr4 = s.cr4 := rfl
@[simp] theorem State.setDs_cr8 : (s.setDs v).cr8 = s.cr8 := rfl
@[simp] theorem State.setDs_efer : (s.setDs v).efer = s.efer := rfl
@[simp] theorem State.setDs_xcr0 : (s.setDs v).xcr0 = s.xcr0 := rfl
@[simp] theorem State.setDs_cs : (s.setDs v).cs = s.cs := rfl
@[simp] theorem State.setDs_ss : (s.setDs v).ss = s.ss := rfl
@[simp] theorem State.setDs_ds : (s.setDs v).ds = v := rfl
@[simp] theorem State.setDs_es : (s.setDs v).es = s.es := rfl
@[simp] theorem State.setDs_fs : (s.setDs v).fs = s.fs := rfl
@[simp] theorem State.setDs_gs : (s.setDs v).gs = s.gs := rfl
@[simp] theorem State.setDs_gdtr : (s.setDs v).gdtr = s.gdtr := rfl
@[simp] theorem State.setDs_idtr : (s.setDs v).idtr = s.idtr := rfl
@[simp] theorem State.setDs_ldtr : (s.setDs v).ldtr = s.ldtr := rfl
@[simp] theorem State.setDs_tr : (s.setDs v).tr = s.tr := rfl
@[simp] theorem State.setDs_dbg : (s.setDs v).dbg = s.dbg := rfl
@[simp] theorem State.setDs_fpu : (s.setDs v).fpu = s.fpu := rfl
@[simp] theorem State.setDs_sys : (s.setDs v).sys = s.sys := rfl
@[simp] theorem State.setDs_cet : (s.setDs v).cet = s.cet := rfl
@[simp] theorem State.setDs_plat : (s.setDs v).plat = s.plat := rfl
@[simp] theorem State.setDs_cnt : (s.setDs v).cnt = s.cnt := rfl
@[simp] theorem State.setDs_nmiBlocked : (s.setDs v).nmiBlocked = s.nmiBlocked := rfl
@[simp] theorem State.setDs_movSsBlocked : (s.setDs v).movSsBlocked = s.movSsBlocked := rfl
@[simp] theorem State.setDs_stiBlocked : (s.setDs v).stiBlocked = s.stiBlocked := rfl
@[simp] theorem State.setDs_dbPending : (s.setDs v).dbPending = s.dbPending := rfl
@[simp] theorem State.setDs_bpHits : (s.setDs v).bpHits = s.bpHits := rfl
@[simp] theorem State.setDs_activity : (s.setDs v).activity = s.activity := rfl
@[simp] theorem State.setDs_smx : (s.setDs v).smx = s.smx := rfl
@[simp] theorem State.setDs_acram : (s.setDs v).acram = s.acram := rfl
@[simp] theorem State.setDs_txt : (s.setDs v).txt = s.txt := rfl
@[simp] theorem State.setDs_vmx : (s.setDs v).vmx = s.vmx := rfl
@[simp] theorem State.setDs_inSmm : (s.setDs v).inSmm = s.inSmm := rfl
@[simp] theorem State.setDs_inSeam : (s.setDs v).inSeam = s.inSeam := rfl
@[simp] theorem State.setDs_smmSave : (s.setDs v).smmSave = s.smmSave := rfl
@[simp] theorem State.setDs_biosDone : (s.setDs v).biosDone = s.biosDone := rfl
@[simp] theorem State.setDs_pending : (s.setDs v).pending = s.pending := rfl
@[simp] theorem State.setDs_portWrites : (s.setDs v).portWrites = s.portWrites := rfl
@[simp] theorem State.setDs_apicWrites : (s.setDs v).apicWrites = s.apicWrites := rfl
@[simp] theorem State.setDs_tlb : (s.setDs v).tlb = s.tlb := rfl
@[simp] theorem State.setDs_stored : (s.setDs v).stored = s.stored := rfl
@[simp] theorem State.setDs_draws : (s.setDs v).draws = s.draws := rfl
@[simp] theorem State.setDs_mem : (s.setDs v).mem = s.mem := rfl
end Ds

section Es
variable (v : Half)
@[simp] theorem State.setEs_cfg : (s.setEs v).cfg = s.cfg := rfl
@[simp] theorem State.setEs_gpr : (s.setEs v).gpr = s.gpr := rfl
@[simp] theorem State.setEs_rip : (s.setEs v).rip = s.rip := rfl
@[simp] theorem State.setEs_nextRip : (s.setEs v).nextRip = s.nextRip := rfl
@[simp] theorem State.setEs_rflags : (s.setEs v).rflags = s.rflags := rfl
@[simp] theorem State.setEs_cr0 : (s.setEs v).cr0 = s.cr0 := rfl
@[simp] theorem State.setEs_cr2 : (s.setEs v).cr2 = s.cr2 := rfl
@[simp] theorem State.setEs_cr3 : (s.setEs v).cr3 = s.cr3 := rfl
@[simp] theorem State.setEs_cr4 : (s.setEs v).cr4 = s.cr4 := rfl
@[simp] theorem State.setEs_cr8 : (s.setEs v).cr8 = s.cr8 := rfl
@[simp] theorem State.setEs_efer : (s.setEs v).efer = s.efer := rfl
@[simp] theorem State.setEs_xcr0 : (s.setEs v).xcr0 = s.xcr0 := rfl
@[simp] theorem State.setEs_cs : (s.setEs v).cs = s.cs := rfl
@[simp] theorem State.setEs_ss : (s.setEs v).ss = s.ss := rfl
@[simp] theorem State.setEs_ds : (s.setEs v).ds = s.ds := rfl
@[simp] theorem State.setEs_es : (s.setEs v).es = v := rfl
@[simp] theorem State.setEs_fs : (s.setEs v).fs = s.fs := rfl
@[simp] theorem State.setEs_gs : (s.setEs v).gs = s.gs := rfl
@[simp] theorem State.setEs_gdtr : (s.setEs v).gdtr = s.gdtr := rfl
@[simp] theorem State.setEs_idtr : (s.setEs v).idtr = s.idtr := rfl
@[simp] theorem State.setEs_ldtr : (s.setEs v).ldtr = s.ldtr := rfl
@[simp] theorem State.setEs_tr : (s.setEs v).tr = s.tr := rfl
@[simp] theorem State.setEs_dbg : (s.setEs v).dbg = s.dbg := rfl
@[simp] theorem State.setEs_fpu : (s.setEs v).fpu = s.fpu := rfl
@[simp] theorem State.setEs_sys : (s.setEs v).sys = s.sys := rfl
@[simp] theorem State.setEs_cet : (s.setEs v).cet = s.cet := rfl
@[simp] theorem State.setEs_plat : (s.setEs v).plat = s.plat := rfl
@[simp] theorem State.setEs_cnt : (s.setEs v).cnt = s.cnt := rfl
@[simp] theorem State.setEs_nmiBlocked : (s.setEs v).nmiBlocked = s.nmiBlocked := rfl
@[simp] theorem State.setEs_movSsBlocked : (s.setEs v).movSsBlocked = s.movSsBlocked := rfl
@[simp] theorem State.setEs_stiBlocked : (s.setEs v).stiBlocked = s.stiBlocked := rfl
@[simp] theorem State.setEs_dbPending : (s.setEs v).dbPending = s.dbPending := rfl
@[simp] theorem State.setEs_bpHits : (s.setEs v).bpHits = s.bpHits := rfl
@[simp] theorem State.setEs_activity : (s.setEs v).activity = s.activity := rfl
@[simp] theorem State.setEs_smx : (s.setEs v).smx = s.smx := rfl
@[simp] theorem State.setEs_acram : (s.setEs v).acram = s.acram := rfl
@[simp] theorem State.setEs_txt : (s.setEs v).txt = s.txt := rfl
@[simp] theorem State.setEs_vmx : (s.setEs v).vmx = s.vmx := rfl
@[simp] theorem State.setEs_inSmm : (s.setEs v).inSmm = s.inSmm := rfl
@[simp] theorem State.setEs_inSeam : (s.setEs v).inSeam = s.inSeam := rfl
@[simp] theorem State.setEs_smmSave : (s.setEs v).smmSave = s.smmSave := rfl
@[simp] theorem State.setEs_biosDone : (s.setEs v).biosDone = s.biosDone := rfl
@[simp] theorem State.setEs_pending : (s.setEs v).pending = s.pending := rfl
@[simp] theorem State.setEs_portWrites : (s.setEs v).portWrites = s.portWrites := rfl
@[simp] theorem State.setEs_apicWrites : (s.setEs v).apicWrites = s.apicWrites := rfl
@[simp] theorem State.setEs_tlb : (s.setEs v).tlb = s.tlb := rfl
@[simp] theorem State.setEs_stored : (s.setEs v).stored = s.stored := rfl
@[simp] theorem State.setEs_draws : (s.setEs v).draws = s.draws := rfl
@[simp] theorem State.setEs_mem : (s.setEs v).mem = s.mem := rfl
end Es

section Fs
variable (v : BaseReg)
@[simp] theorem State.setFs_cfg : (s.setFs v).cfg = s.cfg := rfl
@[simp] theorem State.setFs_gpr : (s.setFs v).gpr = s.gpr := rfl
@[simp] theorem State.setFs_rip : (s.setFs v).rip = s.rip := rfl
@[simp] theorem State.setFs_nextRip : (s.setFs v).nextRip = s.nextRip := rfl
@[simp] theorem State.setFs_rflags : (s.setFs v).rflags = s.rflags := rfl
@[simp] theorem State.setFs_cr0 : (s.setFs v).cr0 = s.cr0 := rfl
@[simp] theorem State.setFs_cr2 : (s.setFs v).cr2 = s.cr2 := rfl
@[simp] theorem State.setFs_cr3 : (s.setFs v).cr3 = s.cr3 := rfl
@[simp] theorem State.setFs_cr4 : (s.setFs v).cr4 = s.cr4 := rfl
@[simp] theorem State.setFs_cr8 : (s.setFs v).cr8 = s.cr8 := rfl
@[simp] theorem State.setFs_efer : (s.setFs v).efer = s.efer := rfl
@[simp] theorem State.setFs_xcr0 : (s.setFs v).xcr0 = s.xcr0 := rfl
@[simp] theorem State.setFs_cs : (s.setFs v).cs = s.cs := rfl
@[simp] theorem State.setFs_ss : (s.setFs v).ss = s.ss := rfl
@[simp] theorem State.setFs_ds : (s.setFs v).ds = s.ds := rfl
@[simp] theorem State.setFs_es : (s.setFs v).es = s.es := rfl
@[simp] theorem State.setFs_fs : (s.setFs v).fs = v := rfl
@[simp] theorem State.setFs_gs : (s.setFs v).gs = s.gs := rfl
@[simp] theorem State.setFs_gdtr : (s.setFs v).gdtr = s.gdtr := rfl
@[simp] theorem State.setFs_idtr : (s.setFs v).idtr = s.idtr := rfl
@[simp] theorem State.setFs_ldtr : (s.setFs v).ldtr = s.ldtr := rfl
@[simp] theorem State.setFs_tr : (s.setFs v).tr = s.tr := rfl
@[simp] theorem State.setFs_dbg : (s.setFs v).dbg = s.dbg := rfl
@[simp] theorem State.setFs_fpu : (s.setFs v).fpu = s.fpu := rfl
@[simp] theorem State.setFs_sys : (s.setFs v).sys = s.sys := rfl
@[simp] theorem State.setFs_cet : (s.setFs v).cet = s.cet := rfl
@[simp] theorem State.setFs_plat : (s.setFs v).plat = s.plat := rfl
@[simp] theorem State.setFs_cnt : (s.setFs v).cnt = s.cnt := rfl
@[simp] theorem State.setFs_nmiBlocked : (s.setFs v).nmiBlocked = s.nmiBlocked := rfl
@[simp] theorem State.setFs_movSsBlocked : (s.setFs v).movSsBlocked = s.movSsBlocked := rfl
@[simp] theorem State.setFs_stiBlocked : (s.setFs v).stiBlocked = s.stiBlocked := rfl
@[simp] theorem State.setFs_dbPending : (s.setFs v).dbPending = s.dbPending := rfl
@[simp] theorem State.setFs_bpHits : (s.setFs v).bpHits = s.bpHits := rfl
@[simp] theorem State.setFs_activity : (s.setFs v).activity = s.activity := rfl
@[simp] theorem State.setFs_smx : (s.setFs v).smx = s.smx := rfl
@[simp] theorem State.setFs_acram : (s.setFs v).acram = s.acram := rfl
@[simp] theorem State.setFs_txt : (s.setFs v).txt = s.txt := rfl
@[simp] theorem State.setFs_vmx : (s.setFs v).vmx = s.vmx := rfl
@[simp] theorem State.setFs_inSmm : (s.setFs v).inSmm = s.inSmm := rfl
@[simp] theorem State.setFs_inSeam : (s.setFs v).inSeam = s.inSeam := rfl
@[simp] theorem State.setFs_smmSave : (s.setFs v).smmSave = s.smmSave := rfl
@[simp] theorem State.setFs_biosDone : (s.setFs v).biosDone = s.biosDone := rfl
@[simp] theorem State.setFs_pending : (s.setFs v).pending = s.pending := rfl
@[simp] theorem State.setFs_portWrites : (s.setFs v).portWrites = s.portWrites := rfl
@[simp] theorem State.setFs_apicWrites : (s.setFs v).apicWrites = s.apicWrites := rfl
@[simp] theorem State.setFs_tlb : (s.setFs v).tlb = s.tlb := rfl
@[simp] theorem State.setFs_stored : (s.setFs v).stored = s.stored := rfl
@[simp] theorem State.setFs_draws : (s.setFs v).draws = s.draws := rfl
@[simp] theorem State.setFs_mem : (s.setFs v).mem = s.mem := rfl
end Fs

section Gs
variable (v : BaseReg)
@[simp] theorem State.setGs_cfg : (s.setGs v).cfg = s.cfg := rfl
@[simp] theorem State.setGs_gpr : (s.setGs v).gpr = s.gpr := rfl
@[simp] theorem State.setGs_rip : (s.setGs v).rip = s.rip := rfl
@[simp] theorem State.setGs_nextRip : (s.setGs v).nextRip = s.nextRip := rfl
@[simp] theorem State.setGs_rflags : (s.setGs v).rflags = s.rflags := rfl
@[simp] theorem State.setGs_cr0 : (s.setGs v).cr0 = s.cr0 := rfl
@[simp] theorem State.setGs_cr2 : (s.setGs v).cr2 = s.cr2 := rfl
@[simp] theorem State.setGs_cr3 : (s.setGs v).cr3 = s.cr3 := rfl
@[simp] theorem State.setGs_cr4 : (s.setGs v).cr4 = s.cr4 := rfl
@[simp] theorem State.setGs_cr8 : (s.setGs v).cr8 = s.cr8 := rfl
@[simp] theorem State.setGs_efer : (s.setGs v).efer = s.efer := rfl
@[simp] theorem State.setGs_xcr0 : (s.setGs v).xcr0 = s.xcr0 := rfl
@[simp] theorem State.setGs_cs : (s.setGs v).cs = s.cs := rfl
@[simp] theorem State.setGs_ss : (s.setGs v).ss = s.ss := rfl
@[simp] theorem State.setGs_ds : (s.setGs v).ds = s.ds := rfl
@[simp] theorem State.setGs_es : (s.setGs v).es = s.es := rfl
@[simp] theorem State.setGs_fs : (s.setGs v).fs = s.fs := rfl
@[simp] theorem State.setGs_gs : (s.setGs v).gs = v := rfl
@[simp] theorem State.setGs_gdtr : (s.setGs v).gdtr = s.gdtr := rfl
@[simp] theorem State.setGs_idtr : (s.setGs v).idtr = s.idtr := rfl
@[simp] theorem State.setGs_ldtr : (s.setGs v).ldtr = s.ldtr := rfl
@[simp] theorem State.setGs_tr : (s.setGs v).tr = s.tr := rfl
@[simp] theorem State.setGs_dbg : (s.setGs v).dbg = s.dbg := rfl
@[simp] theorem State.setGs_fpu : (s.setGs v).fpu = s.fpu := rfl
@[simp] theorem State.setGs_sys : (s.setGs v).sys = s.sys := rfl
@[simp] theorem State.setGs_cet : (s.setGs v).cet = s.cet := rfl
@[simp] theorem State.setGs_plat : (s.setGs v).plat = s.plat := rfl
@[simp] theorem State.setGs_cnt : (s.setGs v).cnt = s.cnt := rfl
@[simp] theorem State.setGs_nmiBlocked : (s.setGs v).nmiBlocked = s.nmiBlocked := rfl
@[simp] theorem State.setGs_movSsBlocked : (s.setGs v).movSsBlocked = s.movSsBlocked := rfl
@[simp] theorem State.setGs_stiBlocked : (s.setGs v).stiBlocked = s.stiBlocked := rfl
@[simp] theorem State.setGs_dbPending : (s.setGs v).dbPending = s.dbPending := rfl
@[simp] theorem State.setGs_bpHits : (s.setGs v).bpHits = s.bpHits := rfl
@[simp] theorem State.setGs_activity : (s.setGs v).activity = s.activity := rfl
@[simp] theorem State.setGs_smx : (s.setGs v).smx = s.smx := rfl
@[simp] theorem State.setGs_acram : (s.setGs v).acram = s.acram := rfl
@[simp] theorem State.setGs_txt : (s.setGs v).txt = s.txt := rfl
@[simp] theorem State.setGs_vmx : (s.setGs v).vmx = s.vmx := rfl
@[simp] theorem State.setGs_inSmm : (s.setGs v).inSmm = s.inSmm := rfl
@[simp] theorem State.setGs_inSeam : (s.setGs v).inSeam = s.inSeam := rfl
@[simp] theorem State.setGs_smmSave : (s.setGs v).smmSave = s.smmSave := rfl
@[simp] theorem State.setGs_biosDone : (s.setGs v).biosDone = s.biosDone := rfl
@[simp] theorem State.setGs_pending : (s.setGs v).pending = s.pending := rfl
@[simp] theorem State.setGs_portWrites : (s.setGs v).portWrites = s.portWrites := rfl
@[simp] theorem State.setGs_apicWrites : (s.setGs v).apicWrites = s.apicWrites := rfl
@[simp] theorem State.setGs_tlb : (s.setGs v).tlb = s.tlb := rfl
@[simp] theorem State.setGs_stored : (s.setGs v).stored = s.stored := rfl
@[simp] theorem State.setGs_draws : (s.setGs v).draws = s.draws := rfl
@[simp] theorem State.setGs_mem : (s.setGs v).mem = s.mem := rfl
end Gs

section Gdtr
variable (v : TableReg)
@[simp] theorem State.setGdtr_cfg : (s.setGdtr v).cfg = s.cfg := rfl
@[simp] theorem State.setGdtr_gpr : (s.setGdtr v).gpr = s.gpr := rfl
@[simp] theorem State.setGdtr_rip : (s.setGdtr v).rip = s.rip := rfl
@[simp] theorem State.setGdtr_nextRip : (s.setGdtr v).nextRip = s.nextRip := rfl
@[simp] theorem State.setGdtr_rflags : (s.setGdtr v).rflags = s.rflags := rfl
@[simp] theorem State.setGdtr_cr0 : (s.setGdtr v).cr0 = s.cr0 := rfl
@[simp] theorem State.setGdtr_cr2 : (s.setGdtr v).cr2 = s.cr2 := rfl
@[simp] theorem State.setGdtr_cr3 : (s.setGdtr v).cr3 = s.cr3 := rfl
@[simp] theorem State.setGdtr_cr4 : (s.setGdtr v).cr4 = s.cr4 := rfl
@[simp] theorem State.setGdtr_cr8 : (s.setGdtr v).cr8 = s.cr8 := rfl
@[simp] theorem State.setGdtr_efer : (s.setGdtr v).efer = s.efer := rfl
@[simp] theorem State.setGdtr_xcr0 : (s.setGdtr v).xcr0 = s.xcr0 := rfl
@[simp] theorem State.setGdtr_cs : (s.setGdtr v).cs = s.cs := rfl
@[simp] theorem State.setGdtr_ss : (s.setGdtr v).ss = s.ss := rfl
@[simp] theorem State.setGdtr_ds : (s.setGdtr v).ds = s.ds := rfl
@[simp] theorem State.setGdtr_es : (s.setGdtr v).es = s.es := rfl
@[simp] theorem State.setGdtr_fs : (s.setGdtr v).fs = s.fs := rfl
@[simp] theorem State.setGdtr_gs : (s.setGdtr v).gs = s.gs := rfl
@[simp] theorem State.setGdtr_gdtr : (s.setGdtr v).gdtr = v := rfl
@[simp] theorem State.setGdtr_idtr : (s.setGdtr v).idtr = s.idtr := rfl
@[simp] theorem State.setGdtr_ldtr : (s.setGdtr v).ldtr = s.ldtr := rfl
@[simp] theorem State.setGdtr_tr : (s.setGdtr v).tr = s.tr := rfl
@[simp] theorem State.setGdtr_dbg : (s.setGdtr v).dbg = s.dbg := rfl
@[simp] theorem State.setGdtr_fpu : (s.setGdtr v).fpu = s.fpu := rfl
@[simp] theorem State.setGdtr_sys : (s.setGdtr v).sys = s.sys := rfl
@[simp] theorem State.setGdtr_cet : (s.setGdtr v).cet = s.cet := rfl
@[simp] theorem State.setGdtr_plat : (s.setGdtr v).plat = s.plat := rfl
@[simp] theorem State.setGdtr_cnt : (s.setGdtr v).cnt = s.cnt := rfl
@[simp] theorem State.setGdtr_nmiBlocked : (s.setGdtr v).nmiBlocked = s.nmiBlocked := rfl
@[simp] theorem State.setGdtr_movSsBlocked : (s.setGdtr v).movSsBlocked = s.movSsBlocked := rfl
@[simp] theorem State.setGdtr_stiBlocked : (s.setGdtr v).stiBlocked = s.stiBlocked := rfl
@[simp] theorem State.setGdtr_dbPending : (s.setGdtr v).dbPending = s.dbPending := rfl
@[simp] theorem State.setGdtr_bpHits : (s.setGdtr v).bpHits = s.bpHits := rfl
@[simp] theorem State.setGdtr_activity : (s.setGdtr v).activity = s.activity := rfl
@[simp] theorem State.setGdtr_smx : (s.setGdtr v).smx = s.smx := rfl
@[simp] theorem State.setGdtr_acram : (s.setGdtr v).acram = s.acram := rfl
@[simp] theorem State.setGdtr_txt : (s.setGdtr v).txt = s.txt := rfl
@[simp] theorem State.setGdtr_vmx : (s.setGdtr v).vmx = s.vmx := rfl
@[simp] theorem State.setGdtr_inSmm : (s.setGdtr v).inSmm = s.inSmm := rfl
@[simp] theorem State.setGdtr_inSeam : (s.setGdtr v).inSeam = s.inSeam := rfl
@[simp] theorem State.setGdtr_smmSave : (s.setGdtr v).smmSave = s.smmSave := rfl
@[simp] theorem State.setGdtr_biosDone : (s.setGdtr v).biosDone = s.biosDone := rfl
@[simp] theorem State.setGdtr_pending : (s.setGdtr v).pending = s.pending := rfl
@[simp] theorem State.setGdtr_portWrites : (s.setGdtr v).portWrites = s.portWrites := rfl
@[simp] theorem State.setGdtr_apicWrites : (s.setGdtr v).apicWrites = s.apicWrites := rfl
@[simp] theorem State.setGdtr_tlb : (s.setGdtr v).tlb = s.tlb := rfl
@[simp] theorem State.setGdtr_stored : (s.setGdtr v).stored = s.stored := rfl
@[simp] theorem State.setGdtr_draws : (s.setGdtr v).draws = s.draws := rfl
@[simp] theorem State.setGdtr_mem : (s.setGdtr v).mem = s.mem := rfl
end Gdtr

section Idtr
variable (v : TableReg)
@[simp] theorem State.setIdtr_cfg : (s.setIdtr v).cfg = s.cfg := rfl
@[simp] theorem State.setIdtr_gpr : (s.setIdtr v).gpr = s.gpr := rfl
@[simp] theorem State.setIdtr_rip : (s.setIdtr v).rip = s.rip := rfl
@[simp] theorem State.setIdtr_nextRip : (s.setIdtr v).nextRip = s.nextRip := rfl
@[simp] theorem State.setIdtr_rflags : (s.setIdtr v).rflags = s.rflags := rfl
@[simp] theorem State.setIdtr_cr0 : (s.setIdtr v).cr0 = s.cr0 := rfl
@[simp] theorem State.setIdtr_cr2 : (s.setIdtr v).cr2 = s.cr2 := rfl
@[simp] theorem State.setIdtr_cr3 : (s.setIdtr v).cr3 = s.cr3 := rfl
@[simp] theorem State.setIdtr_cr4 : (s.setIdtr v).cr4 = s.cr4 := rfl
@[simp] theorem State.setIdtr_cr8 : (s.setIdtr v).cr8 = s.cr8 := rfl
@[simp] theorem State.setIdtr_efer : (s.setIdtr v).efer = s.efer := rfl
@[simp] theorem State.setIdtr_xcr0 : (s.setIdtr v).xcr0 = s.xcr0 := rfl
@[simp] theorem State.setIdtr_cs : (s.setIdtr v).cs = s.cs := rfl
@[simp] theorem State.setIdtr_ss : (s.setIdtr v).ss = s.ss := rfl
@[simp] theorem State.setIdtr_ds : (s.setIdtr v).ds = s.ds := rfl
@[simp] theorem State.setIdtr_es : (s.setIdtr v).es = s.es := rfl
@[simp] theorem State.setIdtr_fs : (s.setIdtr v).fs = s.fs := rfl
@[simp] theorem State.setIdtr_gs : (s.setIdtr v).gs = s.gs := rfl
@[simp] theorem State.setIdtr_gdtr : (s.setIdtr v).gdtr = s.gdtr := rfl
@[simp] theorem State.setIdtr_idtr : (s.setIdtr v).idtr = v := rfl
@[simp] theorem State.setIdtr_ldtr : (s.setIdtr v).ldtr = s.ldtr := rfl
@[simp] theorem State.setIdtr_tr : (s.setIdtr v).tr = s.tr := rfl
@[simp] theorem State.setIdtr_dbg : (s.setIdtr v).dbg = s.dbg := rfl
@[simp] theorem State.setIdtr_fpu : (s.setIdtr v).fpu = s.fpu := rfl
@[simp] theorem State.setIdtr_sys : (s.setIdtr v).sys = s.sys := rfl
@[simp] theorem State.setIdtr_cet : (s.setIdtr v).cet = s.cet := rfl
@[simp] theorem State.setIdtr_plat : (s.setIdtr v).plat = s.plat := rfl
@[simp] theorem State.setIdtr_cnt : (s.setIdtr v).cnt = s.cnt := rfl
@[simp] theorem State.setIdtr_nmiBlocked : (s.setIdtr v).nmiBlocked = s.nmiBlocked := rfl
@[simp] theorem State.setIdtr_movSsBlocked : (s.setIdtr v).movSsBlocked = s.movSsBlocked := rfl
@[simp] theorem State.setIdtr_stiBlocked : (s.setIdtr v).stiBlocked = s.stiBlocked := rfl
@[simp] theorem State.setIdtr_dbPending : (s.setIdtr v).dbPending = s.dbPending := rfl
@[simp] theorem State.setIdtr_bpHits : (s.setIdtr v).bpHits = s.bpHits := rfl
@[simp] theorem State.setIdtr_activity : (s.setIdtr v).activity = s.activity := rfl
@[simp] theorem State.setIdtr_smx : (s.setIdtr v).smx = s.smx := rfl
@[simp] theorem State.setIdtr_acram : (s.setIdtr v).acram = s.acram := rfl
@[simp] theorem State.setIdtr_txt : (s.setIdtr v).txt = s.txt := rfl
@[simp] theorem State.setIdtr_vmx : (s.setIdtr v).vmx = s.vmx := rfl
@[simp] theorem State.setIdtr_inSmm : (s.setIdtr v).inSmm = s.inSmm := rfl
@[simp] theorem State.setIdtr_inSeam : (s.setIdtr v).inSeam = s.inSeam := rfl
@[simp] theorem State.setIdtr_smmSave : (s.setIdtr v).smmSave = s.smmSave := rfl
@[simp] theorem State.setIdtr_biosDone : (s.setIdtr v).biosDone = s.biosDone := rfl
@[simp] theorem State.setIdtr_pending : (s.setIdtr v).pending = s.pending := rfl
@[simp] theorem State.setIdtr_portWrites : (s.setIdtr v).portWrites = s.portWrites := rfl
@[simp] theorem State.setIdtr_apicWrites : (s.setIdtr v).apicWrites = s.apicWrites := rfl
@[simp] theorem State.setIdtr_tlb : (s.setIdtr v).tlb = s.tlb := rfl
@[simp] theorem State.setIdtr_stored : (s.setIdtr v).stored = s.stored := rfl
@[simp] theorem State.setIdtr_draws : (s.setIdtr v).draws = s.draws := rfl
@[simp] theorem State.setIdtr_mem : (s.setIdtr v).mem = s.mem := rfl
end Idtr

section Ldtr
variable (v : SysReg)
@[simp] theorem State.setLdtr_cfg : (s.setLdtr v).cfg = s.cfg := rfl
@[simp] theorem State.setLdtr_gpr : (s.setLdtr v).gpr = s.gpr := rfl
@[simp] theorem State.setLdtr_rip : (s.setLdtr v).rip = s.rip := rfl
@[simp] theorem State.setLdtr_nextRip : (s.setLdtr v).nextRip = s.nextRip := rfl
@[simp] theorem State.setLdtr_rflags : (s.setLdtr v).rflags = s.rflags := rfl
@[simp] theorem State.setLdtr_cr0 : (s.setLdtr v).cr0 = s.cr0 := rfl
@[simp] theorem State.setLdtr_cr2 : (s.setLdtr v).cr2 = s.cr2 := rfl
@[simp] theorem State.setLdtr_cr3 : (s.setLdtr v).cr3 = s.cr3 := rfl
@[simp] theorem State.setLdtr_cr4 : (s.setLdtr v).cr4 = s.cr4 := rfl
@[simp] theorem State.setLdtr_cr8 : (s.setLdtr v).cr8 = s.cr8 := rfl
@[simp] theorem State.setLdtr_efer : (s.setLdtr v).efer = s.efer := rfl
@[simp] theorem State.setLdtr_xcr0 : (s.setLdtr v).xcr0 = s.xcr0 := rfl
@[simp] theorem State.setLdtr_cs : (s.setLdtr v).cs = s.cs := rfl
@[simp] theorem State.setLdtr_ss : (s.setLdtr v).ss = s.ss := rfl
@[simp] theorem State.setLdtr_ds : (s.setLdtr v).ds = s.ds := rfl
@[simp] theorem State.setLdtr_es : (s.setLdtr v).es = s.es := rfl
@[simp] theorem State.setLdtr_fs : (s.setLdtr v).fs = s.fs := rfl
@[simp] theorem State.setLdtr_gs : (s.setLdtr v).gs = s.gs := rfl
@[simp] theorem State.setLdtr_gdtr : (s.setLdtr v).gdtr = s.gdtr := rfl
@[simp] theorem State.setLdtr_idtr : (s.setLdtr v).idtr = s.idtr := rfl
@[simp] theorem State.setLdtr_ldtr : (s.setLdtr v).ldtr = v := rfl
@[simp] theorem State.setLdtr_tr : (s.setLdtr v).tr = s.tr := rfl
@[simp] theorem State.setLdtr_dbg : (s.setLdtr v).dbg = s.dbg := rfl
@[simp] theorem State.setLdtr_fpu : (s.setLdtr v).fpu = s.fpu := rfl
@[simp] theorem State.setLdtr_sys : (s.setLdtr v).sys = s.sys := rfl
@[simp] theorem State.setLdtr_cet : (s.setLdtr v).cet = s.cet := rfl
@[simp] theorem State.setLdtr_plat : (s.setLdtr v).plat = s.plat := rfl
@[simp] theorem State.setLdtr_cnt : (s.setLdtr v).cnt = s.cnt := rfl
@[simp] theorem State.setLdtr_nmiBlocked : (s.setLdtr v).nmiBlocked = s.nmiBlocked := rfl
@[simp] theorem State.setLdtr_movSsBlocked : (s.setLdtr v).movSsBlocked = s.movSsBlocked := rfl
@[simp] theorem State.setLdtr_stiBlocked : (s.setLdtr v).stiBlocked = s.stiBlocked := rfl
@[simp] theorem State.setLdtr_dbPending : (s.setLdtr v).dbPending = s.dbPending := rfl
@[simp] theorem State.setLdtr_bpHits : (s.setLdtr v).bpHits = s.bpHits := rfl
@[simp] theorem State.setLdtr_activity : (s.setLdtr v).activity = s.activity := rfl
@[simp] theorem State.setLdtr_smx : (s.setLdtr v).smx = s.smx := rfl
@[simp] theorem State.setLdtr_acram : (s.setLdtr v).acram = s.acram := rfl
@[simp] theorem State.setLdtr_txt : (s.setLdtr v).txt = s.txt := rfl
@[simp] theorem State.setLdtr_vmx : (s.setLdtr v).vmx = s.vmx := rfl
@[simp] theorem State.setLdtr_inSmm : (s.setLdtr v).inSmm = s.inSmm := rfl
@[simp] theorem State.setLdtr_inSeam : (s.setLdtr v).inSeam = s.inSeam := rfl
@[simp] theorem State.setLdtr_smmSave : (s.setLdtr v).smmSave = s.smmSave := rfl
@[simp] theorem State.setLdtr_biosDone : (s.setLdtr v).biosDone = s.biosDone := rfl
@[simp] theorem State.setLdtr_pending : (s.setLdtr v).pending = s.pending := rfl
@[simp] theorem State.setLdtr_portWrites : (s.setLdtr v).portWrites = s.portWrites := rfl
@[simp] theorem State.setLdtr_apicWrites : (s.setLdtr v).apicWrites = s.apicWrites := rfl
@[simp] theorem State.setLdtr_tlb : (s.setLdtr v).tlb = s.tlb := rfl
@[simp] theorem State.setLdtr_stored : (s.setLdtr v).stored = s.stored := rfl
@[simp] theorem State.setLdtr_draws : (s.setLdtr v).draws = s.draws := rfl
@[simp] theorem State.setLdtr_mem : (s.setLdtr v).mem = s.mem := rfl
end Ldtr

section Tr
variable (v : SysReg)
@[simp] theorem State.setTr_cfg : (s.setTr v).cfg = s.cfg := rfl
@[simp] theorem State.setTr_gpr : (s.setTr v).gpr = s.gpr := rfl
@[simp] theorem State.setTr_rip : (s.setTr v).rip = s.rip := rfl
@[simp] theorem State.setTr_nextRip : (s.setTr v).nextRip = s.nextRip := rfl
@[simp] theorem State.setTr_rflags : (s.setTr v).rflags = s.rflags := rfl
@[simp] theorem State.setTr_cr0 : (s.setTr v).cr0 = s.cr0 := rfl
@[simp] theorem State.setTr_cr2 : (s.setTr v).cr2 = s.cr2 := rfl
@[simp] theorem State.setTr_cr3 : (s.setTr v).cr3 = s.cr3 := rfl
@[simp] theorem State.setTr_cr4 : (s.setTr v).cr4 = s.cr4 := rfl
@[simp] theorem State.setTr_cr8 : (s.setTr v).cr8 = s.cr8 := rfl
@[simp] theorem State.setTr_efer : (s.setTr v).efer = s.efer := rfl
@[simp] theorem State.setTr_xcr0 : (s.setTr v).xcr0 = s.xcr0 := rfl
@[simp] theorem State.setTr_cs : (s.setTr v).cs = s.cs := rfl
@[simp] theorem State.setTr_ss : (s.setTr v).ss = s.ss := rfl
@[simp] theorem State.setTr_ds : (s.setTr v).ds = s.ds := rfl
@[simp] theorem State.setTr_es : (s.setTr v).es = s.es := rfl
@[simp] theorem State.setTr_fs : (s.setTr v).fs = s.fs := rfl
@[simp] theorem State.setTr_gs : (s.setTr v).gs = s.gs := rfl
@[simp] theorem State.setTr_gdtr : (s.setTr v).gdtr = s.gdtr := rfl
@[simp] theorem State.setTr_idtr : (s.setTr v).idtr = s.idtr := rfl
@[simp] theorem State.setTr_ldtr : (s.setTr v).ldtr = s.ldtr := rfl
@[simp] theorem State.setTr_tr : (s.setTr v).tr = v := rfl
@[simp] theorem State.setTr_dbg : (s.setTr v).dbg = s.dbg := rfl
@[simp] theorem State.setTr_fpu : (s.setTr v).fpu = s.fpu := rfl
@[simp] theorem State.setTr_sys : (s.setTr v).sys = s.sys := rfl
@[simp] theorem State.setTr_cet : (s.setTr v).cet = s.cet := rfl
@[simp] theorem State.setTr_plat : (s.setTr v).plat = s.plat := rfl
@[simp] theorem State.setTr_cnt : (s.setTr v).cnt = s.cnt := rfl
@[simp] theorem State.setTr_nmiBlocked : (s.setTr v).nmiBlocked = s.nmiBlocked := rfl
@[simp] theorem State.setTr_movSsBlocked : (s.setTr v).movSsBlocked = s.movSsBlocked := rfl
@[simp] theorem State.setTr_stiBlocked : (s.setTr v).stiBlocked = s.stiBlocked := rfl
@[simp] theorem State.setTr_dbPending : (s.setTr v).dbPending = s.dbPending := rfl
@[simp] theorem State.setTr_bpHits : (s.setTr v).bpHits = s.bpHits := rfl
@[simp] theorem State.setTr_activity : (s.setTr v).activity = s.activity := rfl
@[simp] theorem State.setTr_smx : (s.setTr v).smx = s.smx := rfl
@[simp] theorem State.setTr_acram : (s.setTr v).acram = s.acram := rfl
@[simp] theorem State.setTr_txt : (s.setTr v).txt = s.txt := rfl
@[simp] theorem State.setTr_vmx : (s.setTr v).vmx = s.vmx := rfl
@[simp] theorem State.setTr_inSmm : (s.setTr v).inSmm = s.inSmm := rfl
@[simp] theorem State.setTr_inSeam : (s.setTr v).inSeam = s.inSeam := rfl
@[simp] theorem State.setTr_smmSave : (s.setTr v).smmSave = s.smmSave := rfl
@[simp] theorem State.setTr_biosDone : (s.setTr v).biosDone = s.biosDone := rfl
@[simp] theorem State.setTr_pending : (s.setTr v).pending = s.pending := rfl
@[simp] theorem State.setTr_portWrites : (s.setTr v).portWrites = s.portWrites := rfl
@[simp] theorem State.setTr_apicWrites : (s.setTr v).apicWrites = s.apicWrites := rfl
@[simp] theorem State.setTr_tlb : (s.setTr v).tlb = s.tlb := rfl
@[simp] theorem State.setTr_stored : (s.setTr v).stored = s.stored := rfl
@[simp] theorem State.setTr_draws : (s.setTr v).draws = s.draws := rfl
@[simp] theorem State.setTr_mem : (s.setTr v).mem = s.mem := rfl
end Tr

section Dbg
variable (v : DebugRegs)
@[simp] theorem State.setDbg_cfg : (s.setDbg v).cfg = s.cfg := rfl
@[simp] theorem State.setDbg_gpr : (s.setDbg v).gpr = s.gpr := rfl
@[simp] theorem State.setDbg_rip : (s.setDbg v).rip = s.rip := rfl
@[simp] theorem State.setDbg_nextRip : (s.setDbg v).nextRip = s.nextRip := rfl
@[simp] theorem State.setDbg_rflags : (s.setDbg v).rflags = s.rflags := rfl
@[simp] theorem State.setDbg_cr0 : (s.setDbg v).cr0 = s.cr0 := rfl
@[simp] theorem State.setDbg_cr2 : (s.setDbg v).cr2 = s.cr2 := rfl
@[simp] theorem State.setDbg_cr3 : (s.setDbg v).cr3 = s.cr3 := rfl
@[simp] theorem State.setDbg_cr4 : (s.setDbg v).cr4 = s.cr4 := rfl
@[simp] theorem State.setDbg_cr8 : (s.setDbg v).cr8 = s.cr8 := rfl
@[simp] theorem State.setDbg_efer : (s.setDbg v).efer = s.efer := rfl
@[simp] theorem State.setDbg_xcr0 : (s.setDbg v).xcr0 = s.xcr0 := rfl
@[simp] theorem State.setDbg_cs : (s.setDbg v).cs = s.cs := rfl
@[simp] theorem State.setDbg_ss : (s.setDbg v).ss = s.ss := rfl
@[simp] theorem State.setDbg_ds : (s.setDbg v).ds = s.ds := rfl
@[simp] theorem State.setDbg_es : (s.setDbg v).es = s.es := rfl
@[simp] theorem State.setDbg_fs : (s.setDbg v).fs = s.fs := rfl
@[simp] theorem State.setDbg_gs : (s.setDbg v).gs = s.gs := rfl
@[simp] theorem State.setDbg_gdtr : (s.setDbg v).gdtr = s.gdtr := rfl
@[simp] theorem State.setDbg_idtr : (s.setDbg v).idtr = s.idtr := rfl
@[simp] theorem State.setDbg_ldtr : (s.setDbg v).ldtr = s.ldtr := rfl
@[simp] theorem State.setDbg_tr : (s.setDbg v).tr = s.tr := rfl
@[simp] theorem State.setDbg_dbg : (s.setDbg v).dbg = v := rfl
@[simp] theorem State.setDbg_fpu : (s.setDbg v).fpu = s.fpu := rfl
@[simp] theorem State.setDbg_sys : (s.setDbg v).sys = s.sys := rfl
@[simp] theorem State.setDbg_cet : (s.setDbg v).cet = s.cet := rfl
@[simp] theorem State.setDbg_plat : (s.setDbg v).plat = s.plat := rfl
@[simp] theorem State.setDbg_cnt : (s.setDbg v).cnt = s.cnt := rfl
@[simp] theorem State.setDbg_nmiBlocked : (s.setDbg v).nmiBlocked = s.nmiBlocked := rfl
@[simp] theorem State.setDbg_movSsBlocked : (s.setDbg v).movSsBlocked = s.movSsBlocked := rfl
@[simp] theorem State.setDbg_stiBlocked : (s.setDbg v).stiBlocked = s.stiBlocked := rfl
@[simp] theorem State.setDbg_dbPending : (s.setDbg v).dbPending = s.dbPending := rfl
@[simp] theorem State.setDbg_bpHits : (s.setDbg v).bpHits = s.bpHits := rfl
@[simp] theorem State.setDbg_activity : (s.setDbg v).activity = s.activity := rfl
@[simp] theorem State.setDbg_smx : (s.setDbg v).smx = s.smx := rfl
@[simp] theorem State.setDbg_acram : (s.setDbg v).acram = s.acram := rfl
@[simp] theorem State.setDbg_txt : (s.setDbg v).txt = s.txt := rfl
@[simp] theorem State.setDbg_vmx : (s.setDbg v).vmx = s.vmx := rfl
@[simp] theorem State.setDbg_inSmm : (s.setDbg v).inSmm = s.inSmm := rfl
@[simp] theorem State.setDbg_inSeam : (s.setDbg v).inSeam = s.inSeam := rfl
@[simp] theorem State.setDbg_smmSave : (s.setDbg v).smmSave = s.smmSave := rfl
@[simp] theorem State.setDbg_biosDone : (s.setDbg v).biosDone = s.biosDone := rfl
@[simp] theorem State.setDbg_pending : (s.setDbg v).pending = s.pending := rfl
@[simp] theorem State.setDbg_portWrites : (s.setDbg v).portWrites = s.portWrites := rfl
@[simp] theorem State.setDbg_apicWrites : (s.setDbg v).apicWrites = s.apicWrites := rfl
@[simp] theorem State.setDbg_tlb : (s.setDbg v).tlb = s.tlb := rfl
@[simp] theorem State.setDbg_stored : (s.setDbg v).stored = s.stored := rfl
@[simp] theorem State.setDbg_draws : (s.setDbg v).draws = s.draws := rfl
@[simp] theorem State.setDbg_mem : (s.setDbg v).mem = s.mem := rfl
end Dbg

section Fpu
variable (v : Fpu)
@[simp] theorem State.setFpu_cfg : (s.setFpu v).cfg = s.cfg := rfl
@[simp] theorem State.setFpu_gpr : (s.setFpu v).gpr = s.gpr := rfl
@[simp] theorem State.setFpu_rip : (s.setFpu v).rip = s.rip := rfl
@[simp] theorem State.setFpu_nextRip : (s.setFpu v).nextRip = s.nextRip := rfl
@[simp] theorem State.setFpu_rflags : (s.setFpu v).rflags = s.rflags := rfl
@[simp] theorem State.setFpu_cr0 : (s.setFpu v).cr0 = s.cr0 := rfl
@[simp] theorem State.setFpu_cr2 : (s.setFpu v).cr2 = s.cr2 := rfl
@[simp] theorem State.setFpu_cr3 : (s.setFpu v).cr3 = s.cr3 := rfl
@[simp] theorem State.setFpu_cr4 : (s.setFpu v).cr4 = s.cr4 := rfl
@[simp] theorem State.setFpu_cr8 : (s.setFpu v).cr8 = s.cr8 := rfl
@[simp] theorem State.setFpu_efer : (s.setFpu v).efer = s.efer := rfl
@[simp] theorem State.setFpu_xcr0 : (s.setFpu v).xcr0 = s.xcr0 := rfl
@[simp] theorem State.setFpu_cs : (s.setFpu v).cs = s.cs := rfl
@[simp] theorem State.setFpu_ss : (s.setFpu v).ss = s.ss := rfl
@[simp] theorem State.setFpu_ds : (s.setFpu v).ds = s.ds := rfl
@[simp] theorem State.setFpu_es : (s.setFpu v).es = s.es := rfl
@[simp] theorem State.setFpu_fs : (s.setFpu v).fs = s.fs := rfl
@[simp] theorem State.setFpu_gs : (s.setFpu v).gs = s.gs := rfl
@[simp] theorem State.setFpu_gdtr : (s.setFpu v).gdtr = s.gdtr := rfl
@[simp] theorem State.setFpu_idtr : (s.setFpu v).idtr = s.idtr := rfl
@[simp] theorem State.setFpu_ldtr : (s.setFpu v).ldtr = s.ldtr := rfl
@[simp] theorem State.setFpu_tr : (s.setFpu v).tr = s.tr := rfl
@[simp] theorem State.setFpu_dbg : (s.setFpu v).dbg = s.dbg := rfl
@[simp] theorem State.setFpu_fpu : (s.setFpu v).fpu = v := rfl
@[simp] theorem State.setFpu_sys : (s.setFpu v).sys = s.sys := rfl
@[simp] theorem State.setFpu_cet : (s.setFpu v).cet = s.cet := rfl
@[simp] theorem State.setFpu_plat : (s.setFpu v).plat = s.plat := rfl
@[simp] theorem State.setFpu_cnt : (s.setFpu v).cnt = s.cnt := rfl
@[simp] theorem State.setFpu_nmiBlocked : (s.setFpu v).nmiBlocked = s.nmiBlocked := rfl
@[simp] theorem State.setFpu_movSsBlocked : (s.setFpu v).movSsBlocked = s.movSsBlocked := rfl
@[simp] theorem State.setFpu_stiBlocked : (s.setFpu v).stiBlocked = s.stiBlocked := rfl
@[simp] theorem State.setFpu_dbPending : (s.setFpu v).dbPending = s.dbPending := rfl
@[simp] theorem State.setFpu_bpHits : (s.setFpu v).bpHits = s.bpHits := rfl
@[simp] theorem State.setFpu_activity : (s.setFpu v).activity = s.activity := rfl
@[simp] theorem State.setFpu_smx : (s.setFpu v).smx = s.smx := rfl
@[simp] theorem State.setFpu_acram : (s.setFpu v).acram = s.acram := rfl
@[simp] theorem State.setFpu_txt : (s.setFpu v).txt = s.txt := rfl
@[simp] theorem State.setFpu_vmx : (s.setFpu v).vmx = s.vmx := rfl
@[simp] theorem State.setFpu_inSmm : (s.setFpu v).inSmm = s.inSmm := rfl
@[simp] theorem State.setFpu_inSeam : (s.setFpu v).inSeam = s.inSeam := rfl
@[simp] theorem State.setFpu_smmSave : (s.setFpu v).smmSave = s.smmSave := rfl
@[simp] theorem State.setFpu_biosDone : (s.setFpu v).biosDone = s.biosDone := rfl
@[simp] theorem State.setFpu_pending : (s.setFpu v).pending = s.pending := rfl
@[simp] theorem State.setFpu_portWrites : (s.setFpu v).portWrites = s.portWrites := rfl
@[simp] theorem State.setFpu_apicWrites : (s.setFpu v).apicWrites = s.apicWrites := rfl
@[simp] theorem State.setFpu_tlb : (s.setFpu v).tlb = s.tlb := rfl
@[simp] theorem State.setFpu_stored : (s.setFpu v).stored = s.stored := rfl
@[simp] theorem State.setFpu_draws : (s.setFpu v).draws = s.draws := rfl
@[simp] theorem State.setFpu_mem : (s.setFpu v).mem = s.mem := rfl
end Fpu

section Sys
variable (v : SyscallMsrs)
@[simp] theorem State.setSys_cfg : (s.setSys v).cfg = s.cfg := rfl
@[simp] theorem State.setSys_gpr : (s.setSys v).gpr = s.gpr := rfl
@[simp] theorem State.setSys_rip : (s.setSys v).rip = s.rip := rfl
@[simp] theorem State.setSys_nextRip : (s.setSys v).nextRip = s.nextRip := rfl
@[simp] theorem State.setSys_rflags : (s.setSys v).rflags = s.rflags := rfl
@[simp] theorem State.setSys_cr0 : (s.setSys v).cr0 = s.cr0 := rfl
@[simp] theorem State.setSys_cr2 : (s.setSys v).cr2 = s.cr2 := rfl
@[simp] theorem State.setSys_cr3 : (s.setSys v).cr3 = s.cr3 := rfl
@[simp] theorem State.setSys_cr4 : (s.setSys v).cr4 = s.cr4 := rfl
@[simp] theorem State.setSys_cr8 : (s.setSys v).cr8 = s.cr8 := rfl
@[simp] theorem State.setSys_efer : (s.setSys v).efer = s.efer := rfl
@[simp] theorem State.setSys_xcr0 : (s.setSys v).xcr0 = s.xcr0 := rfl
@[simp] theorem State.setSys_cs : (s.setSys v).cs = s.cs := rfl
@[simp] theorem State.setSys_ss : (s.setSys v).ss = s.ss := rfl
@[simp] theorem State.setSys_ds : (s.setSys v).ds = s.ds := rfl
@[simp] theorem State.setSys_es : (s.setSys v).es = s.es := rfl
@[simp] theorem State.setSys_fs : (s.setSys v).fs = s.fs := rfl
@[simp] theorem State.setSys_gs : (s.setSys v).gs = s.gs := rfl
@[simp] theorem State.setSys_gdtr : (s.setSys v).gdtr = s.gdtr := rfl
@[simp] theorem State.setSys_idtr : (s.setSys v).idtr = s.idtr := rfl
@[simp] theorem State.setSys_ldtr : (s.setSys v).ldtr = s.ldtr := rfl
@[simp] theorem State.setSys_tr : (s.setSys v).tr = s.tr := rfl
@[simp] theorem State.setSys_dbg : (s.setSys v).dbg = s.dbg := rfl
@[simp] theorem State.setSys_fpu : (s.setSys v).fpu = s.fpu := rfl
@[simp] theorem State.setSys_sys : (s.setSys v).sys = v := rfl
@[simp] theorem State.setSys_cet : (s.setSys v).cet = s.cet := rfl
@[simp] theorem State.setSys_plat : (s.setSys v).plat = s.plat := rfl
@[simp] theorem State.setSys_cnt : (s.setSys v).cnt = s.cnt := rfl
@[simp] theorem State.setSys_nmiBlocked : (s.setSys v).nmiBlocked = s.nmiBlocked := rfl
@[simp] theorem State.setSys_movSsBlocked : (s.setSys v).movSsBlocked = s.movSsBlocked := rfl
@[simp] theorem State.setSys_stiBlocked : (s.setSys v).stiBlocked = s.stiBlocked := rfl
@[simp] theorem State.setSys_dbPending : (s.setSys v).dbPending = s.dbPending := rfl
@[simp] theorem State.setSys_bpHits : (s.setSys v).bpHits = s.bpHits := rfl
@[simp] theorem State.setSys_activity : (s.setSys v).activity = s.activity := rfl
@[simp] theorem State.setSys_smx : (s.setSys v).smx = s.smx := rfl
@[simp] theorem State.setSys_acram : (s.setSys v).acram = s.acram := rfl
@[simp] theorem State.setSys_txt : (s.setSys v).txt = s.txt := rfl
@[simp] theorem State.setSys_vmx : (s.setSys v).vmx = s.vmx := rfl
@[simp] theorem State.setSys_inSmm : (s.setSys v).inSmm = s.inSmm := rfl
@[simp] theorem State.setSys_inSeam : (s.setSys v).inSeam = s.inSeam := rfl
@[simp] theorem State.setSys_smmSave : (s.setSys v).smmSave = s.smmSave := rfl
@[simp] theorem State.setSys_biosDone : (s.setSys v).biosDone = s.biosDone := rfl
@[simp] theorem State.setSys_pending : (s.setSys v).pending = s.pending := rfl
@[simp] theorem State.setSys_portWrites : (s.setSys v).portWrites = s.portWrites := rfl
@[simp] theorem State.setSys_apicWrites : (s.setSys v).apicWrites = s.apicWrites := rfl
@[simp] theorem State.setSys_tlb : (s.setSys v).tlb = s.tlb := rfl
@[simp] theorem State.setSys_stored : (s.setSys v).stored = s.stored := rfl
@[simp] theorem State.setSys_draws : (s.setSys v).draws = s.draws := rfl
@[simp] theorem State.setSys_mem : (s.setSys v).mem = s.mem := rfl
end Sys

section Cet
variable (v : CetState)
@[simp] theorem State.setCet_cfg : (s.setCet v).cfg = s.cfg := rfl
@[simp] theorem State.setCet_gpr : (s.setCet v).gpr = s.gpr := rfl
@[simp] theorem State.setCet_rip : (s.setCet v).rip = s.rip := rfl
@[simp] theorem State.setCet_nextRip : (s.setCet v).nextRip = s.nextRip := rfl
@[simp] theorem State.setCet_rflags : (s.setCet v).rflags = s.rflags := rfl
@[simp] theorem State.setCet_cr0 : (s.setCet v).cr0 = s.cr0 := rfl
@[simp] theorem State.setCet_cr2 : (s.setCet v).cr2 = s.cr2 := rfl
@[simp] theorem State.setCet_cr3 : (s.setCet v).cr3 = s.cr3 := rfl
@[simp] theorem State.setCet_cr4 : (s.setCet v).cr4 = s.cr4 := rfl
@[simp] theorem State.setCet_cr8 : (s.setCet v).cr8 = s.cr8 := rfl
@[simp] theorem State.setCet_efer : (s.setCet v).efer = s.efer := rfl
@[simp] theorem State.setCet_xcr0 : (s.setCet v).xcr0 = s.xcr0 := rfl
@[simp] theorem State.setCet_cs : (s.setCet v).cs = s.cs := rfl
@[simp] theorem State.setCet_ss : (s.setCet v).ss = s.ss := rfl
@[simp] theorem State.setCet_ds : (s.setCet v).ds = s.ds := rfl
@[simp] theorem State.setCet_es : (s.setCet v).es = s.es := rfl
@[simp] theorem State.setCet_fs : (s.setCet v).fs = s.fs := rfl
@[simp] theorem State.setCet_gs : (s.setCet v).gs = s.gs := rfl
@[simp] theorem State.setCet_gdtr : (s.setCet v).gdtr = s.gdtr := rfl
@[simp] theorem State.setCet_idtr : (s.setCet v).idtr = s.idtr := rfl
@[simp] theorem State.setCet_ldtr : (s.setCet v).ldtr = s.ldtr := rfl
@[simp] theorem State.setCet_tr : (s.setCet v).tr = s.tr := rfl
@[simp] theorem State.setCet_dbg : (s.setCet v).dbg = s.dbg := rfl
@[simp] theorem State.setCet_fpu : (s.setCet v).fpu = s.fpu := rfl
@[simp] theorem State.setCet_sys : (s.setCet v).sys = s.sys := rfl
@[simp] theorem State.setCet_cet : (s.setCet v).cet = v := rfl
@[simp] theorem State.setCet_plat : (s.setCet v).plat = s.plat := rfl
@[simp] theorem State.setCet_cnt : (s.setCet v).cnt = s.cnt := rfl
@[simp] theorem State.setCet_nmiBlocked : (s.setCet v).nmiBlocked = s.nmiBlocked := rfl
@[simp] theorem State.setCet_movSsBlocked : (s.setCet v).movSsBlocked = s.movSsBlocked := rfl
@[simp] theorem State.setCet_stiBlocked : (s.setCet v).stiBlocked = s.stiBlocked := rfl
@[simp] theorem State.setCet_dbPending : (s.setCet v).dbPending = s.dbPending := rfl
@[simp] theorem State.setCet_bpHits : (s.setCet v).bpHits = s.bpHits := rfl
@[simp] theorem State.setCet_activity : (s.setCet v).activity = s.activity := rfl
@[simp] theorem State.setCet_smx : (s.setCet v).smx = s.smx := rfl
@[simp] theorem State.setCet_acram : (s.setCet v).acram = s.acram := rfl
@[simp] theorem State.setCet_txt : (s.setCet v).txt = s.txt := rfl
@[simp] theorem State.setCet_vmx : (s.setCet v).vmx = s.vmx := rfl
@[simp] theorem State.setCet_inSmm : (s.setCet v).inSmm = s.inSmm := rfl
@[simp] theorem State.setCet_inSeam : (s.setCet v).inSeam = s.inSeam := rfl
@[simp] theorem State.setCet_smmSave : (s.setCet v).smmSave = s.smmSave := rfl
@[simp] theorem State.setCet_biosDone : (s.setCet v).biosDone = s.biosDone := rfl
@[simp] theorem State.setCet_pending : (s.setCet v).pending = s.pending := rfl
@[simp] theorem State.setCet_portWrites : (s.setCet v).portWrites = s.portWrites := rfl
@[simp] theorem State.setCet_apicWrites : (s.setCet v).apicWrites = s.apicWrites := rfl
@[simp] theorem State.setCet_tlb : (s.setCet v).tlb = s.tlb := rfl
@[simp] theorem State.setCet_stored : (s.setCet v).stored = s.stored := rfl
@[simp] theorem State.setCet_draws : (s.setCet v).draws = s.draws := rfl
@[simp] theorem State.setCet_mem : (s.setCet v).mem = s.mem := rfl
end Cet

section Plat
variable (v : PlatformMsrs)
@[simp] theorem State.setPlat_cfg : (s.setPlat v).cfg = s.cfg := rfl
@[simp] theorem State.setPlat_gpr : (s.setPlat v).gpr = s.gpr := rfl
@[simp] theorem State.setPlat_rip : (s.setPlat v).rip = s.rip := rfl
@[simp] theorem State.setPlat_nextRip : (s.setPlat v).nextRip = s.nextRip := rfl
@[simp] theorem State.setPlat_rflags : (s.setPlat v).rflags = s.rflags := rfl
@[simp] theorem State.setPlat_cr0 : (s.setPlat v).cr0 = s.cr0 := rfl
@[simp] theorem State.setPlat_cr2 : (s.setPlat v).cr2 = s.cr2 := rfl
@[simp] theorem State.setPlat_cr3 : (s.setPlat v).cr3 = s.cr3 := rfl
@[simp] theorem State.setPlat_cr4 : (s.setPlat v).cr4 = s.cr4 := rfl
@[simp] theorem State.setPlat_cr8 : (s.setPlat v).cr8 = s.cr8 := rfl
@[simp] theorem State.setPlat_efer : (s.setPlat v).efer = s.efer := rfl
@[simp] theorem State.setPlat_xcr0 : (s.setPlat v).xcr0 = s.xcr0 := rfl
@[simp] theorem State.setPlat_cs : (s.setPlat v).cs = s.cs := rfl
@[simp] theorem State.setPlat_ss : (s.setPlat v).ss = s.ss := rfl
@[simp] theorem State.setPlat_ds : (s.setPlat v).ds = s.ds := rfl
@[simp] theorem State.setPlat_es : (s.setPlat v).es = s.es := rfl
@[simp] theorem State.setPlat_fs : (s.setPlat v).fs = s.fs := rfl
@[simp] theorem State.setPlat_gs : (s.setPlat v).gs = s.gs := rfl
@[simp] theorem State.setPlat_gdtr : (s.setPlat v).gdtr = s.gdtr := rfl
@[simp] theorem State.setPlat_idtr : (s.setPlat v).idtr = s.idtr := rfl
@[simp] theorem State.setPlat_ldtr : (s.setPlat v).ldtr = s.ldtr := rfl
@[simp] theorem State.setPlat_tr : (s.setPlat v).tr = s.tr := rfl
@[simp] theorem State.setPlat_dbg : (s.setPlat v).dbg = s.dbg := rfl
@[simp] theorem State.setPlat_fpu : (s.setPlat v).fpu = s.fpu := rfl
@[simp] theorem State.setPlat_sys : (s.setPlat v).sys = s.sys := rfl
@[simp] theorem State.setPlat_cet : (s.setPlat v).cet = s.cet := rfl
@[simp] theorem State.setPlat_plat : (s.setPlat v).plat = v := rfl
@[simp] theorem State.setPlat_cnt : (s.setPlat v).cnt = s.cnt := rfl
@[simp] theorem State.setPlat_nmiBlocked : (s.setPlat v).nmiBlocked = s.nmiBlocked := rfl
@[simp] theorem State.setPlat_movSsBlocked : (s.setPlat v).movSsBlocked = s.movSsBlocked := rfl
@[simp] theorem State.setPlat_stiBlocked : (s.setPlat v).stiBlocked = s.stiBlocked := rfl
@[simp] theorem State.setPlat_dbPending : (s.setPlat v).dbPending = s.dbPending := rfl
@[simp] theorem State.setPlat_bpHits : (s.setPlat v).bpHits = s.bpHits := rfl
@[simp] theorem State.setPlat_activity : (s.setPlat v).activity = s.activity := rfl
@[simp] theorem State.setPlat_smx : (s.setPlat v).smx = s.smx := rfl
@[simp] theorem State.setPlat_acram : (s.setPlat v).acram = s.acram := rfl
@[simp] theorem State.setPlat_txt : (s.setPlat v).txt = s.txt := rfl
@[simp] theorem State.setPlat_vmx : (s.setPlat v).vmx = s.vmx := rfl
@[simp] theorem State.setPlat_inSmm : (s.setPlat v).inSmm = s.inSmm := rfl
@[simp] theorem State.setPlat_inSeam : (s.setPlat v).inSeam = s.inSeam := rfl
@[simp] theorem State.setPlat_smmSave : (s.setPlat v).smmSave = s.smmSave := rfl
@[simp] theorem State.setPlat_biosDone : (s.setPlat v).biosDone = s.biosDone := rfl
@[simp] theorem State.setPlat_pending : (s.setPlat v).pending = s.pending := rfl
@[simp] theorem State.setPlat_portWrites : (s.setPlat v).portWrites = s.portWrites := rfl
@[simp] theorem State.setPlat_apicWrites : (s.setPlat v).apicWrites = s.apicWrites := rfl
@[simp] theorem State.setPlat_tlb : (s.setPlat v).tlb = s.tlb := rfl
@[simp] theorem State.setPlat_stored : (s.setPlat v).stored = s.stored := rfl
@[simp] theorem State.setPlat_draws : (s.setPlat v).draws = s.draws := rfl
@[simp] theorem State.setPlat_mem : (s.setPlat v).mem = s.mem := rfl
end Plat

section Cnt
variable (v : CounterMsrs)
@[simp] theorem State.setCnt_cfg : (s.setCnt v).cfg = s.cfg := rfl
@[simp] theorem State.setCnt_gpr : (s.setCnt v).gpr = s.gpr := rfl
@[simp] theorem State.setCnt_rip : (s.setCnt v).rip = s.rip := rfl
@[simp] theorem State.setCnt_nextRip : (s.setCnt v).nextRip = s.nextRip := rfl
@[simp] theorem State.setCnt_rflags : (s.setCnt v).rflags = s.rflags := rfl
@[simp] theorem State.setCnt_cr0 : (s.setCnt v).cr0 = s.cr0 := rfl
@[simp] theorem State.setCnt_cr2 : (s.setCnt v).cr2 = s.cr2 := rfl
@[simp] theorem State.setCnt_cr3 : (s.setCnt v).cr3 = s.cr3 := rfl
@[simp] theorem State.setCnt_cr4 : (s.setCnt v).cr4 = s.cr4 := rfl
@[simp] theorem State.setCnt_cr8 : (s.setCnt v).cr8 = s.cr8 := rfl
@[simp] theorem State.setCnt_efer : (s.setCnt v).efer = s.efer := rfl
@[simp] theorem State.setCnt_xcr0 : (s.setCnt v).xcr0 = s.xcr0 := rfl
@[simp] theorem State.setCnt_cs : (s.setCnt v).cs = s.cs := rfl
@[simp] theorem State.setCnt_ss : (s.setCnt v).ss = s.ss := rfl
@[simp] theorem State.setCnt_ds : (s.setCnt v).ds = s.ds := rfl
@[simp] theorem State.setCnt_es : (s.setCnt v).es = s.es := rfl
@[simp] theorem State.setCnt_fs : (s.setCnt v).fs = s.fs := rfl
@[simp] theorem State.setCnt_gs : (s.setCnt v).gs = s.gs := rfl
@[simp] theorem State.setCnt_gdtr : (s.setCnt v).gdtr = s.gdtr := rfl
@[simp] theorem State.setCnt_idtr : (s.setCnt v).idtr = s.idtr := rfl
@[simp] theorem State.setCnt_ldtr : (s.setCnt v).ldtr = s.ldtr := rfl
@[simp] theorem State.setCnt_tr : (s.setCnt v).tr = s.tr := rfl
@[simp] theorem State.setCnt_dbg : (s.setCnt v).dbg = s.dbg := rfl
@[simp] theorem State.setCnt_fpu : (s.setCnt v).fpu = s.fpu := rfl
@[simp] theorem State.setCnt_sys : (s.setCnt v).sys = s.sys := rfl
@[simp] theorem State.setCnt_cet : (s.setCnt v).cet = s.cet := rfl
@[simp] theorem State.setCnt_plat : (s.setCnt v).plat = s.plat := rfl
@[simp] theorem State.setCnt_cnt : (s.setCnt v).cnt = v := rfl
@[simp] theorem State.setCnt_nmiBlocked : (s.setCnt v).nmiBlocked = s.nmiBlocked := rfl
@[simp] theorem State.setCnt_movSsBlocked : (s.setCnt v).movSsBlocked = s.movSsBlocked := rfl
@[simp] theorem State.setCnt_stiBlocked : (s.setCnt v).stiBlocked = s.stiBlocked := rfl
@[simp] theorem State.setCnt_dbPending : (s.setCnt v).dbPending = s.dbPending := rfl
@[simp] theorem State.setCnt_bpHits : (s.setCnt v).bpHits = s.bpHits := rfl
@[simp] theorem State.setCnt_activity : (s.setCnt v).activity = s.activity := rfl
@[simp] theorem State.setCnt_smx : (s.setCnt v).smx = s.smx := rfl
@[simp] theorem State.setCnt_acram : (s.setCnt v).acram = s.acram := rfl
@[simp] theorem State.setCnt_txt : (s.setCnt v).txt = s.txt := rfl
@[simp] theorem State.setCnt_vmx : (s.setCnt v).vmx = s.vmx := rfl
@[simp] theorem State.setCnt_inSmm : (s.setCnt v).inSmm = s.inSmm := rfl
@[simp] theorem State.setCnt_inSeam : (s.setCnt v).inSeam = s.inSeam := rfl
@[simp] theorem State.setCnt_smmSave : (s.setCnt v).smmSave = s.smmSave := rfl
@[simp] theorem State.setCnt_biosDone : (s.setCnt v).biosDone = s.biosDone := rfl
@[simp] theorem State.setCnt_pending : (s.setCnt v).pending = s.pending := rfl
@[simp] theorem State.setCnt_portWrites : (s.setCnt v).portWrites = s.portWrites := rfl
@[simp] theorem State.setCnt_apicWrites : (s.setCnt v).apicWrites = s.apicWrites := rfl
@[simp] theorem State.setCnt_tlb : (s.setCnt v).tlb = s.tlb := rfl
@[simp] theorem State.setCnt_stored : (s.setCnt v).stored = s.stored := rfl
@[simp] theorem State.setCnt_draws : (s.setCnt v).draws = s.draws := rfl
@[simp] theorem State.setCnt_mem : (s.setCnt v).mem = s.mem := rfl
end Cnt

section NmiBlocked
variable (v : Bool)
@[simp] theorem State.setNmiBlocked_cfg : (s.setNmiBlocked v).cfg = s.cfg := rfl
@[simp] theorem State.setNmiBlocked_gpr : (s.setNmiBlocked v).gpr = s.gpr := rfl
@[simp] theorem State.setNmiBlocked_rip : (s.setNmiBlocked v).rip = s.rip := rfl
@[simp] theorem State.setNmiBlocked_nextRip : (s.setNmiBlocked v).nextRip = s.nextRip := rfl
@[simp] theorem State.setNmiBlocked_rflags : (s.setNmiBlocked v).rflags = s.rflags := rfl
@[simp] theorem State.setNmiBlocked_cr0 : (s.setNmiBlocked v).cr0 = s.cr0 := rfl
@[simp] theorem State.setNmiBlocked_cr2 : (s.setNmiBlocked v).cr2 = s.cr2 := rfl
@[simp] theorem State.setNmiBlocked_cr3 : (s.setNmiBlocked v).cr3 = s.cr3 := rfl
@[simp] theorem State.setNmiBlocked_cr4 : (s.setNmiBlocked v).cr4 = s.cr4 := rfl
@[simp] theorem State.setNmiBlocked_cr8 : (s.setNmiBlocked v).cr8 = s.cr8 := rfl
@[simp] theorem State.setNmiBlocked_efer : (s.setNmiBlocked v).efer = s.efer := rfl
@[simp] theorem State.setNmiBlocked_xcr0 : (s.setNmiBlocked v).xcr0 = s.xcr0 := rfl
@[simp] theorem State.setNmiBlocked_cs : (s.setNmiBlocked v).cs = s.cs := rfl
@[simp] theorem State.setNmiBlocked_ss : (s.setNmiBlocked v).ss = s.ss := rfl
@[simp] theorem State.setNmiBlocked_ds : (s.setNmiBlocked v).ds = s.ds := rfl
@[simp] theorem State.setNmiBlocked_es : (s.setNmiBlocked v).es = s.es := rfl
@[simp] theorem State.setNmiBlocked_fs : (s.setNmiBlocked v).fs = s.fs := rfl
@[simp] theorem State.setNmiBlocked_gs : (s.setNmiBlocked v).gs = s.gs := rfl
@[simp] theorem State.setNmiBlocked_gdtr : (s.setNmiBlocked v).gdtr = s.gdtr := rfl
@[simp] theorem State.setNmiBlocked_idtr : (s.setNmiBlocked v).idtr = s.idtr := rfl
@[simp] theorem State.setNmiBlocked_ldtr : (s.setNmiBlocked v).ldtr = s.ldtr := rfl
@[simp] theorem State.setNmiBlocked_tr : (s.setNmiBlocked v).tr = s.tr := rfl
@[simp] theorem State.setNmiBlocked_dbg : (s.setNmiBlocked v).dbg = s.dbg := rfl
@[simp] theorem State.setNmiBlocked_fpu : (s.setNmiBlocked v).fpu = s.fpu := rfl
@[simp] theorem State.setNmiBlocked_sys : (s.setNmiBlocked v).sys = s.sys := rfl
@[simp] theorem State.setNmiBlocked_cet : (s.setNmiBlocked v).cet = s.cet := rfl
@[simp] theorem State.setNmiBlocked_plat : (s.setNmiBlocked v).plat = s.plat := rfl
@[simp] theorem State.setNmiBlocked_cnt : (s.setNmiBlocked v).cnt = s.cnt := rfl
@[simp] theorem State.setNmiBlocked_nmiBlocked : (s.setNmiBlocked v).nmiBlocked = v := rfl
@[simp] theorem State.setNmiBlocked_movSsBlocked : (s.setNmiBlocked v).movSsBlocked = s.movSsBlocked := rfl
@[simp] theorem State.setNmiBlocked_stiBlocked : (s.setNmiBlocked v).stiBlocked = s.stiBlocked := rfl
@[simp] theorem State.setNmiBlocked_dbPending : (s.setNmiBlocked v).dbPending = s.dbPending := rfl
@[simp] theorem State.setNmiBlocked_bpHits : (s.setNmiBlocked v).bpHits = s.bpHits := rfl
@[simp] theorem State.setNmiBlocked_activity : (s.setNmiBlocked v).activity = s.activity := rfl
@[simp] theorem State.setNmiBlocked_smx : (s.setNmiBlocked v).smx = s.smx := rfl
@[simp] theorem State.setNmiBlocked_acram : (s.setNmiBlocked v).acram = s.acram := rfl
@[simp] theorem State.setNmiBlocked_txt : (s.setNmiBlocked v).txt = s.txt := rfl
@[simp] theorem State.setNmiBlocked_vmx : (s.setNmiBlocked v).vmx = s.vmx := rfl
@[simp] theorem State.setNmiBlocked_inSmm : (s.setNmiBlocked v).inSmm = s.inSmm := rfl
@[simp] theorem State.setNmiBlocked_inSeam : (s.setNmiBlocked v).inSeam = s.inSeam := rfl
@[simp] theorem State.setNmiBlocked_smmSave : (s.setNmiBlocked v).smmSave = s.smmSave := rfl
@[simp] theorem State.setNmiBlocked_biosDone : (s.setNmiBlocked v).biosDone = s.biosDone := rfl
@[simp] theorem State.setNmiBlocked_pending : (s.setNmiBlocked v).pending = s.pending := rfl
@[simp] theorem State.setNmiBlocked_portWrites : (s.setNmiBlocked v).portWrites = s.portWrites := rfl
@[simp] theorem State.setNmiBlocked_apicWrites : (s.setNmiBlocked v).apicWrites = s.apicWrites := rfl
@[simp] theorem State.setNmiBlocked_tlb : (s.setNmiBlocked v).tlb = s.tlb := rfl
@[simp] theorem State.setNmiBlocked_stored : (s.setNmiBlocked v).stored = s.stored := rfl
@[simp] theorem State.setNmiBlocked_draws : (s.setNmiBlocked v).draws = s.draws := rfl
@[simp] theorem State.setNmiBlocked_mem : (s.setNmiBlocked v).mem = s.mem := rfl
end NmiBlocked

section MovSsBlocked
variable (v : Bool)
@[simp] theorem State.setMovSsBlocked_cfg : (s.setMovSsBlocked v).cfg = s.cfg := rfl
@[simp] theorem State.setMovSsBlocked_gpr : (s.setMovSsBlocked v).gpr = s.gpr := rfl
@[simp] theorem State.setMovSsBlocked_rip : (s.setMovSsBlocked v).rip = s.rip := rfl
@[simp] theorem State.setMovSsBlocked_nextRip : (s.setMovSsBlocked v).nextRip = s.nextRip := rfl
@[simp] theorem State.setMovSsBlocked_rflags : (s.setMovSsBlocked v).rflags = s.rflags := rfl
@[simp] theorem State.setMovSsBlocked_cr0 : (s.setMovSsBlocked v).cr0 = s.cr0 := rfl
@[simp] theorem State.setMovSsBlocked_cr2 : (s.setMovSsBlocked v).cr2 = s.cr2 := rfl
@[simp] theorem State.setMovSsBlocked_cr3 : (s.setMovSsBlocked v).cr3 = s.cr3 := rfl
@[simp] theorem State.setMovSsBlocked_cr4 : (s.setMovSsBlocked v).cr4 = s.cr4 := rfl
@[simp] theorem State.setMovSsBlocked_cr8 : (s.setMovSsBlocked v).cr8 = s.cr8 := rfl
@[simp] theorem State.setMovSsBlocked_efer : (s.setMovSsBlocked v).efer = s.efer := rfl
@[simp] theorem State.setMovSsBlocked_xcr0 : (s.setMovSsBlocked v).xcr0 = s.xcr0 := rfl
@[simp] theorem State.setMovSsBlocked_cs : (s.setMovSsBlocked v).cs = s.cs := rfl
@[simp] theorem State.setMovSsBlocked_ss : (s.setMovSsBlocked v).ss = s.ss := rfl
@[simp] theorem State.setMovSsBlocked_ds : (s.setMovSsBlocked v).ds = s.ds := rfl
@[simp] theorem State.setMovSsBlocked_es : (s.setMovSsBlocked v).es = s.es := rfl
@[simp] theorem State.setMovSsBlocked_fs : (s.setMovSsBlocked v).fs = s.fs := rfl
@[simp] theorem State.setMovSsBlocked_gs : (s.setMovSsBlocked v).gs = s.gs := rfl
@[simp] theorem State.setMovSsBlocked_gdtr : (s.setMovSsBlocked v).gdtr = s.gdtr := rfl
@[simp] theorem State.setMovSsBlocked_idtr : (s.setMovSsBlocked v).idtr = s.idtr := rfl
@[simp] theorem State.setMovSsBlocked_ldtr : (s.setMovSsBlocked v).ldtr = s.ldtr := rfl
@[simp] theorem State.setMovSsBlocked_tr : (s.setMovSsBlocked v).tr = s.tr := rfl
@[simp] theorem State.setMovSsBlocked_dbg : (s.setMovSsBlocked v).dbg = s.dbg := rfl
@[simp] theorem State.setMovSsBlocked_fpu : (s.setMovSsBlocked v).fpu = s.fpu := rfl
@[simp] theorem State.setMovSsBlocked_sys : (s.setMovSsBlocked v).sys = s.sys := rfl
@[simp] theorem State.setMovSsBlocked_cet : (s.setMovSsBlocked v).cet = s.cet := rfl
@[simp] theorem State.setMovSsBlocked_plat : (s.setMovSsBlocked v).plat = s.plat := rfl
@[simp] theorem State.setMovSsBlocked_cnt : (s.setMovSsBlocked v).cnt = s.cnt := rfl
@[simp] theorem State.setMovSsBlocked_nmiBlocked : (s.setMovSsBlocked v).nmiBlocked = s.nmiBlocked := rfl
@[simp] theorem State.setMovSsBlocked_movSsBlocked : (s.setMovSsBlocked v).movSsBlocked = v := rfl
@[simp] theorem State.setMovSsBlocked_stiBlocked : (s.setMovSsBlocked v).stiBlocked = s.stiBlocked := rfl
@[simp] theorem State.setMovSsBlocked_dbPending : (s.setMovSsBlocked v).dbPending = s.dbPending := rfl
@[simp] theorem State.setMovSsBlocked_bpHits : (s.setMovSsBlocked v).bpHits = s.bpHits := rfl
@[simp] theorem State.setMovSsBlocked_activity : (s.setMovSsBlocked v).activity = s.activity := rfl
@[simp] theorem State.setMovSsBlocked_smx : (s.setMovSsBlocked v).smx = s.smx := rfl
@[simp] theorem State.setMovSsBlocked_acram : (s.setMovSsBlocked v).acram = s.acram := rfl
@[simp] theorem State.setMovSsBlocked_txt : (s.setMovSsBlocked v).txt = s.txt := rfl
@[simp] theorem State.setMovSsBlocked_vmx : (s.setMovSsBlocked v).vmx = s.vmx := rfl
@[simp] theorem State.setMovSsBlocked_inSmm : (s.setMovSsBlocked v).inSmm = s.inSmm := rfl
@[simp] theorem State.setMovSsBlocked_inSeam : (s.setMovSsBlocked v).inSeam = s.inSeam := rfl
@[simp] theorem State.setMovSsBlocked_smmSave : (s.setMovSsBlocked v).smmSave = s.smmSave := rfl
@[simp] theorem State.setMovSsBlocked_biosDone : (s.setMovSsBlocked v).biosDone = s.biosDone := rfl
@[simp] theorem State.setMovSsBlocked_pending : (s.setMovSsBlocked v).pending = s.pending := rfl
@[simp] theorem State.setMovSsBlocked_portWrites : (s.setMovSsBlocked v).portWrites = s.portWrites := rfl
@[simp] theorem State.setMovSsBlocked_apicWrites : (s.setMovSsBlocked v).apicWrites = s.apicWrites := rfl
@[simp] theorem State.setMovSsBlocked_tlb : (s.setMovSsBlocked v).tlb = s.tlb := rfl
@[simp] theorem State.setMovSsBlocked_stored : (s.setMovSsBlocked v).stored = s.stored := rfl
@[simp] theorem State.setMovSsBlocked_draws : (s.setMovSsBlocked v).draws = s.draws := rfl
@[simp] theorem State.setMovSsBlocked_mem : (s.setMovSsBlocked v).mem = s.mem := rfl
end MovSsBlocked

section StiBlocked
variable (v : Bool)
@[simp] theorem State.setStiBlocked_cfg : (s.setStiBlocked v).cfg = s.cfg := rfl
@[simp] theorem State.setStiBlocked_gpr : (s.setStiBlocked v).gpr = s.gpr := rfl
@[simp] theorem State.setStiBlocked_rip : (s.setStiBlocked v).rip = s.rip := rfl
@[simp] theorem State.setStiBlocked_nextRip : (s.setStiBlocked v).nextRip = s.nextRip := rfl
@[simp] theorem State.setStiBlocked_rflags : (s.setStiBlocked v).rflags = s.rflags := rfl
@[simp] theorem State.setStiBlocked_cr0 : (s.setStiBlocked v).cr0 = s.cr0 := rfl
@[simp] theorem State.setStiBlocked_cr2 : (s.setStiBlocked v).cr2 = s.cr2 := rfl
@[simp] theorem State.setStiBlocked_cr3 : (s.setStiBlocked v).cr3 = s.cr3 := rfl
@[simp] theorem State.setStiBlocked_cr4 : (s.setStiBlocked v).cr4 = s.cr4 := rfl
@[simp] theorem State.setStiBlocked_cr8 : (s.setStiBlocked v).cr8 = s.cr8 := rfl
@[simp] theorem State.setStiBlocked_efer : (s.setStiBlocked v).efer = s.efer := rfl
@[simp] theorem State.setStiBlocked_xcr0 : (s.setStiBlocked v).xcr0 = s.xcr0 := rfl
@[simp] theorem State.setStiBlocked_cs : (s.setStiBlocked v).cs = s.cs := rfl
@[simp] theorem State.setStiBlocked_ss : (s.setStiBlocked v).ss = s.ss := rfl
@[simp] theorem State.setStiBlocked_ds : (s.setStiBlocked v).ds = s.ds := rfl
@[simp] theorem State.setStiBlocked_es : (s.setStiBlocked v).es = s.es := rfl
@[simp] theorem State.setStiBlocked_fs : (s.setStiBlocked v).fs = s.fs := rfl
@[simp] theorem State.setStiBlocked_gs : (s.setStiBlocked v).gs = s.gs := rfl
@[simp] theorem State.setStiBlocked_gdtr : (s.setStiBlocked v).gdtr = s.gdtr := rfl
@[simp] theorem State.setStiBlocked_idtr : (s.setStiBlocked v).idtr = s.idtr := rfl
@[simp] theorem State.setStiBlocked_ldtr : (s.setStiBlocked v).ldtr = s.ldtr := rfl
@[simp] theorem State.setStiBlocked_tr : (s.setStiBlocked v).tr = s.tr := rfl
@[simp] theorem State.setStiBlocked_dbg : (s.setStiBlocked v).dbg = s.dbg := rfl
@[simp] theorem State.setStiBlocked_fpu : (s.setStiBlocked v).fpu = s.fpu := rfl
@[simp] theorem State.setStiBlocked_sys : (s.setStiBlocked v).sys = s.sys := rfl
@[simp] theorem State.setStiBlocked_cet : (s.setStiBlocked v).cet = s.cet := rfl
@[simp] theorem State.setStiBlocked_plat : (s.setStiBlocked v).plat = s.plat := rfl
@[simp] theorem State.setStiBlocked_cnt : (s.setStiBlocked v).cnt = s.cnt := rfl
@[simp] theorem State.setStiBlocked_nmiBlocked : (s.setStiBlocked v).nmiBlocked = s.nmiBlocked := rfl
@[simp] theorem State.setStiBlocked_movSsBlocked : (s.setStiBlocked v).movSsBlocked = s.movSsBlocked := rfl
@[simp] theorem State.setStiBlocked_stiBlocked : (s.setStiBlocked v).stiBlocked = v := rfl
@[simp] theorem State.setStiBlocked_dbPending : (s.setStiBlocked v).dbPending = s.dbPending := rfl
@[simp] theorem State.setStiBlocked_bpHits : (s.setStiBlocked v).bpHits = s.bpHits := rfl
@[simp] theorem State.setStiBlocked_activity : (s.setStiBlocked v).activity = s.activity := rfl
@[simp] theorem State.setStiBlocked_smx : (s.setStiBlocked v).smx = s.smx := rfl
@[simp] theorem State.setStiBlocked_acram : (s.setStiBlocked v).acram = s.acram := rfl
@[simp] theorem State.setStiBlocked_txt : (s.setStiBlocked v).txt = s.txt := rfl
@[simp] theorem State.setStiBlocked_vmx : (s.setStiBlocked v).vmx = s.vmx := rfl
@[simp] theorem State.setStiBlocked_inSmm : (s.setStiBlocked v).inSmm = s.inSmm := rfl
@[simp] theorem State.setStiBlocked_inSeam : (s.setStiBlocked v).inSeam = s.inSeam := rfl
@[simp] theorem State.setStiBlocked_smmSave : (s.setStiBlocked v).smmSave = s.smmSave := rfl
@[simp] theorem State.setStiBlocked_biosDone : (s.setStiBlocked v).biosDone = s.biosDone := rfl
@[simp] theorem State.setStiBlocked_pending : (s.setStiBlocked v).pending = s.pending := rfl
@[simp] theorem State.setStiBlocked_portWrites : (s.setStiBlocked v).portWrites = s.portWrites := rfl
@[simp] theorem State.setStiBlocked_apicWrites : (s.setStiBlocked v).apicWrites = s.apicWrites := rfl
@[simp] theorem State.setStiBlocked_tlb : (s.setStiBlocked v).tlb = s.tlb := rfl
@[simp] theorem State.setStiBlocked_stored : (s.setStiBlocked v).stored = s.stored := rfl
@[simp] theorem State.setStiBlocked_draws : (s.setStiBlocked v).draws = s.draws := rfl
@[simp] theorem State.setStiBlocked_mem : (s.setStiBlocked v).mem = s.mem := rfl
end StiBlocked

section DbPending
variable (v : Bool)
@[simp] theorem State.setDbPending_cfg : (s.setDbPending v).cfg = s.cfg := rfl
@[simp] theorem State.setDbPending_gpr : (s.setDbPending v).gpr = s.gpr := rfl
@[simp] theorem State.setDbPending_rip : (s.setDbPending v).rip = s.rip := rfl
@[simp] theorem State.setDbPending_nextRip : (s.setDbPending v).nextRip = s.nextRip := rfl
@[simp] theorem State.setDbPending_rflags : (s.setDbPending v).rflags = s.rflags := rfl
@[simp] theorem State.setDbPending_cr0 : (s.setDbPending v).cr0 = s.cr0 := rfl
@[simp] theorem State.setDbPending_cr2 : (s.setDbPending v).cr2 = s.cr2 := rfl
@[simp] theorem State.setDbPending_cr3 : (s.setDbPending v).cr3 = s.cr3 := rfl
@[simp] theorem State.setDbPending_cr4 : (s.setDbPending v).cr4 = s.cr4 := rfl
@[simp] theorem State.setDbPending_cr8 : (s.setDbPending v).cr8 = s.cr8 := rfl
@[simp] theorem State.setDbPending_efer : (s.setDbPending v).efer = s.efer := rfl
@[simp] theorem State.setDbPending_xcr0 : (s.setDbPending v).xcr0 = s.xcr0 := rfl
@[simp] theorem State.setDbPending_cs : (s.setDbPending v).cs = s.cs := rfl
@[simp] theorem State.setDbPending_ss : (s.setDbPending v).ss = s.ss := rfl
@[simp] theorem State.setDbPending_ds : (s.setDbPending v).ds = s.ds := rfl
@[simp] theorem State.setDbPending_es : (s.setDbPending v).es = s.es := rfl
@[simp] theorem State.setDbPending_fs : (s.setDbPending v).fs = s.fs := rfl
@[simp] theorem State.setDbPending_gs : (s.setDbPending v).gs = s.gs := rfl
@[simp] theorem State.setDbPending_gdtr : (s.setDbPending v).gdtr = s.gdtr := rfl
@[simp] theorem State.setDbPending_idtr : (s.setDbPending v).idtr = s.idtr := rfl
@[simp] theorem State.setDbPending_ldtr : (s.setDbPending v).ldtr = s.ldtr := rfl
@[simp] theorem State.setDbPending_tr : (s.setDbPending v).tr = s.tr := rfl
@[simp] theorem State.setDbPending_dbg : (s.setDbPending v).dbg = s.dbg := rfl
@[simp] theorem State.setDbPending_fpu : (s.setDbPending v).fpu = s.fpu := rfl
@[simp] theorem State.setDbPending_sys : (s.setDbPending v).sys = s.sys := rfl
@[simp] theorem State.setDbPending_cet : (s.setDbPending v).cet = s.cet := rfl
@[simp] theorem State.setDbPending_plat : (s.setDbPending v).plat = s.plat := rfl
@[simp] theorem State.setDbPending_cnt : (s.setDbPending v).cnt = s.cnt := rfl
@[simp] theorem State.setDbPending_nmiBlocked : (s.setDbPending v).nmiBlocked = s.nmiBlocked := rfl
@[simp] theorem State.setDbPending_movSsBlocked : (s.setDbPending v).movSsBlocked = s.movSsBlocked := rfl
@[simp] theorem State.setDbPending_stiBlocked : (s.setDbPending v).stiBlocked = s.stiBlocked := rfl
@[simp] theorem State.setDbPending_dbPending : (s.setDbPending v).dbPending = v := rfl
@[simp] theorem State.setDbPending_bpHits : (s.setDbPending v).bpHits = s.bpHits := rfl
@[simp] theorem State.setDbPending_activity : (s.setDbPending v).activity = s.activity := rfl
@[simp] theorem State.setDbPending_smx : (s.setDbPending v).smx = s.smx := rfl
@[simp] theorem State.setDbPending_acram : (s.setDbPending v).acram = s.acram := rfl
@[simp] theorem State.setDbPending_txt : (s.setDbPending v).txt = s.txt := rfl
@[simp] theorem State.setDbPending_vmx : (s.setDbPending v).vmx = s.vmx := rfl
@[simp] theorem State.setDbPending_inSmm : (s.setDbPending v).inSmm = s.inSmm := rfl
@[simp] theorem State.setDbPending_inSeam : (s.setDbPending v).inSeam = s.inSeam := rfl
@[simp] theorem State.setDbPending_smmSave : (s.setDbPending v).smmSave = s.smmSave := rfl
@[simp] theorem State.setDbPending_biosDone : (s.setDbPending v).biosDone = s.biosDone := rfl
@[simp] theorem State.setDbPending_pending : (s.setDbPending v).pending = s.pending := rfl
@[simp] theorem State.setDbPending_portWrites : (s.setDbPending v).portWrites = s.portWrites := rfl
@[simp] theorem State.setDbPending_apicWrites : (s.setDbPending v).apicWrites = s.apicWrites := rfl
@[simp] theorem State.setDbPending_tlb : (s.setDbPending v).tlb = s.tlb := rfl
@[simp] theorem State.setDbPending_stored : (s.setDbPending v).stored = s.stored := rfl
@[simp] theorem State.setDbPending_draws : (s.setDbPending v).draws = s.draws := rfl
@[simp] theorem State.setDbPending_mem : (s.setDbPending v).mem = s.mem := rfl
end DbPending

section BpHits
variable (v : BitVec 4)
@[simp] theorem State.setBpHits_cfg : (s.setBpHits v).cfg = s.cfg := rfl
@[simp] theorem State.setBpHits_gpr : (s.setBpHits v).gpr = s.gpr := rfl
@[simp] theorem State.setBpHits_rip : (s.setBpHits v).rip = s.rip := rfl
@[simp] theorem State.setBpHits_nextRip : (s.setBpHits v).nextRip = s.nextRip := rfl
@[simp] theorem State.setBpHits_rflags : (s.setBpHits v).rflags = s.rflags := rfl
@[simp] theorem State.setBpHits_cr0 : (s.setBpHits v).cr0 = s.cr0 := rfl
@[simp] theorem State.setBpHits_cr2 : (s.setBpHits v).cr2 = s.cr2 := rfl
@[simp] theorem State.setBpHits_cr3 : (s.setBpHits v).cr3 = s.cr3 := rfl
@[simp] theorem State.setBpHits_cr4 : (s.setBpHits v).cr4 = s.cr4 := rfl
@[simp] theorem State.setBpHits_cr8 : (s.setBpHits v).cr8 = s.cr8 := rfl
@[simp] theorem State.setBpHits_efer : (s.setBpHits v).efer = s.efer := rfl
@[simp] theorem State.setBpHits_xcr0 : (s.setBpHits v).xcr0 = s.xcr0 := rfl
@[simp] theorem State.setBpHits_cs : (s.setBpHits v).cs = s.cs := rfl
@[simp] theorem State.setBpHits_ss : (s.setBpHits v).ss = s.ss := rfl
@[simp] theorem State.setBpHits_ds : (s.setBpHits v).ds = s.ds := rfl
@[simp] theorem State.setBpHits_es : (s.setBpHits v).es = s.es := rfl
@[simp] theorem State.setBpHits_fs : (s.setBpHits v).fs = s.fs := rfl
@[simp] theorem State.setBpHits_gs : (s.setBpHits v).gs = s.gs := rfl
@[simp] theorem State.setBpHits_gdtr : (s.setBpHits v).gdtr = s.gdtr := rfl
@[simp] theorem State.setBpHits_idtr : (s.setBpHits v).idtr = s.idtr := rfl
@[simp] theorem State.setBpHits_ldtr : (s.setBpHits v).ldtr = s.ldtr := rfl
@[simp] theorem State.setBpHits_tr : (s.setBpHits v).tr = s.tr := rfl
@[simp] theorem State.setBpHits_dbg : (s.setBpHits v).dbg = s.dbg := rfl
@[simp] theorem State.setBpHits_fpu : (s.setBpHits v).fpu = s.fpu := rfl
@[simp] theorem State.setBpHits_sys : (s.setBpHits v).sys = s.sys := rfl
@[simp] theorem State.setBpHits_cet : (s.setBpHits v).cet = s.cet := rfl
@[simp] theorem State.setBpHits_plat : (s.setBpHits v).plat = s.plat := rfl
@[simp] theorem State.setBpHits_cnt : (s.setBpHits v).cnt = s.cnt := rfl
@[simp] theorem State.setBpHits_nmiBlocked : (s.setBpHits v).nmiBlocked = s.nmiBlocked := rfl
@[simp] theorem State.setBpHits_movSsBlocked : (s.setBpHits v).movSsBlocked = s.movSsBlocked := rfl
@[simp] theorem State.setBpHits_stiBlocked : (s.setBpHits v).stiBlocked = s.stiBlocked := rfl
@[simp] theorem State.setBpHits_dbPending : (s.setBpHits v).dbPending = s.dbPending := rfl
@[simp] theorem State.setBpHits_bpHits : (s.setBpHits v).bpHits = v := rfl
@[simp] theorem State.setBpHits_activity : (s.setBpHits v).activity = s.activity := rfl
@[simp] theorem State.setBpHits_smx : (s.setBpHits v).smx = s.smx := rfl
@[simp] theorem State.setBpHits_acram : (s.setBpHits v).acram = s.acram := rfl
@[simp] theorem State.setBpHits_txt : (s.setBpHits v).txt = s.txt := rfl
@[simp] theorem State.setBpHits_vmx : (s.setBpHits v).vmx = s.vmx := rfl
@[simp] theorem State.setBpHits_inSmm : (s.setBpHits v).inSmm = s.inSmm := rfl
@[simp] theorem State.setBpHits_inSeam : (s.setBpHits v).inSeam = s.inSeam := rfl
@[simp] theorem State.setBpHits_smmSave : (s.setBpHits v).smmSave = s.smmSave := rfl
@[simp] theorem State.setBpHits_biosDone : (s.setBpHits v).biosDone = s.biosDone := rfl
@[simp] theorem State.setBpHits_pending : (s.setBpHits v).pending = s.pending := rfl
@[simp] theorem State.setBpHits_portWrites : (s.setBpHits v).portWrites = s.portWrites := rfl
@[simp] theorem State.setBpHits_apicWrites : (s.setBpHits v).apicWrites = s.apicWrites := rfl
@[simp] theorem State.setBpHits_tlb : (s.setBpHits v).tlb = s.tlb := rfl
@[simp] theorem State.setBpHits_stored : (s.setBpHits v).stored = s.stored := rfl
@[simp] theorem State.setBpHits_draws : (s.setBpHits v).draws = s.draws := rfl
@[simp] theorem State.setBpHits_mem : (s.setBpHits v).mem = s.mem := rfl
end BpHits

section Activity
variable (v : Activity)
@[simp] theorem State.setActivity_cfg : (s.setActivity v).cfg = s.cfg := rfl
@[simp] theorem State.setActivity_gpr : (s.setActivity v).gpr = s.gpr := rfl
@[simp] theorem State.setActivity_rip : (s.setActivity v).rip = s.rip := rfl
@[simp] theorem State.setActivity_nextRip : (s.setActivity v).nextRip = s.nextRip := rfl
@[simp] theorem State.setActivity_rflags : (s.setActivity v).rflags = s.rflags := rfl
@[simp] theorem State.setActivity_cr0 : (s.setActivity v).cr0 = s.cr0 := rfl
@[simp] theorem State.setActivity_cr2 : (s.setActivity v).cr2 = s.cr2 := rfl
@[simp] theorem State.setActivity_cr3 : (s.setActivity v).cr3 = s.cr3 := rfl
@[simp] theorem State.setActivity_cr4 : (s.setActivity v).cr4 = s.cr4 := rfl
@[simp] theorem State.setActivity_cr8 : (s.setActivity v).cr8 = s.cr8 := rfl
@[simp] theorem State.setActivity_efer : (s.setActivity v).efer = s.efer := rfl
@[simp] theorem State.setActivity_xcr0 : (s.setActivity v).xcr0 = s.xcr0 := rfl
@[simp] theorem State.setActivity_cs : (s.setActivity v).cs = s.cs := rfl
@[simp] theorem State.setActivity_ss : (s.setActivity v).ss = s.ss := rfl
@[simp] theorem State.setActivity_ds : (s.setActivity v).ds = s.ds := rfl
@[simp] theorem State.setActivity_es : (s.setActivity v).es = s.es := rfl
@[simp] theorem State.setActivity_fs : (s.setActivity v).fs = s.fs := rfl
@[simp] theorem State.setActivity_gs : (s.setActivity v).gs = s.gs := rfl
@[simp] theorem State.setActivity_gdtr : (s.setActivity v).gdtr = s.gdtr := rfl
@[simp] theorem State.setActivity_idtr : (s.setActivity v).idtr = s.idtr := rfl
@[simp] theorem State.setActivity_ldtr : (s.setActivity v).ldtr = s.ldtr := rfl
@[simp] theorem State.setActivity_tr : (s.setActivity v).tr = s.tr := rfl
@[simp] theorem State.setActivity_dbg : (s.setActivity v).dbg = s.dbg := rfl
@[simp] theorem State.setActivity_fpu : (s.setActivity v).fpu = s.fpu := rfl
@[simp] theorem State.setActivity_sys : (s.setActivity v).sys = s.sys := rfl
@[simp] theorem State.setActivity_cet : (s.setActivity v).cet = s.cet := rfl
@[simp] theorem State.setActivity_plat : (s.setActivity v).plat = s.plat := rfl
@[simp] theorem State.setActivity_cnt : (s.setActivity v).cnt = s.cnt := rfl
@[simp] theorem State.setActivity_nmiBlocked : (s.setActivity v).nmiBlocked = s.nmiBlocked := rfl
@[simp] theorem State.setActivity_movSsBlocked : (s.setActivity v).movSsBlocked = s.movSsBlocked := rfl
@[simp] theorem State.setActivity_stiBlocked : (s.setActivity v).stiBlocked = s.stiBlocked := rfl
@[simp] theorem State.setActivity_dbPending : (s.setActivity v).dbPending = s.dbPending := rfl
@[simp] theorem State.setActivity_bpHits : (s.setActivity v).bpHits = s.bpHits := rfl
@[simp] theorem State.setActivity_activity : (s.setActivity v).activity = v := rfl
@[simp] theorem State.setActivity_smx : (s.setActivity v).smx = s.smx := rfl
@[simp] theorem State.setActivity_acram : (s.setActivity v).acram = s.acram := rfl
@[simp] theorem State.setActivity_txt : (s.setActivity v).txt = s.txt := rfl
@[simp] theorem State.setActivity_vmx : (s.setActivity v).vmx = s.vmx := rfl
@[simp] theorem State.setActivity_inSmm : (s.setActivity v).inSmm = s.inSmm := rfl
@[simp] theorem State.setActivity_inSeam : (s.setActivity v).inSeam = s.inSeam := rfl
@[simp] theorem State.setActivity_smmSave : (s.setActivity v).smmSave = s.smmSave := rfl
@[simp] theorem State.setActivity_biosDone : (s.setActivity v).biosDone = s.biosDone := rfl
@[simp] theorem State.setActivity_pending : (s.setActivity v).pending = s.pending := rfl
@[simp] theorem State.setActivity_portWrites : (s.setActivity v).portWrites = s.portWrites := rfl
@[simp] theorem State.setActivity_apicWrites : (s.setActivity v).apicWrites = s.apicWrites := rfl
@[simp] theorem State.setActivity_tlb : (s.setActivity v).tlb = s.tlb := rfl
@[simp] theorem State.setActivity_stored : (s.setActivity v).stored = s.stored := rfl
@[simp] theorem State.setActivity_draws : (s.setActivity v).draws = s.draws := rfl
@[simp] theorem State.setActivity_mem : (s.setActivity v).mem = s.mem := rfl
end Activity

section Smx
variable (v : SmxFlags)
@[simp] theorem State.setSmx_cfg : (s.setSmx v).cfg = s.cfg := rfl
@[simp] theorem State.setSmx_gpr : (s.setSmx v).gpr = s.gpr := rfl
@[simp] theorem State.setSmx_rip : (s.setSmx v).rip = s.rip := rfl
@[simp] theorem State.setSmx_nextRip : (s.setSmx v).nextRip = s.nextRip := rfl
@[simp] theorem State.setSmx_rflags : (s.setSmx v).rflags = s.rflags := rfl
@[simp] theorem State.setSmx_cr0 : (s.setSmx v).cr0 = s.cr0 := rfl
@[simp] theorem State.setSmx_cr2 : (s.setSmx v).cr2 = s.cr2 := rfl
@[simp] theorem State.setSmx_cr3 : (s.setSmx v).cr3 = s.cr3 := rfl
@[simp] theorem State.setSmx_cr4 : (s.setSmx v).cr4 = s.cr4 := rfl
@[simp] theorem State.setSmx_cr8 : (s.setSmx v).cr8 = s.cr8 := rfl
@[simp] theorem State.setSmx_efer : (s.setSmx v).efer = s.efer := rfl
@[simp] theorem State.setSmx_xcr0 : (s.setSmx v).xcr0 = s.xcr0 := rfl
@[simp] theorem State.setSmx_cs : (s.setSmx v).cs = s.cs := rfl
@[simp] theorem State.setSmx_ss : (s.setSmx v).ss = s.ss := rfl
@[simp] theorem State.setSmx_ds : (s.setSmx v).ds = s.ds := rfl
@[simp] theorem State.setSmx_es : (s.setSmx v).es = s.es := rfl
@[simp] theorem State.setSmx_fs : (s.setSmx v).fs = s.fs := rfl
@[simp] theorem State.setSmx_gs : (s.setSmx v).gs = s.gs := rfl
@[simp] theorem State.setSmx_gdtr : (s.setSmx v).gdtr = s.gdtr := rfl
@[simp] theorem State.setSmx_idtr : (s.setSmx v).idtr = s.idtr := rfl
@[simp] theorem State.setSmx_ldtr : (s.setSmx v).ldtr = s.ldtr := rfl
@[simp] theorem State.setSmx_tr : (s.setSmx v).tr = s.tr := rfl
@[simp] theorem State.setSmx_dbg : (s.setSmx v).dbg = s.dbg := rfl
@[simp] theorem State.setSmx_fpu : (s.setSmx v).fpu = s.fpu := rfl
@[simp] theorem State.setSmx_sys : (s.setSmx v).sys = s.sys := rfl
@[simp] theorem State.setSmx_cet : (s.setSmx v).cet = s.cet := rfl
@[simp] theorem State.setSmx_plat : (s.setSmx v).plat = s.plat := rfl
@[simp] theorem State.setSmx_cnt : (s.setSmx v).cnt = s.cnt := rfl
@[simp] theorem State.setSmx_nmiBlocked : (s.setSmx v).nmiBlocked = s.nmiBlocked := rfl
@[simp] theorem State.setSmx_movSsBlocked : (s.setSmx v).movSsBlocked = s.movSsBlocked := rfl
@[simp] theorem State.setSmx_stiBlocked : (s.setSmx v).stiBlocked = s.stiBlocked := rfl
@[simp] theorem State.setSmx_dbPending : (s.setSmx v).dbPending = s.dbPending := rfl
@[simp] theorem State.setSmx_bpHits : (s.setSmx v).bpHits = s.bpHits := rfl
@[simp] theorem State.setSmx_activity : (s.setSmx v).activity = s.activity := rfl
@[simp] theorem State.setSmx_smx : (s.setSmx v).smx = v := rfl
@[simp] theorem State.setSmx_acram : (s.setSmx v).acram = s.acram := rfl
@[simp] theorem State.setSmx_txt : (s.setSmx v).txt = s.txt := rfl
@[simp] theorem State.setSmx_vmx : (s.setSmx v).vmx = s.vmx := rfl
@[simp] theorem State.setSmx_inSmm : (s.setSmx v).inSmm = s.inSmm := rfl
@[simp] theorem State.setSmx_inSeam : (s.setSmx v).inSeam = s.inSeam := rfl
@[simp] theorem State.setSmx_smmSave : (s.setSmx v).smmSave = s.smmSave := rfl
@[simp] theorem State.setSmx_biosDone : (s.setSmx v).biosDone = s.biosDone := rfl
@[simp] theorem State.setSmx_pending : (s.setSmx v).pending = s.pending := rfl
@[simp] theorem State.setSmx_portWrites : (s.setSmx v).portWrites = s.portWrites := rfl
@[simp] theorem State.setSmx_apicWrites : (s.setSmx v).apicWrites = s.apicWrites := rfl
@[simp] theorem State.setSmx_tlb : (s.setSmx v).tlb = s.tlb := rfl
@[simp] theorem State.setSmx_stored : (s.setSmx v).stored = s.stored := rfl
@[simp] theorem State.setSmx_draws : (s.setSmx v).draws = s.draws := rfl
@[simp] theorem State.setSmx_mem : (s.setSmx v).mem = s.mem := rfl
end Smx

section Acram
variable (v : List Host.Cell)
@[simp] theorem State.setAcram_cfg : (s.setAcram v).cfg = s.cfg := rfl
@[simp] theorem State.setAcram_gpr : (s.setAcram v).gpr = s.gpr := rfl
@[simp] theorem State.setAcram_rip : (s.setAcram v).rip = s.rip := rfl
@[simp] theorem State.setAcram_nextRip : (s.setAcram v).nextRip = s.nextRip := rfl
@[simp] theorem State.setAcram_rflags : (s.setAcram v).rflags = s.rflags := rfl
@[simp] theorem State.setAcram_cr0 : (s.setAcram v).cr0 = s.cr0 := rfl
@[simp] theorem State.setAcram_cr2 : (s.setAcram v).cr2 = s.cr2 := rfl
@[simp] theorem State.setAcram_cr3 : (s.setAcram v).cr3 = s.cr3 := rfl
@[simp] theorem State.setAcram_cr4 : (s.setAcram v).cr4 = s.cr4 := rfl
@[simp] theorem State.setAcram_cr8 : (s.setAcram v).cr8 = s.cr8 := rfl
@[simp] theorem State.setAcram_efer : (s.setAcram v).efer = s.efer := rfl
@[simp] theorem State.setAcram_xcr0 : (s.setAcram v).xcr0 = s.xcr0 := rfl
@[simp] theorem State.setAcram_cs : (s.setAcram v).cs = s.cs := rfl
@[simp] theorem State.setAcram_ss : (s.setAcram v).ss = s.ss := rfl
@[simp] theorem State.setAcram_ds : (s.setAcram v).ds = s.ds := rfl
@[simp] theorem State.setAcram_es : (s.setAcram v).es = s.es := rfl
@[simp] theorem State.setAcram_fs : (s.setAcram v).fs = s.fs := rfl
@[simp] theorem State.setAcram_gs : (s.setAcram v).gs = s.gs := rfl
@[simp] theorem State.setAcram_gdtr : (s.setAcram v).gdtr = s.gdtr := rfl
@[simp] theorem State.setAcram_idtr : (s.setAcram v).idtr = s.idtr := rfl
@[simp] theorem State.setAcram_ldtr : (s.setAcram v).ldtr = s.ldtr := rfl
@[simp] theorem State.setAcram_tr : (s.setAcram v).tr = s.tr := rfl
@[simp] theorem State.setAcram_dbg : (s.setAcram v).dbg = s.dbg := rfl
@[simp] theorem State.setAcram_fpu : (s.setAcram v).fpu = s.fpu := rfl
@[simp] theorem State.setAcram_sys : (s.setAcram v).sys = s.sys := rfl
@[simp] theorem State.setAcram_cet : (s.setAcram v).cet = s.cet := rfl
@[simp] theorem State.setAcram_plat : (s.setAcram v).plat = s.plat := rfl
@[simp] theorem State.setAcram_cnt : (s.setAcram v).cnt = s.cnt := rfl
@[simp] theorem State.setAcram_nmiBlocked : (s.setAcram v).nmiBlocked = s.nmiBlocked := rfl
@[simp] theorem State.setAcram_movSsBlocked : (s.setAcram v).movSsBlocked = s.movSsBlocked := rfl
@[simp] theorem State.setAcram_stiBlocked : (s.setAcram v).stiBlocked = s.stiBlocked := rfl
@[simp] theorem State.setAcram_dbPending : (s.setAcram v).dbPending = s.dbPending := rfl
@[simp] theorem State.setAcram_bpHits : (s.setAcram v).bpHits = s.bpHits := rfl
@[simp] theorem State.setAcram_activity : (s.setAcram v).activity = s.activity := rfl
@[simp] theorem State.setAcram_smx : (s.setAcram v).smx = s.smx := rfl
@[simp] theorem State.setAcram_acram : (s.setAcram v).acram = v := rfl
@[simp] theorem State.setAcram_txt : (s.setAcram v).txt = s.txt := rfl
@[simp] theorem State.setAcram_vmx : (s.setAcram v).vmx = s.vmx := rfl
@[simp] theorem State.setAcram_inSmm : (s.setAcram v).inSmm = s.inSmm := rfl
@[simp] theorem State.setAcram_inSeam : (s.setAcram v).inSeam = s.inSeam := rfl
@[simp] theorem State.setAcram_smmSave : (s.setAcram v).smmSave = s.smmSave := rfl
@[simp] theorem State.setAcram_biosDone : (s.setAcram v).biosDone = s.biosDone := rfl
@[simp] theorem State.setAcram_pending : (s.setAcram v).pending = s.pending := rfl
@[simp] theorem State.setAcram_portWrites : (s.setAcram v).portWrites = s.portWrites := rfl
@[simp] theorem State.setAcram_apicWrites : (s.setAcram v).apicWrites = s.apicWrites := rfl
@[simp] theorem State.setAcram_tlb : (s.setAcram v).tlb = s.tlb := rfl
@[simp] theorem State.setAcram_stored : (s.setAcram v).stored = s.stored := rfl
@[simp] theorem State.setAcram_draws : (s.setAcram v).draws = s.draws := rfl
@[simp] theorem State.setAcram_mem : (s.setAcram v).mem = s.mem := rfl
end Acram

section Txt
variable (v : TxtPlatform)
@[simp] theorem State.setTxt_cfg : (s.setTxt v).cfg = s.cfg := rfl
@[simp] theorem State.setTxt_gpr : (s.setTxt v).gpr = s.gpr := rfl
@[simp] theorem State.setTxt_rip : (s.setTxt v).rip = s.rip := rfl
@[simp] theorem State.setTxt_nextRip : (s.setTxt v).nextRip = s.nextRip := rfl
@[simp] theorem State.setTxt_rflags : (s.setTxt v).rflags = s.rflags := rfl
@[simp] theorem State.setTxt_cr0 : (s.setTxt v).cr0 = s.cr0 := rfl
@[simp] theorem State.setTxt_cr2 : (s.setTxt v).cr2 = s.cr2 := rfl
@[simp] theorem State.setTxt_cr3 : (s.setTxt v).cr3 = s.cr3 := rfl
@[simp] theorem State.setTxt_cr4 : (s.setTxt v).cr4 = s.cr4 := rfl
@[simp] theorem State.setTxt_cr8 : (s.setTxt v).cr8 = s.cr8 := rfl
@[simp] theorem State.setTxt_efer : (s.setTxt v).efer = s.efer := rfl
@[simp] theorem State.setTxt_xcr0 : (s.setTxt v).xcr0 = s.xcr0 := rfl
@[simp] theorem State.setTxt_cs : (s.setTxt v).cs = s.cs := rfl
@[simp] theorem State.setTxt_ss : (s.setTxt v).ss = s.ss := rfl
@[simp] theorem State.setTxt_ds : (s.setTxt v).ds = s.ds := rfl
@[simp] theorem State.setTxt_es : (s.setTxt v).es = s.es := rfl
@[simp] theorem State.setTxt_fs : (s.setTxt v).fs = s.fs := rfl
@[simp] theorem State.setTxt_gs : (s.setTxt v).gs = s.gs := rfl
@[simp] theorem State.setTxt_gdtr : (s.setTxt v).gdtr = s.gdtr := rfl
@[simp] theorem State.setTxt_idtr : (s.setTxt v).idtr = s.idtr := rfl
@[simp] theorem State.setTxt_ldtr : (s.setTxt v).ldtr = s.ldtr := rfl
@[simp] theorem State.setTxt_tr : (s.setTxt v).tr = s.tr := rfl
@[simp] theorem State.setTxt_dbg : (s.setTxt v).dbg = s.dbg := rfl
@[simp] theorem State.setTxt_fpu : (s.setTxt v).fpu = s.fpu := rfl
@[simp] theorem State.setTxt_sys : (s.setTxt v).sys = s.sys := rfl
@[simp] theorem State.setTxt_cet : (s.setTxt v).cet = s.cet := rfl
@[simp] theorem State.setTxt_plat : (s.setTxt v).plat = s.plat := rfl
@[simp] theorem State.setTxt_cnt : (s.setTxt v).cnt = s.cnt := rfl
@[simp] theorem State.setTxt_nmiBlocked : (s.setTxt v).nmiBlocked = s.nmiBlocked := rfl
@[simp] theorem State.setTxt_movSsBlocked : (s.setTxt v).movSsBlocked = s.movSsBlocked := rfl
@[simp] theorem State.setTxt_stiBlocked : (s.setTxt v).stiBlocked = s.stiBlocked := rfl
@[simp] theorem State.setTxt_dbPending : (s.setTxt v).dbPending = s.dbPending := rfl
@[simp] theorem State.setTxt_bpHits : (s.setTxt v).bpHits = s.bpHits := rfl
@[simp] theorem State.setTxt_activity : (s.setTxt v).activity = s.activity := rfl
@[simp] theorem State.setTxt_smx : (s.setTxt v).smx = s.smx := rfl
@[simp] theorem State.setTxt_acram : (s.setTxt v).acram = s.acram := rfl
@[simp] theorem State.setTxt_txt : (s.setTxt v).txt = v := rfl
@[simp] theorem State.setTxt_vmx : (s.setTxt v).vmx = s.vmx := rfl
@[simp] theorem State.setTxt_inSmm : (s.setTxt v).inSmm = s.inSmm := rfl
@[simp] theorem State.setTxt_inSeam : (s.setTxt v).inSeam = s.inSeam := rfl
@[simp] theorem State.setTxt_smmSave : (s.setTxt v).smmSave = s.smmSave := rfl
@[simp] theorem State.setTxt_biosDone : (s.setTxt v).biosDone = s.biosDone := rfl
@[simp] theorem State.setTxt_pending : (s.setTxt v).pending = s.pending := rfl
@[simp] theorem State.setTxt_portWrites : (s.setTxt v).portWrites = s.portWrites := rfl
@[simp] theorem State.setTxt_apicWrites : (s.setTxt v).apicWrites = s.apicWrites := rfl
@[simp] theorem State.setTxt_tlb : (s.setTxt v).tlb = s.tlb := rfl
@[simp] theorem State.setTxt_stored : (s.setTxt v).stored = s.stored := rfl
@[simp] theorem State.setTxt_draws : (s.setTxt v).draws = s.draws := rfl
@[simp] theorem State.setTxt_mem : (s.setTxt v).mem = s.mem := rfl
end Txt

section Vmx
variable (v : VmxMode)
@[simp] theorem State.setVmx_cfg : (s.setVmx v).cfg = s.cfg := rfl
@[simp] theorem State.setVmx_gpr : (s.setVmx v).gpr = s.gpr := rfl
@[simp] theorem State.setVmx_rip : (s.setVmx v).rip = s.rip := rfl
@[simp] theorem State.setVmx_nextRip : (s.setVmx v).nextRip = s.nextRip := rfl
@[simp] theorem State.setVmx_rflags : (s.setVmx v).rflags = s.rflags := rfl
@[simp] theorem State.setVmx_cr0 : (s.setVmx v).cr0 = s.cr0 := rfl
@[simp] theorem State.setVmx_cr2 : (s.setVmx v).cr2 = s.cr2 := rfl
@[simp] theorem State.setVmx_cr3 : (s.setVmx v).cr3 = s.cr3 := rfl
@[simp] theorem State.setVmx_cr4 : (s.setVmx v).cr4 = s.cr4 := rfl
@[simp] theorem State.setVmx_cr8 : (s.setVmx v).cr8 = s.cr8 := rfl
@[simp] theorem State.setVmx_efer : (s.setVmx v).efer = s.efer := rfl
@[simp] theorem State.setVmx_xcr0 : (s.setVmx v).xcr0 = s.xcr0 := rfl
@[simp] theorem State.setVmx_cs : (s.setVmx v).cs = s.cs := rfl
@[simp] theorem State.setVmx_ss : (s.setVmx v).ss = s.ss := rfl
@[simp] theorem State.setVmx_ds : (s.setVmx v).ds = s.ds := rfl
@[simp] theorem State.setVmx_es : (s.setVmx v).es = s.es := rfl
@[simp] theorem State.setVmx_fs : (s.setVmx v).fs = s.fs := rfl
@[simp] theorem State.setVmx_gs : (s.setVmx v).gs = s.gs := rfl
@[simp] theorem State.setVmx_gdtr : (s.setVmx v).gdtr = s.gdtr := rfl
@[simp] theorem State.setVmx_idtr : (s.setVmx v).idtr = s.idtr := rfl
@[simp] theorem State.setVmx_ldtr : (s.setVmx v).ldtr = s.ldtr := rfl
@[simp] theorem State.setVmx_tr : (s.setVmx v).tr = s.tr := rfl
@[simp] theorem State.setVmx_dbg : (s.setVmx v).dbg = s.dbg := rfl
@[simp] theorem State.setVmx_fpu : (s.setVmx v).fpu = s.fpu := rfl
@[simp] theorem State.setVmx_sys : (s.setVmx v).sys = s.sys := rfl
@[simp] theorem State.setVmx_cet : (s.setVmx v).cet = s.cet := rfl
@[simp] theorem State.setVmx_plat : (s.setVmx v).plat = s.plat := rfl
@[simp] theorem State.setVmx_cnt : (s.setVmx v).cnt = s.cnt := rfl
@[simp] theorem State.setVmx_nmiBlocked : (s.setVmx v).nmiBlocked = s.nmiBlocked := rfl
@[simp] theorem State.setVmx_movSsBlocked : (s.setVmx v).movSsBlocked = s.movSsBlocked := rfl
@[simp] theorem State.setVmx_stiBlocked : (s.setVmx v).stiBlocked = s.stiBlocked := rfl
@[simp] theorem State.setVmx_dbPending : (s.setVmx v).dbPending = s.dbPending := rfl
@[simp] theorem State.setVmx_bpHits : (s.setVmx v).bpHits = s.bpHits := rfl
@[simp] theorem State.setVmx_activity : (s.setVmx v).activity = s.activity := rfl
@[simp] theorem State.setVmx_smx : (s.setVmx v).smx = s.smx := rfl
@[simp] theorem State.setVmx_acram : (s.setVmx v).acram = s.acram := rfl
@[simp] theorem State.setVmx_txt : (s.setVmx v).txt = s.txt := rfl
@[simp] theorem State.setVmx_vmx : (s.setVmx v).vmx = v := rfl
@[simp] theorem State.setVmx_inSmm : (s.setVmx v).inSmm = s.inSmm := rfl
@[simp] theorem State.setVmx_inSeam : (s.setVmx v).inSeam = s.inSeam := rfl
@[simp] theorem State.setVmx_smmSave : (s.setVmx v).smmSave = s.smmSave := rfl
@[simp] theorem State.setVmx_biosDone : (s.setVmx v).biosDone = s.biosDone := rfl
@[simp] theorem State.setVmx_pending : (s.setVmx v).pending = s.pending := rfl
@[simp] theorem State.setVmx_portWrites : (s.setVmx v).portWrites = s.portWrites := rfl
@[simp] theorem State.setVmx_apicWrites : (s.setVmx v).apicWrites = s.apicWrites := rfl
@[simp] theorem State.setVmx_tlb : (s.setVmx v).tlb = s.tlb := rfl
@[simp] theorem State.setVmx_stored : (s.setVmx v).stored = s.stored := rfl
@[simp] theorem State.setVmx_draws : (s.setVmx v).draws = s.draws := rfl
@[simp] theorem State.setVmx_mem : (s.setVmx v).mem = s.mem := rfl
end Vmx

section InSmm
variable (v : Bool)
@[simp] theorem State.setInSmm_cfg : (s.setInSmm v).cfg = s.cfg := rfl
@[simp] theorem State.setInSmm_gpr : (s.setInSmm v).gpr = s.gpr := rfl
@[simp] theorem State.setInSmm_rip : (s.setInSmm v).rip = s.rip := rfl
@[simp] theorem State.setInSmm_nextRip : (s.setInSmm v).nextRip = s.nextRip := rfl
@[simp] theorem State.setInSmm_rflags : (s.setInSmm v).rflags = s.rflags := rfl
@[simp] theorem State.setInSmm_cr0 : (s.setInSmm v).cr0 = s.cr0 := rfl
@[simp] theorem State.setInSmm_cr2 : (s.setInSmm v).cr2 = s.cr2 := rfl
@[simp] theorem State.setInSmm_cr3 : (s.setInSmm v).cr3 = s.cr3 := rfl
@[simp] theorem State.setInSmm_cr4 : (s.setInSmm v).cr4 = s.cr4 := rfl
@[simp] theorem State.setInSmm_cr8 : (s.setInSmm v).cr8 = s.cr8 := rfl
@[simp] theorem State.setInSmm_efer : (s.setInSmm v).efer = s.efer := rfl
@[simp] theorem State.setInSmm_xcr0 : (s.setInSmm v).xcr0 = s.xcr0 := rfl
@[simp] theorem State.setInSmm_cs : (s.setInSmm v).cs = s.cs := rfl
@[simp] theorem State.setInSmm_ss : (s.setInSmm v).ss = s.ss := rfl
@[simp] theorem State.setInSmm_ds : (s.setInSmm v).ds = s.ds := rfl
@[simp] theorem State.setInSmm_es : (s.setInSmm v).es = s.es := rfl
@[simp] theorem State.setInSmm_fs : (s.setInSmm v).fs = s.fs := rfl
@[simp] theorem State.setInSmm_gs : (s.setInSmm v).gs = s.gs := rfl
@[simp] theorem State.setInSmm_gdtr : (s.setInSmm v).gdtr = s.gdtr := rfl
@[simp] theorem State.setInSmm_idtr : (s.setInSmm v).idtr = s.idtr := rfl
@[simp] theorem State.setInSmm_ldtr : (s.setInSmm v).ldtr = s.ldtr := rfl
@[simp] theorem State.setInSmm_tr : (s.setInSmm v).tr = s.tr := rfl
@[simp] theorem State.setInSmm_dbg : (s.setInSmm v).dbg = s.dbg := rfl
@[simp] theorem State.setInSmm_fpu : (s.setInSmm v).fpu = s.fpu := rfl
@[simp] theorem State.setInSmm_sys : (s.setInSmm v).sys = s.sys := rfl
@[simp] theorem State.setInSmm_cet : (s.setInSmm v).cet = s.cet := rfl
@[simp] theorem State.setInSmm_plat : (s.setInSmm v).plat = s.plat := rfl
@[simp] theorem State.setInSmm_cnt : (s.setInSmm v).cnt = s.cnt := rfl
@[simp] theorem State.setInSmm_nmiBlocked : (s.setInSmm v).nmiBlocked = s.nmiBlocked := rfl
@[simp] theorem State.setInSmm_movSsBlocked : (s.setInSmm v).movSsBlocked = s.movSsBlocked := rfl
@[simp] theorem State.setInSmm_stiBlocked : (s.setInSmm v).stiBlocked = s.stiBlocked := rfl
@[simp] theorem State.setInSmm_dbPending : (s.setInSmm v).dbPending = s.dbPending := rfl
@[simp] theorem State.setInSmm_bpHits : (s.setInSmm v).bpHits = s.bpHits := rfl
@[simp] theorem State.setInSmm_activity : (s.setInSmm v).activity = s.activity := rfl
@[simp] theorem State.setInSmm_smx : (s.setInSmm v).smx = s.smx := rfl
@[simp] theorem State.setInSmm_acram : (s.setInSmm v).acram = s.acram := rfl
@[simp] theorem State.setInSmm_txt : (s.setInSmm v).txt = s.txt := rfl
@[simp] theorem State.setInSmm_vmx : (s.setInSmm v).vmx = s.vmx := rfl
@[simp] theorem State.setInSmm_inSmm : (s.setInSmm v).inSmm = v := rfl
@[simp] theorem State.setInSmm_inSeam : (s.setInSmm v).inSeam = s.inSeam := rfl
@[simp] theorem State.setInSmm_smmSave : (s.setInSmm v).smmSave = s.smmSave := rfl
@[simp] theorem State.setInSmm_biosDone : (s.setInSmm v).biosDone = s.biosDone := rfl
@[simp] theorem State.setInSmm_pending : (s.setInSmm v).pending = s.pending := rfl
@[simp] theorem State.setInSmm_portWrites : (s.setInSmm v).portWrites = s.portWrites := rfl
@[simp] theorem State.setInSmm_apicWrites : (s.setInSmm v).apicWrites = s.apicWrites := rfl
@[simp] theorem State.setInSmm_tlb : (s.setInSmm v).tlb = s.tlb := rfl
@[simp] theorem State.setInSmm_stored : (s.setInSmm v).stored = s.stored := rfl
@[simp] theorem State.setInSmm_draws : (s.setInSmm v).draws = s.draws := rfl
@[simp] theorem State.setInSmm_mem : (s.setInSmm v).mem = s.mem := rfl
end InSmm

section Pending
variable (v : Pending)
@[simp] theorem State.setPending_cfg : (s.setPending v).cfg = s.cfg := rfl
@[simp] theorem State.setPending_gpr : (s.setPending v).gpr = s.gpr := rfl
@[simp] theorem State.setPending_rip : (s.setPending v).rip = s.rip := rfl
@[simp] theorem State.setPending_nextRip : (s.setPending v).nextRip = s.nextRip := rfl
@[simp] theorem State.setPending_rflags : (s.setPending v).rflags = s.rflags := rfl
@[simp] theorem State.setPending_cr0 : (s.setPending v).cr0 = s.cr0 := rfl
@[simp] theorem State.setPending_cr2 : (s.setPending v).cr2 = s.cr2 := rfl
@[simp] theorem State.setPending_cr3 : (s.setPending v).cr3 = s.cr3 := rfl
@[simp] theorem State.setPending_cr4 : (s.setPending v).cr4 = s.cr4 := rfl
@[simp] theorem State.setPending_cr8 : (s.setPending v).cr8 = s.cr8 := rfl
@[simp] theorem State.setPending_efer : (s.setPending v).efer = s.efer := rfl
@[simp] theorem State.setPending_xcr0 : (s.setPending v).xcr0 = s.xcr0 := rfl
@[simp] theorem State.setPending_cs : (s.setPending v).cs = s.cs := rfl
@[simp] theorem State.setPending_ss : (s.setPending v).ss = s.ss := rfl
@[simp] theorem State.setPending_ds : (s.setPending v).ds = s.ds := rfl
@[simp] theorem State.setPending_es : (s.setPending v).es = s.es := rfl
@[simp] theorem State.setPending_fs : (s.setPending v).fs = s.fs := rfl
@[simp] theorem State.setPending_gs : (s.setPending v).gs = s.gs := rfl
@[simp] theorem State.setPending_gdtr : (s.setPending v).gdtr = s.gdtr := rfl
@[simp] theorem State.setPending_idtr : (s.setPending v).idtr = s.idtr := rfl
@[simp] theorem State.setPending_ldtr : (s.setPending v).ldtr = s.ldtr := rfl
@[simp] theorem State.setPending_tr : (s.setPending v).tr = s.tr := rfl
@[simp] theorem State.setPending_dbg : (s.setPending v).dbg = s.dbg := rfl
@[simp] theorem State.setPending_fpu : (s.setPending v).fpu = s.fpu := rfl
@[simp] theorem State.setPending_sys : (s.setPending v).sys = s.sys := rfl
@[simp] theorem State.setPending_cet : (s.setPending v).cet = s.cet := rfl
@[simp] theorem State.setPending_plat : (s.setPending v).plat = s.plat := rfl
@[simp] theorem State.setPending_cnt : (s.setPending v).cnt = s.cnt := rfl
@[simp] theorem State.setPending_nmiBlocked : (s.setPending v).nmiBlocked = s.nmiBlocked := rfl
@[simp] theorem State.setPending_movSsBlocked : (s.setPending v).movSsBlocked = s.movSsBlocked := rfl
@[simp] theorem State.setPending_stiBlocked : (s.setPending v).stiBlocked = s.stiBlocked := rfl
@[simp] theorem State.setPending_dbPending : (s.setPending v).dbPending = s.dbPending := rfl
@[simp] theorem State.setPending_bpHits : (s.setPending v).bpHits = s.bpHits := rfl
@[simp] theorem State.setPending_activity : (s.setPending v).activity = s.activity := rfl
@[simp] theorem State.setPending_smx : (s.setPending v).smx = s.smx := rfl
@[simp] theorem State.setPending_acram : (s.setPending v).acram = s.acram := rfl
@[simp] theorem State.setPending_txt : (s.setPending v).txt = s.txt := rfl
@[simp] theorem State.setPending_vmx : (s.setPending v).vmx = s.vmx := rfl
@[simp] theorem State.setPending_inSmm : (s.setPending v).inSmm = s.inSmm := rfl
@[simp] theorem State.setPending_inSeam : (s.setPending v).inSeam = s.inSeam := rfl
@[simp] theorem State.setPending_smmSave : (s.setPending v).smmSave = s.smmSave := rfl
@[simp] theorem State.setPending_biosDone : (s.setPending v).biosDone = s.biosDone := rfl
@[simp] theorem State.setPending_pending : (s.setPending v).pending = v := rfl
@[simp] theorem State.setPending_portWrites : (s.setPending v).portWrites = s.portWrites := rfl
@[simp] theorem State.setPending_apicWrites : (s.setPending v).apicWrites = s.apicWrites := rfl
@[simp] theorem State.setPending_tlb : (s.setPending v).tlb = s.tlb := rfl
@[simp] theorem State.setPending_stored : (s.setPending v).stored = s.stored := rfl
@[simp] theorem State.setPending_draws : (s.setPending v).draws = s.draws := rfl
@[simp] theorem State.setPending_mem : (s.setPending v).mem = s.mem := rfl
end Pending

section PortWrites
variable (v : List PortWrite)
@[simp] theorem State.setPortWrites_cfg : (s.setPortWrites v).cfg = s.cfg := rfl
@[simp] theorem State.setPortWrites_gpr : (s.setPortWrites v).gpr = s.gpr := rfl
@[simp] theorem State.setPortWrites_rip : (s.setPortWrites v).rip = s.rip := rfl
@[simp] theorem State.setPortWrites_nextRip : (s.setPortWrites v).nextRip = s.nextRip := rfl
@[simp] theorem State.setPortWrites_rflags : (s.setPortWrites v).rflags = s.rflags := rfl
@[simp] theorem State.setPortWrites_cr0 : (s.setPortWrites v).cr0 = s.cr0 := rfl
@[simp] theorem State.setPortWrites_cr2 : (s.setPortWrites v).cr2 = s.cr2 := rfl
@[simp] theorem State.setPortWrites_cr3 : (s.setPortWrites v).cr3 = s.cr3 := rfl
@[simp] theorem State.setPortWrites_cr4 : (s.setPortWrites v).cr4 = s.cr4 := rfl
@[simp] theorem State.setPortWrites_cr8 : (s.setPortWrites v).cr8 = s.cr8 := rfl
@[simp] theorem State.setPortWrites_efer : (s.setPortWrites v).efer = s.efer := rfl
@[simp] theorem State.setPortWrites_xcr0 : (s.setPortWrites v).xcr0 = s.xcr0 := rfl
@[simp] theorem State.setPortWrites_cs : (s.setPortWrites v).cs = s.cs := rfl
@[simp] theorem State.setPortWrites_ss : (s.setPortWrites v).ss = s.ss := rfl
@[simp] theorem State.setPortWrites_ds : (s.setPortWrites v).ds = s.ds := rfl
@[simp] theorem State.setPortWrites_es : (s.setPortWrites v).es = s.es := rfl
@[simp] theorem State.setPortWrites_fs : (s.setPortWrites v).fs = s.fs := rfl
@[simp] theorem State.setPortWrites_gs : (s.setPortWrites v).gs = s.gs := rfl
@[simp] theorem State.setPortWrites_gdtr : (s.setPortWrites v).gdtr = s.gdtr := rfl
@[simp] theorem State.setPortWrites_idtr : (s.setPortWrites v).idtr = s.idtr := rfl
@[simp] theorem State.setPortWrites_ldtr : (s.setPortWrites v).ldtr = s.ldtr := rfl
@[simp] theorem State.setPortWrites_tr : (s.setPortWrites v).tr = s.tr := rfl
@[simp] theorem State.setPortWrites_dbg : (s.setPortWrites v).dbg = s.dbg := rfl
@[simp] theorem State.setPortWrites_fpu : (s.setPortWrites v).fpu = s.fpu := rfl
@[simp] theorem State.setPortWrites_sys : (s.setPortWrites v).sys = s.sys := rfl
@[simp] theorem State.setPortWrites_cet : (s.setPortWrites v).cet = s.cet := rfl
@[simp] theorem State.setPortWrites_plat : (s.setPortWrites v).plat = s.plat := rfl
@[simp] theorem State.setPortWrites_cnt : (s.setPortWrites v).cnt = s.cnt := rfl
@[simp] theorem State.setPortWrites_nmiBlocked : (s.setPortWrites v).nmiBlocked = s.nmiBlocked := rfl
@[simp] theorem State.setPortWrites_movSsBlocked : (s.setPortWrites v).movSsBlocked = s.movSsBlocked := rfl
@[simp] theorem State.setPortWrites_stiBlocked : (s.setPortWrites v).stiBlocked = s.stiBlocked := rfl
@[simp] theorem State.setPortWrites_dbPending : (s.setPortWrites v).dbPending = s.dbPending := rfl
@[simp] theorem State.setPortWrites_bpHits : (s.setPortWrites v).bpHits = s.bpHits := rfl
@[simp] theorem State.setPortWrites_activity : (s.setPortWrites v).activity = s.activity := rfl
@[simp] theorem State.setPortWrites_smx : (s.setPortWrites v).smx = s.smx := rfl
@[simp] theorem State.setPortWrites_acram : (s.setPortWrites v).acram = s.acram := rfl
@[simp] theorem State.setPortWrites_txt : (s.setPortWrites v).txt = s.txt := rfl
@[simp] theorem State.setPortWrites_vmx : (s.setPortWrites v).vmx = s.vmx := rfl
@[simp] theorem State.setPortWrites_inSmm : (s.setPortWrites v).inSmm = s.inSmm := rfl
@[simp] theorem State.setPortWrites_inSeam : (s.setPortWrites v).inSeam = s.inSeam := rfl
@[simp] theorem State.setPortWrites_smmSave : (s.setPortWrites v).smmSave = s.smmSave := rfl
@[simp] theorem State.setPortWrites_biosDone : (s.setPortWrites v).biosDone = s.biosDone := rfl
@[simp] theorem State.setPortWrites_pending : (s.setPortWrites v).pending = s.pending := rfl
@[simp] theorem State.setPortWrites_portWrites : (s.setPortWrites v).portWrites = v := rfl
@[simp] theorem State.setPortWrites_apicWrites : (s.setPortWrites v).apicWrites = s.apicWrites := rfl
@[simp] theorem State.setPortWrites_tlb : (s.setPortWrites v).tlb = s.tlb := rfl
@[simp] theorem State.setPortWrites_stored : (s.setPortWrites v).stored = s.stored := rfl
@[simp] theorem State.setPortWrites_draws : (s.setPortWrites v).draws = s.draws := rfl
@[simp] theorem State.setPortWrites_mem : (s.setPortWrites v).mem = s.mem := rfl
end PortWrites

section ApicWrites
variable (v : List ApicWrite)
@[simp] theorem State.setApicWrites_cfg : (s.setApicWrites v).cfg = s.cfg := rfl
@[simp] theorem State.setApicWrites_gpr : (s.setApicWrites v).gpr = s.gpr := rfl
@[simp] theorem State.setApicWrites_rip : (s.setApicWrites v).rip = s.rip := rfl
@[simp] theorem State.setApicWrites_nextRip : (s.setApicWrites v).nextRip = s.nextRip := rfl
@[simp] theorem State.setApicWrites_rflags : (s.setApicWrites v).rflags = s.rflags := rfl
@[simp] theorem State.setApicWrites_cr0 : (s.setApicWrites v).cr0 = s.cr0 := rfl
@[simp] theorem State.setApicWrites_cr2 : (s.setApicWrites v).cr2 = s.cr2 := rfl
@[simp] theorem State.setApicWrites_cr3 : (s.setApicWrites v).cr3 = s.cr3 := rfl
@[simp] theorem State.setApicWrites_cr4 : (s.setApicWrites v).cr4 = s.cr4 := rfl
@[simp] theorem State.setApicWrites_cr8 : (s.setApicWrites v).cr8 = s.cr8 := rfl
@[simp] theorem State.setApicWrites_efer : (s.setApicWrites v).efer = s.efer := rfl
@[simp] theorem State.setApicWrites_xcr0 : (s.setApicWrites v).xcr0 = s.xcr0 := rfl
@[simp] theorem State.setApicWrites_cs : (s.setApicWrites v).cs = s.cs := rfl
@[simp] theorem State.setApicWrites_ss : (s.setApicWrites v).ss = s.ss := rfl
@[simp] theorem State.setApicWrites_ds : (s.setApicWrites v).ds = s.ds := rfl
@[simp] theorem State.setApicWrites_es : (s.setApicWrites v).es = s.es := rfl
@[simp] theorem State.setApicWrites_fs : (s.setApicWrites v).fs = s.fs := rfl
@[simp] theorem State.setApicWrites_gs : (s.setApicWrites v).gs = s.gs := rfl
@[simp] theorem State.setApicWrites_gdtr : (s.setApicWrites v).gdtr = s.gdtr := rfl
@[simp] theorem State.setApicWrites_idtr : (s.setApicWrites v).idtr = s.idtr := rfl
@[simp] theorem State.setApicWrites_ldtr : (s.setApicWrites v).ldtr = s.ldtr := rfl
@[simp] theorem State.setApicWrites_tr : (s.setApicWrites v).tr = s.tr := rfl
@[simp] theorem State.setApicWrites_dbg : (s.setApicWrites v).dbg = s.dbg := rfl
@[simp] theorem State.setApicWrites_fpu : (s.setApicWrites v).fpu = s.fpu := rfl
@[simp] theorem State.setApicWrites_sys : (s.setApicWrites v).sys = s.sys := rfl
@[simp] theorem State.setApicWrites_cet : (s.setApicWrites v).cet = s.cet := rfl
@[simp] theorem State.setApicWrites_plat : (s.setApicWrites v).plat = s.plat := rfl
@[simp] theorem State.setApicWrites_cnt : (s.setApicWrites v).cnt = s.cnt := rfl
@[simp] theorem State.setApicWrites_nmiBlocked : (s.setApicWrites v).nmiBlocked = s.nmiBlocked := rfl
@[simp] theorem State.setApicWrites_movSsBlocked : (s.setApicWrites v).movSsBlocked = s.movSsBlocked := rfl
@[simp] theorem State.setApicWrites_stiBlocked : (s.setApicWrites v).stiBlocked = s.stiBlocked := rfl
@[simp] theorem State.setApicWrites_dbPending : (s.setApicWrites v).dbPending = s.dbPending := rfl
@[simp] theorem State.setApicWrites_bpHits : (s.setApicWrites v).bpHits = s.bpHits := rfl
@[simp] theorem State.setApicWrites_activity : (s.setApicWrites v).activity = s.activity := rfl
@[simp] theorem State.setApicWrites_smx : (s.setApicWrites v).smx = s.smx := rfl
@[simp] theorem State.setApicWrites_acram : (s.setApicWrites v).acram = s.acram := rfl
@[simp] theorem State.setApicWrites_txt : (s.setApicWrites v).txt = s.txt := rfl
@[simp] theorem State.setApicWrites_vmx : (s.setApicWrites v).vmx = s.vmx := rfl
@[simp] theorem State.setApicWrites_inSmm : (s.setApicWrites v).inSmm = s.inSmm := rfl
@[simp] theorem State.setApicWrites_inSeam : (s.setApicWrites v).inSeam = s.inSeam := rfl
@[simp] theorem State.setApicWrites_smmSave : (s.setApicWrites v).smmSave = s.smmSave := rfl
@[simp] theorem State.setApicWrites_biosDone : (s.setApicWrites v).biosDone = s.biosDone := rfl
@[simp] theorem State.setApicWrites_pending : (s.setApicWrites v).pending = s.pending := rfl
@[simp] theorem State.setApicWrites_portWrites : (s.setApicWrites v).portWrites = s.portWrites := rfl
@[simp] theorem State.setApicWrites_apicWrites : (s.setApicWrites v).apicWrites = v := rfl
@[simp] theorem State.setApicWrites_tlb : (s.setApicWrites v).tlb = s.tlb := rfl
@[simp] theorem State.setApicWrites_stored : (s.setApicWrites v).stored = s.stored := rfl
@[simp] theorem State.setApicWrites_draws : (s.setApicWrites v).draws = s.draws := rfl
@[simp] theorem State.setApicWrites_mem : (s.setApicWrites v).mem = s.mem := rfl
end ApicWrites

section Tlb
variable (v : Tlb)
@[simp] theorem State.setTlb_cfg : (s.setTlb v).cfg = s.cfg := rfl
@[simp] theorem State.setTlb_gpr : (s.setTlb v).gpr = s.gpr := rfl
@[simp] theorem State.setTlb_rip : (s.setTlb v).rip = s.rip := rfl
@[simp] theorem State.setTlb_nextRip : (s.setTlb v).nextRip = s.nextRip := rfl
@[simp] theorem State.setTlb_rflags : (s.setTlb v).rflags = s.rflags := rfl
@[simp] theorem State.setTlb_cr0 : (s.setTlb v).cr0 = s.cr0 := rfl
@[simp] theorem State.setTlb_cr2 : (s.setTlb v).cr2 = s.cr2 := rfl
@[simp] theorem State.setTlb_cr3 : (s.setTlb v).cr3 = s.cr3 := rfl
@[simp] theorem State.setTlb_cr4 : (s.setTlb v).cr4 = s.cr4 := rfl
@[simp] theorem State.setTlb_cr8 : (s.setTlb v).cr8 = s.cr8 := rfl
@[simp] theorem State.setTlb_efer : (s.setTlb v).efer = s.efer := rfl
@[simp] theorem State.setTlb_xcr0 : (s.setTlb v).xcr0 = s.xcr0 := rfl
@[simp] theorem State.setTlb_cs : (s.setTlb v).cs = s.cs := rfl
@[simp] theorem State.setTlb_ss : (s.setTlb v).ss = s.ss := rfl
@[simp] theorem State.setTlb_ds : (s.setTlb v).ds = s.ds := rfl
@[simp] theorem State.setTlb_es : (s.setTlb v).es = s.es := rfl
@[simp] theorem State.setTlb_fs : (s.setTlb v).fs = s.fs := rfl
@[simp] theorem State.setTlb_gs : (s.setTlb v).gs = s.gs := rfl
@[simp] theorem State.setTlb_gdtr : (s.setTlb v).gdtr = s.gdtr := rfl
@[simp] theorem State.setTlb_idtr : (s.setTlb v).idtr = s.idtr := rfl
@[simp] theorem State.setTlb_ldtr : (s.setTlb v).ldtr = s.ldtr := rfl
@[simp] theorem State.setTlb_tr : (s.setTlb v).tr = s.tr := rfl
@[simp] theorem State.setTlb_dbg : (s.setTlb v).dbg = s.dbg := rfl
@[simp] theorem State.setTlb_fpu : (s.setTlb v).fpu = s.fpu := rfl
@[simp] theorem State.setTlb_sys : (s.setTlb v).sys = s.sys := rfl
@[simp] theorem State.setTlb_cet : (s.setTlb v).cet = s.cet := rfl
@[simp] theorem State.setTlb_plat : (s.setTlb v).plat = s.plat := rfl
@[simp] theorem State.setTlb_cnt : (s.setTlb v).cnt = s.cnt := rfl
@[simp] theorem State.setTlb_nmiBlocked : (s.setTlb v).nmiBlocked = s.nmiBlocked := rfl
@[simp] theorem State.setTlb_movSsBlocked : (s.setTlb v).movSsBlocked = s.movSsBlocked := rfl
@[simp] theorem State.setTlb_stiBlocked : (s.setTlb v).stiBlocked = s.stiBlocked := rfl
@[simp] theorem State.setTlb_dbPending : (s.setTlb v).dbPending = s.dbPending := rfl
@[simp] theorem State.setTlb_bpHits : (s.setTlb v).bpHits = s.bpHits := rfl
@[simp] theorem State.setTlb_activity : (s.setTlb v).activity = s.activity := rfl
@[simp] theorem State.setTlb_smx : (s.setTlb v).smx = s.smx := rfl
@[simp] theorem State.setTlb_acram : (s.setTlb v).acram = s.acram := rfl
@[simp] theorem State.setTlb_txt : (s.setTlb v).txt = s.txt := rfl
@[simp] theorem State.setTlb_vmx : (s.setTlb v).vmx = s.vmx := rfl
@[simp] theorem State.setTlb_inSmm : (s.setTlb v).inSmm = s.inSmm := rfl
@[simp] theorem State.setTlb_inSeam : (s.setTlb v).inSeam = s.inSeam := rfl
@[simp] theorem State.setTlb_smmSave : (s.setTlb v).smmSave = s.smmSave := rfl
@[simp] theorem State.setTlb_biosDone : (s.setTlb v).biosDone = s.biosDone := rfl
@[simp] theorem State.setTlb_pending : (s.setTlb v).pending = s.pending := rfl
@[simp] theorem State.setTlb_portWrites : (s.setTlb v).portWrites = s.portWrites := rfl
@[simp] theorem State.setTlb_apicWrites : (s.setTlb v).apicWrites = s.apicWrites := rfl
@[simp] theorem State.setTlb_tlb : (s.setTlb v).tlb = v := rfl
@[simp] theorem State.setTlb_stored : (s.setTlb v).stored = s.stored := rfl
@[simp] theorem State.setTlb_draws : (s.setTlb v).draws = s.draws := rfl
@[simp] theorem State.setTlb_mem : (s.setTlb v).mem = s.mem := rfl
end Tlb

section Stored
variable (v : List Nat)
@[simp] theorem State.setStored_cfg : (s.setStored v).cfg = s.cfg := rfl
@[simp] theorem State.setStored_gpr : (s.setStored v).gpr = s.gpr := rfl
@[simp] theorem State.setStored_rip : (s.setStored v).rip = s.rip := rfl
@[simp] theorem State.setStored_nextRip : (s.setStored v).nextRip = s.nextRip := rfl
@[simp] theorem State.setStored_rflags : (s.setStored v).rflags = s.rflags := rfl
@[simp] theorem State.setStored_cr0 : (s.setStored v).cr0 = s.cr0 := rfl
@[simp] theorem State.setStored_cr2 : (s.setStored v).cr2 = s.cr2 := rfl
@[simp] theorem State.setStored_cr3 : (s.setStored v).cr3 = s.cr3 := rfl
@[simp] theorem State.setStored_cr4 : (s.setStored v).cr4 = s.cr4 := rfl
@[simp] theorem State.setStored_cr8 : (s.setStored v).cr8 = s.cr8 := rfl
@[simp] theorem State.setStored_efer : (s.setStored v).efer = s.efer := rfl
@[simp] theorem State.setStored_xcr0 : (s.setStored v).xcr0 = s.xcr0 := rfl
@[simp] theorem State.setStored_cs : (s.setStored v).cs = s.cs := rfl
@[simp] theorem State.setStored_ss : (s.setStored v).ss = s.ss := rfl
@[simp] theorem State.setStored_ds : (s.setStored v).ds = s.ds := rfl
@[simp] theorem State.setStored_es : (s.setStored v).es = s.es := rfl
@[simp] theorem State.setStored_fs : (s.setStored v).fs = s.fs := rfl
@[simp] theorem State.setStored_gs : (s.setStored v).gs = s.gs := rfl
@[simp] theorem State.setStored_gdtr : (s.setStored v).gdtr = s.gdtr := rfl
@[simp] theorem State.setStored_idtr : (s.setStored v).idtr = s.idtr := rfl
@[simp] theorem State.setStored_ldtr : (s.setStored v).ldtr = s.ldtr := rfl
@[simp] theorem State.setStored_tr : (s.setStored v).tr = s.tr := rfl
@[simp] theorem State.setStored_dbg : (s.setStored v).dbg = s.dbg := rfl
@[simp] theorem State.setStored_fpu : (s.setStored v).fpu = s.fpu := rfl
@[simp] theorem State.setStored_sys : (s.setStored v).sys = s.sys := rfl
@[simp] theorem State.setStored_cet : (s.setStored v).cet = s.cet := rfl
@[simp] theorem State.setStored_plat : (s.setStored v).plat = s.plat := rfl
@[simp] theorem State.setStored_cnt : (s.setStored v).cnt = s.cnt := rfl
@[simp] theorem State.setStored_nmiBlocked : (s.setStored v).nmiBlocked = s.nmiBlocked := rfl
@[simp] theorem State.setStored_movSsBlocked : (s.setStored v).movSsBlocked = s.movSsBlocked := rfl
@[simp] theorem State.setStored_stiBlocked : (s.setStored v).stiBlocked = s.stiBlocked := rfl
@[simp] theorem State.setStored_dbPending : (s.setStored v).dbPending = s.dbPending := rfl
@[simp] theorem State.setStored_bpHits : (s.setStored v).bpHits = s.bpHits := rfl
@[simp] theorem State.setStored_activity : (s.setStored v).activity = s.activity := rfl
@[simp] theorem State.setStored_smx : (s.setStored v).smx = s.smx := rfl
@[simp] theorem State.setStored_acram : (s.setStored v).acram = s.acram := rfl
@[simp] theorem State.setStored_txt : (s.setStored v).txt = s.txt := rfl
@[simp] theorem State.setStored_vmx : (s.setStored v).vmx = s.vmx := rfl
@[simp] theorem State.setStored_inSmm : (s.setStored v).inSmm = s.inSmm := rfl
@[simp] theorem State.setStored_inSeam : (s.setStored v).inSeam = s.inSeam := rfl
@[simp] theorem State.setStored_smmSave : (s.setStored v).smmSave = s.smmSave := rfl
@[simp] theorem State.setStored_biosDone : (s.setStored v).biosDone = s.biosDone := rfl
@[simp] theorem State.setStored_pending : (s.setStored v).pending = s.pending := rfl
@[simp] theorem State.setStored_portWrites : (s.setStored v).portWrites = s.portWrites := rfl
@[simp] theorem State.setStored_apicWrites : (s.setStored v).apicWrites = s.apicWrites := rfl
@[simp] theorem State.setStored_tlb : (s.setStored v).tlb = s.tlb := rfl
@[simp] theorem State.setStored_stored : (s.setStored v).stored = v := rfl
@[simp] theorem State.setStored_draws : (s.setStored v).draws = s.draws := rfl
@[simp] theorem State.setStored_mem : (s.setStored v).mem = s.mem := rfl
end Stored

section Draws
variable (v : Nat)
@[simp] theorem State.setDraws_cfg : (s.setDraws v).cfg = s.cfg := rfl
@[simp] theorem State.setDraws_gpr : (s.setDraws v).gpr = s.gpr := rfl
@[simp] theorem State.setDraws_rip : (s.setDraws v).rip = s.rip := rfl
@[simp] theorem State.setDraws_nextRip : (s.setDraws v).nextRip = s.nextRip := rfl
@[simp] theorem State.setDraws_rflags : (s.setDraws v).rflags = s.rflags := rfl
@[simp] theorem State.setDraws_cr0 : (s.setDraws v).cr0 = s.cr0 := rfl
@[simp] theorem State.setDraws_cr2 : (s.setDraws v).cr2 = s.cr2 := rfl
@[simp] theorem State.setDraws_cr3 : (s.setDraws v).cr3 = s.cr3 := rfl
@[simp] theorem State.setDraws_cr4 : (s.setDraws v).cr4 = s.cr4 := rfl
@[simp] theorem State.setDraws_cr8 : (s.setDraws v).cr8 = s.cr8 := rfl
@[simp] theorem State.setDraws_efer : (s.setDraws v).efer = s.efer := rfl
@[simp] theorem State.setDraws_xcr0 : (s.setDraws v).xcr0 = s.xcr0 := rfl
@[simp] theorem State.setDraws_cs : (s.setDraws v).cs = s.cs := rfl
@[simp] theorem State.setDraws_ss : (s.setDraws v).ss = s.ss := rfl
@[simp] theorem State.setDraws_ds : (s.setDraws v).ds = s.ds := rfl
@[simp] theorem State.setDraws_es : (s.setDraws v).es = s.es := rfl
@[simp] theorem State.setDraws_fs : (s.setDraws v).fs = s.fs := rfl
@[simp] theorem State.setDraws_gs : (s.setDraws v).gs = s.gs := rfl
@[simp] theorem State.setDraws_gdtr : (s.setDraws v).gdtr = s.gdtr := rfl
@[simp] theorem State.setDraws_idtr : (s.setDraws v).idtr = s.idtr := rfl
@[simp] theorem State.setDraws_ldtr : (s.setDraws v).ldtr = s.ldtr := rfl
@[simp] theorem State.setDraws_tr : (s.setDraws v).tr = s.tr := rfl
@[simp] theorem State.setDraws_dbg : (s.setDraws v).dbg = s.dbg := rfl
@[simp] theorem State.setDraws_fpu : (s.setDraws v).fpu = s.fpu := rfl
@[simp] theorem State.setDraws_sys : (s.setDraws v).sys = s.sys := rfl
@[simp] theorem State.setDraws_cet : (s.setDraws v).cet = s.cet := rfl
@[simp] theorem State.setDraws_plat : (s.setDraws v).plat = s.plat := rfl
@[simp] theorem State.setDraws_cnt : (s.setDraws v).cnt = s.cnt := rfl
@[simp] theorem State.setDraws_nmiBlocked : (s.setDraws v).nmiBlocked = s.nmiBlocked := rfl
@[simp] theorem State.setDraws_movSsBlocked : (s.setDraws v).movSsBlocked = s.movSsBlocked := rfl
@[simp] theorem State.setDraws_stiBlocked : (s.setDraws v).stiBlocked = s.stiBlocked := rfl
@[simp] theorem State.setDraws_dbPending : (s.setDraws v).dbPending = s.dbPending := rfl
@[simp] theorem State.setDraws_bpHits : (s.setDraws v).bpHits = s.bpHits := rfl
@[simp] theorem State.setDraws_activity : (s.setDraws v).activity = s.activity := rfl
@[simp] theorem State.setDraws_smx : (s.setDraws v).smx = s.smx := rfl
@[simp] theorem State.setDraws_acram : (s.setDraws v).acram = s.acram := rfl
@[simp] theorem State.setDraws_txt : (s.setDraws v).txt = s.txt := rfl
@[simp] theorem State.setDraws_vmx : (s.setDraws v).vmx = s.vmx := rfl
@[simp] theorem State.setDraws_inSmm : (s.setDraws v).inSmm = s.inSmm := rfl
@[simp] theorem State.setDraws_inSeam : (s.setDraws v).inSeam = s.inSeam := rfl
@[simp] theorem State.setDraws_smmSave : (s.setDraws v).smmSave = s.smmSave := rfl
@[simp] theorem State.setDraws_biosDone : (s.setDraws v).biosDone = s.biosDone := rfl
@[simp] theorem State.setDraws_pending : (s.setDraws v).pending = s.pending := rfl
@[simp] theorem State.setDraws_portWrites : (s.setDraws v).portWrites = s.portWrites := rfl
@[simp] theorem State.setDraws_apicWrites : (s.setDraws v).apicWrites = s.apicWrites := rfl
@[simp] theorem State.setDraws_tlb : (s.setDraws v).tlb = s.tlb := rfl
@[simp] theorem State.setDraws_stored : (s.setDraws v).stored = s.stored := rfl
@[simp] theorem State.setDraws_draws : (s.setDraws v).draws = v := rfl
@[simp] theorem State.setDraws_mem : (s.setDraws v).mem = s.mem := rfl
end Draws

section Mem
variable (v : List Host.Cell)
@[simp] theorem State.setMem_cfg : (s.setMem v).cfg = s.cfg := rfl
@[simp] theorem State.setMem_gpr : (s.setMem v).gpr = s.gpr := rfl
@[simp] theorem State.setMem_rip : (s.setMem v).rip = s.rip := rfl
@[simp] theorem State.setMem_nextRip : (s.setMem v).nextRip = s.nextRip := rfl
@[simp] theorem State.setMem_rflags : (s.setMem v).rflags = s.rflags := rfl
@[simp] theorem State.setMem_cr0 : (s.setMem v).cr0 = s.cr0 := rfl
@[simp] theorem State.setMem_cr2 : (s.setMem v).cr2 = s.cr2 := rfl
@[simp] theorem State.setMem_cr3 : (s.setMem v).cr3 = s.cr3 := rfl
@[simp] theorem State.setMem_cr4 : (s.setMem v).cr4 = s.cr4 := rfl
@[simp] theorem State.setMem_cr8 : (s.setMem v).cr8 = s.cr8 := rfl
@[simp] theorem State.setMem_efer : (s.setMem v).efer = s.efer := rfl
@[simp] theorem State.setMem_xcr0 : (s.setMem v).xcr0 = s.xcr0 := rfl
@[simp] theorem State.setMem_cs : (s.setMem v).cs = s.cs := rfl
@[simp] theorem State.setMem_ss : (s.setMem v).ss = s.ss := rfl
@[simp] theorem State.setMem_ds : (s.setMem v).ds = s.ds := rfl
@[simp] theorem State.setMem_es : (s.setMem v).es = s.es := rfl
@[simp] theorem State.setMem_fs : (s.setMem v).fs = s.fs := rfl
@[simp] theorem State.setMem_gs : (s.setMem v).gs = s.gs := rfl
@[simp] theorem State.setMem_gdtr : (s.setMem v).gdtr = s.gdtr := rfl
@[simp] theorem State.setMem_idtr : (s.setMem v).idtr = s.idtr := rfl
@[simp] theorem State.setMem_ldtr : (s.setMem v).ldtr = s.ldtr := rfl
@[simp] theorem State.setMem_tr : (s.setMem v).tr = s.tr := rfl
@[simp] theorem State.setMem_dbg : (s.setMem v).dbg = s.dbg := rfl
@[simp] theorem State.setMem_fpu : (s.setMem v).fpu = s.fpu := rfl
@[simp] theorem State.setMem_sys : (s.setMem v).sys = s.sys := rfl
@[simp] theorem State.setMem_cet : (s.setMem v).cet = s.cet := rfl
@[simp] theorem State.setMem_plat : (s.setMem v).plat = s.plat := rfl
@[simp] theorem State.setMem_cnt : (s.setMem v).cnt = s.cnt := rfl
@[simp] theorem State.setMem_nmiBlocked : (s.setMem v).nmiBlocked = s.nmiBlocked := rfl
@[simp] theorem State.setMem_movSsBlocked : (s.setMem v).movSsBlocked = s.movSsBlocked := rfl
@[simp] theorem State.setMem_stiBlocked : (s.setMem v).stiBlocked = s.stiBlocked := rfl
@[simp] theorem State.setMem_dbPending : (s.setMem v).dbPending = s.dbPending := rfl
@[simp] theorem State.setMem_bpHits : (s.setMem v).bpHits = s.bpHits := rfl
@[simp] theorem State.setMem_activity : (s.setMem v).activity = s.activity := rfl
@[simp] theorem State.setMem_smx : (s.setMem v).smx = s.smx := rfl
@[simp] theorem State.setMem_acram : (s.setMem v).acram = s.acram := rfl
@[simp] theorem State.setMem_txt : (s.setMem v).txt = s.txt := rfl
@[simp] theorem State.setMem_vmx : (s.setMem v).vmx = s.vmx := rfl
@[simp] theorem State.setMem_inSmm : (s.setMem v).inSmm = s.inSmm := rfl
@[simp] theorem State.setMem_inSeam : (s.setMem v).inSeam = s.inSeam := rfl
@[simp] theorem State.setMem_smmSave : (s.setMem v).smmSave = s.smmSave := rfl
@[simp] theorem State.setMem_biosDone : (s.setMem v).biosDone = s.biosDone := rfl
@[simp] theorem State.setMem_pending : (s.setMem v).pending = s.pending := rfl
@[simp] theorem State.setMem_portWrites : (s.setMem v).portWrites = s.portWrites := rfl
@[simp] theorem State.setMem_apicWrites : (s.setMem v).apicWrites = s.apicWrites := rfl
@[simp] theorem State.setMem_tlb : (s.setMem v).tlb = s.tlb := rfl
@[simp] theorem State.setMem_stored : (s.setMem v).stored = s.stored := rfl
@[simp] theorem State.setMem_draws : (s.setMem v).draws = s.draws := rfl
@[simp] theorem State.setMem_mem : (s.setMem v).mem = v := rfl
end Mem

end Sys2Proof.Machine
end

