-- ==== Sys2Proof/Laws/Paging.lean ====
section
/-! SUPPORT. What a store to physical memory does: the bytes it writes, every other byte, every other field; and where the
bytes of an access lie (R90, R114). -/

namespace Sys2Proof.Machine

/-! ## One byte -/

@[simp] theorem State.inAcram_setByteAt (s : State) (pa b : Nat) (v : Byte) :
    (s.setByteAt pa v).inAcram b = s.inAcram b := by
  unfold State.setByteAt; split <;> rfl

/-- A store of one byte changes nothing but the two memories. -/
theorem State.setByteAt_eq (s : State) (pa : Nat) (v : Byte) :
    s.setByteAt pa v = { s with mem := (s.setByteAt pa v).mem, acram := (s.setByteAt pa v).acram } := by
  unfold State.setByteAt; split <;> rfl

/-- Both memories are in canonical form. -/
def State.memOk (s : State) : Prop := Memory.wf s.mem = true ∧ Memory.wf s.acram = true

theorem State.memOk_setByteAt (s : State) (pa : Nat) (v : Byte) (h : s.memOk) : (s.setByteAt pa v).memOk := by
  unfold State.setByteAt
  split
  · exact ⟨h.1, Memory.wf_write _ _ _ h.2⟩
  · exact ⟨Memory.wf_write _ _ _ h.1, h.2⟩

theorem State.byteAt_setByteAt_same (s : State) (pa : Nat) (v : Byte) (h : s.memOk) :
    (s.setByteAt pa v).byteAt pa = v := by
  rw [State.byteAt, State.inAcram_setByteAt]
  unfold State.setByteAt
  split <;> simp only [State.setAcram_acram, State.setMem_mem]
  · exact Memory.read_write_same _ _ _ h.2
  · exact Memory.read_write_same _ _ _ h.1

theorem State.byteAt_setByteAt_other (s : State) (pa b : Nat) (v : Byte) (hb : b ≠ pa) (h : s.memOk) :
    (s.setByteAt pa v).byteAt b = s.byteAt b := by
  rw [State.byteAt, State.inAcram_setByteAt, State.byteAt]
  unfold State.setByteAt
  split <;> split <;> simp only [State.setAcram_acram, State.setAcram_mem, State.setMem_mem, State.setMem_acram]
  · exact Memory.read_write_other _ _ _ _ hb h.2
  · exact Memory.read_write_other _ _ _ _ hb h.1

/-! ## Several bytes -/

/-- Bytes put in memory change nothing but the two memories. -/
theorem State.putBytes_eq (s : State) (pas : List Nat) (bs : List Byte) :
    s.putBytes pas bs = { s with mem := (s.putBytes pas bs).mem, acram := (s.putBytes pas bs).acram } := by
  induction pas generalizing s bs with
  | nil => cases bs <;> rfl
  | cons pa pas ih =>
    cases bs with
    | nil => rfl
    | cons b bs =>
      have h := ih (s.setByteAt pa b) bs
      simp only [State.putBytes]
      rw [h, State.setByteAt_eq]

/-- A store changes nothing but the two memories, the stored bytes and the translations that may be stale. -/
theorem State.storeAt_eq (s : State) (pas : List Nat) (bs : List Byte) :
    s.storeAt pas bs = { s with
      mem := (s.storeAt pas bs).mem, acram := (s.storeAt pas bs).acram
      stored := pas ++ s.stored, tlb := { s.tlb with past := s.pastEntries pas ++ s.tlb.past } } :=
  State.putBytes_eq (s.noteStore pas) pas bs

@[simp] theorem State.storeAt_cfg (s : State) (pas : List Nat) (bs : List Byte) :
    (s.storeAt pas bs).cfg = s.cfg := by
  have h := congrArg State.cfg (State.storeAt_eq s pas bs); exact h
@[simp] theorem State.storeAt_gpr (s : State) (pas : List Nat) (bs : List Byte) :
    (s.storeAt pas bs).gpr = s.gpr := by
  have h := congrArg State.gpr (State.storeAt_eq s pas bs); exact h
@[simp] theorem State.storeAt_rip (s : State) (pas : List Nat) (bs : List Byte) :
    (s.storeAt pas bs).rip = s.rip := by
  have h := congrArg State.rip (State.storeAt_eq s pas bs); exact h
@[simp] theorem State.storeAt_nextRip (s : State) (pas : List Nat) (bs : List Byte) :
    (s.storeAt pas bs).nextRip = s.nextRip := by
  have h := congrArg State.nextRip (State.storeAt_eq s pas bs); exact h
@[simp] theorem State.storeAt_rflags (s : State) (pas : List Nat) (bs : List Byte) :
    (s.storeAt pas bs).rflags = s.rflags := by
  have h := congrArg State.rflags (State.storeAt_eq s pas bs); exact h
@[simp] theorem State.storeAt_cr0 (s : State) (pas : List Nat) (bs : List Byte) :
    (s.storeAt pas bs).cr0 = s.cr0 := by
  have h := congrArg State.cr0 (State.storeAt_eq s pas bs); exact h
@[simp] theorem State.storeAt_cr2 (s : State) (pas : List Nat) (bs : List Byte) :
    (s.storeAt pas bs).cr2 = s.cr2 := by
  have h := congrArg State.cr2 (State.storeAt_eq s pas bs); exact h
@[simp] theorem State.storeAt_cr3 (s : State) (pas : List Nat) (bs : List Byte) :
    (s.storeAt pas bs).cr3 = s.cr3 := by
  have h := congrArg State.cr3 (State.storeAt_eq s pas bs); exact h
@[simp] theorem State.storeAt_cr4 (s : State) (pas : List Nat) (bs : List Byte) :
    (s.storeAt pas bs).cr4 = s.cr4 := by
  have h := congrArg State.cr4 (State.storeAt_eq s pas bs); exact h
@[simp] theorem State.storeAt_cr8 (s : State) (pas : List Nat) (bs : List Byte) :
    (s.storeAt pas bs).cr8 = s.cr8 := by
  have h := congrArg State.cr8 (State.storeAt_eq s pas bs); exact h
@[simp] theorem State.storeAt_efer (s : State) (pas : List Nat) (bs : List Byte) :
    (s.storeAt pas bs).efer = s.efer := by
  have h := congrArg State.efer (State.storeAt_eq s pas bs); exact h
@[simp] theorem State.storeAt_xcr0 (s : State) (pas : List Nat) (bs : List Byte) :
    (s.storeAt pas bs).xcr0 = s.xcr0 := by
  have h := congrArg State.xcr0 (State.storeAt_eq s pas bs); exact h
@[simp] theorem State.storeAt_cs (s : State) (pas : List Nat) (bs : List Byte) :
    (s.storeAt pas bs).cs = s.cs := by
  have h := congrArg State.cs (State.storeAt_eq s pas bs); exact h
@[simp] theorem State.storeAt_ss (s : State) (pas : List Nat) (bs : List Byte) :
    (s.storeAt pas bs).ss = s.ss := by
  have h := congrArg State.ss (State.storeAt_eq s pas bs); exact h
@[simp] theorem State.storeAt_ds (s : State) (pas : List Nat) (bs : List Byte) :
    (s.storeAt pas bs).ds = s.ds := by
  have h := congrArg State.ds (State.storeAt_eq s pas bs); exact h
@[simp] theorem State.storeAt_es (s : State) (pas : List Nat) (bs : List Byte) :
    (s.storeAt pas bs).es = s.es := by
  have h := congrArg State.es (State.storeAt_eq s pas bs); exact h
@[simp] theorem State.storeAt_fs (s : State) (pas : List Nat) (bs : List Byte) :
    (s.storeAt pas bs).fs = s.fs := by
  have h := congrArg State.fs (State.storeAt_eq s pas bs); exact h
@[simp] theorem State.storeAt_gs (s : State) (pas : List Nat) (bs : List Byte) :
    (s.storeAt pas bs).gs = s.gs := by
  have h := congrArg State.gs (State.storeAt_eq s pas bs); exact h
@[simp] theorem State.storeAt_gdtr (s : State) (pas : List Nat) (bs : List Byte) :
    (s.storeAt pas bs).gdtr = s.gdtr := by
  have h := congrArg State.gdtr (State.storeAt_eq s pas bs); exact h
@[simp] theorem State.storeAt_idtr (s : State) (pas : List Nat) (bs : List Byte) :
    (s.storeAt pas bs).idtr = s.idtr := by
  have h := congrArg State.idtr (State.storeAt_eq s pas bs); exact h
@[simp] theorem State.storeAt_ldtr (s : State) (pas : List Nat) (bs : List Byte) :
    (s.storeAt pas bs).ldtr = s.ldtr := by
  have h := congrArg State.ldtr (State.storeAt_eq s pas bs); exact h
@[simp] theorem State.storeAt_tr (s : State) (pas : List Nat) (bs : List Byte) :
    (s.storeAt pas bs).tr = s.tr := by
  have h := congrArg State.tr (State.storeAt_eq s pas bs); exact h
@[simp] theorem State.storeAt_dbg (s : State) (pas : List Nat) (bs : List Byte) :
    (s.storeAt pas bs).dbg = s.dbg := by
  have h := congrArg State.dbg (State.storeAt_eq s pas bs); exact h
@[simp] theorem State.storeAt_fpu (s : State) (pas : List Nat) (bs : List Byte) :
    (s.storeAt pas bs).fpu = s.fpu := by
  have h := congrArg State.fpu (State.storeAt_eq s pas bs); exact h
@[simp] theorem State.storeAt_sys (s : State) (pas : List Nat) (bs : List Byte) :
    (s.storeAt pas bs).sys = s.sys := by
  have h := congrArg State.sys (State.storeAt_eq s pas bs); exact h
@[simp] theorem State.storeAt_cet (s : State) (pas : List Nat) (bs : List Byte) :
    (s.storeAt pas bs).cet = s.cet := by
  have h := congrArg State.cet (State.storeAt_eq s pas bs); exact h
@[simp] theorem State.storeAt_plat (s : State) (pas : List Nat) (bs : List Byte) :
    (s.storeAt pas bs).plat = s.plat := by
  have h := congrArg State.plat (State.storeAt_eq s pas bs); exact h
@[simp] theorem State.storeAt_cnt (s : State) (pas : List Nat) (bs : List Byte) :
    (s.storeAt pas bs).cnt = s.cnt := by
  have h := congrArg State.cnt (State.storeAt_eq s pas bs); exact h
@[simp] theorem State.storeAt_nmiBlocked (s : State) (pas : List Nat) (bs : List Byte) :
    (s.storeAt pas bs).nmiBlocked = s.nmiBlocked := by
  have h := congrArg State.nmiBlocked (State.storeAt_eq s pas bs); exact h
@[simp] theorem State.storeAt_movSsBlocked (s : State) (pas : List Nat) (bs : List Byte) :
    (s.storeAt pas bs).movSsBlocked = s.movSsBlocked := by
  have h := congrArg State.movSsBlocked (State.storeAt_eq s pas bs); exact h
@[simp] theorem State.storeAt_stiBlocked (s : State) (pas : List Nat) (bs : List Byte) :
    (s.storeAt pas bs).stiBlocked = s.stiBlocked := by
  have h := congrArg State.stiBlocked (State.storeAt_eq s pas bs); exact h
@[simp] theorem State.storeAt_dbPending (s : State) (pas : List Nat) (bs : List Byte) :
    (s.storeAt pas bs).dbPending = s.dbPending := by
  have h := congrArg State.dbPending (State.storeAt_eq s pas bs); exact h
@[simp] theorem State.storeAt_bpHits (s : State) (pas : List Nat) (bs : List Byte) :
    (s.storeAt pas bs).bpHits = s.bpHits := by
  have h := congrArg State.bpHits (State.storeAt_eq s pas bs); exact h
@[simp] theorem State.storeAt_activity (s : State) (pas : List Nat) (bs : List Byte) :
    (s.storeAt pas bs).activity = s.activity := by
  have h := congrArg State.activity (State.storeAt_eq s pas bs); exact h
@[simp] theorem State.storeAt_smx (s : State) (pas : List Nat) (bs : List Byte) :
    (s.storeAt pas bs).smx = s.smx := by
  have h := congrArg State.smx (State.storeAt_eq s pas bs); exact h
@[simp] theorem State.storeAt_txt (s : State) (pas : List Nat) (bs : List Byte) :
    (s.storeAt pas bs).txt = s.txt := by
  have h := congrArg State.txt (State.storeAt_eq s pas bs); exact h
@[simp] theorem State.storeAt_vmx (s : State) (pas : List Nat) (bs : List Byte) :
    (s.storeAt pas bs).vmx = s.vmx := by
  have h := congrArg State.vmx (State.storeAt_eq s pas bs); exact h
@[simp] theorem State.storeAt_inSmm (s : State) (pas : List Nat) (bs : List Byte) :
    (s.storeAt pas bs).inSmm = s.inSmm := by
  have h := congrArg State.inSmm (State.storeAt_eq s pas bs); exact h
@[simp] theorem State.storeAt_inSeam (s : State) (pas : List Nat) (bs : List Byte) :
    (s.storeAt pas bs).inSeam = s.inSeam := by
  have h := congrArg State.inSeam (State.storeAt_eq s pas bs); exact h
@[simp] theorem State.storeAt_smmSave (s : State) (pas : List Nat) (bs : List Byte) :
    (s.storeAt pas bs).smmSave = s.smmSave := by
  have h := congrArg State.smmSave (State.storeAt_eq s pas bs); exact h
@[simp] theorem State.storeAt_biosDone (s : State) (pas : List Nat) (bs : List Byte) :
    (s.storeAt pas bs).biosDone = s.biosDone := by
  have h := congrArg State.biosDone (State.storeAt_eq s pas bs); exact h
@[simp] theorem State.storeAt_pending (s : State) (pas : List Nat) (bs : List Byte) :
    (s.storeAt pas bs).pending = s.pending := by
  have h := congrArg State.pending (State.storeAt_eq s pas bs); exact h
@[simp] theorem State.storeAt_portWrites (s : State) (pas : List Nat) (bs : List Byte) :
    (s.storeAt pas bs).portWrites = s.portWrites := by
  have h := congrArg State.portWrites (State.storeAt_eq s pas bs); exact h
@[simp] theorem State.storeAt_apicWrites (s : State) (pas : List Nat) (bs : List Byte) :
    (s.storeAt pas bs).apicWrites = s.apicWrites := by
  have h := congrArg State.apicWrites (State.storeAt_eq s pas bs); exact h
@[simp] theorem State.storeAt_draws (s : State) (pas : List Nat) (bs : List Byte) :
    (s.storeAt pas bs).draws = s.draws := by
  have h := congrArg State.draws (State.storeAt_eq s pas bs); exact h
@[simp] theorem State.storeAt_stored (s : State) (pas : List Nat) (bs : List Byte) :
    (s.storeAt pas bs).stored = pas ++ s.stored := by
  have h := congrArg State.stored (State.storeAt_eq s pas bs); exact h
@[simp] theorem State.storeAt_tlb (s : State) (pas : List Nat) (bs : List Byte) :
    (s.storeAt pas bs).tlb = { s.tlb with past := s.pastEntries pas ++ s.tlb.past } := by
  have h := congrArg State.tlb (State.storeAt_eq s pas bs); exact h

@[simp] theorem State.reg_storeAt (s : State) (pas : List Nat) (bs : List Byte) (r : Reg) :
    (s.storeAt pas bs).reg r = s.reg r := congrArg (fun g => Gprs.get g r) (State.storeAt_gpr s pas bs)

@[simp] theorem State.inAcram_storeAt (s : State) (pas : List Nat) (bs : List Byte) (a : Nat) :
    (s.storeAt pas bs).inAcram a = s.inAcram a := by
  simp [State.inAcram]

theorem State.memOk_putBytes (s : State) (pas : List Nat) (bs : List Byte) (h : s.memOk) : (s.putBytes pas bs).memOk := by
  induction pas generalizing s bs with
  | nil => cases bs <;> exact h
  | cons pa pas ih =>
    cases bs with
    | nil => exact h
    | cons b bs => exact ih _ bs (State.memOk_setByteAt s pa b h)

theorem State.memOk_storeAt (s : State) (pas : List Nat) (bs : List Byte) (h : s.memOk) : (s.storeAt pas bs).memOk :=
  State.memOk_putBytes (s.noteStore pas) pas bs h

/-- A byte outside the addresses written reads as before. -/
theorem State.byteAt_putBytes_other (s : State) (pas : List Nat) (bs : List Byte) (a : Nat) (ha : a ∉ pas) (h : s.memOk) :
    (s.putBytes pas bs).byteAt a = s.byteAt a := by
  induction pas generalizing s bs with
  | nil => cases bs <;> rfl
  | cons pa pas ih =>
    cases bs with
    | nil => rfl
    | cons b bs =>
      have h1 : a ≠ pa := fun e => ha (by simp [e])
      have h2 : a ∉ pas := fun e => ha (by simp [e])
      rw [State.putBytes, ih _ bs h2 (State.memOk_setByteAt s pa b h), State.byteAt_setByteAt_other s pa a b h1 h]

/-- A byte outside the addresses stored to reads as before. -/
theorem State.byteAt_storeAt_other (s : State) (pas : List Nat) (bs : List Byte) (a : Nat) (ha : a ∉ pas) (h : s.memOk) :
    (s.storeAt pas bs).byteAt a = s.byteAt a := State.byteAt_putBytes_other (s.noteStore pas) pas bs a ha h

/-- The bytes written read back, where no address is written twice. -/
theorem State.byteAt_putBytes_same (s : State) (pas : List Nat) (bs : List Byte) (hn : pas.Nodup)
    (hl : pas.length = bs.length) (h : s.memOk) : pas.map (s.putBytes pas bs).byteAt = bs := by
  induction pas generalizing s bs with
  | nil => cases bs with
    | nil => rfl
    | cons b bs => simp at hl
  | cons pa pas ih =>
    cases bs with
    | nil => simp at hl
    | cons b bs =>
      have hn' := List.nodup_cons.1 hn
      have hs := State.memOk_setByteAt s pa b h
      have h1 : ((s.setByteAt pa b).putBytes pas bs).byteAt pa = b := by
        rw [State.byteAt_putBytes_other _ _ _ _ hn'.1 hs, State.byteAt_setByteAt_same s pa b h]
      have h2 := ih (s.setByteAt pa b) bs hn'.2 (by simpa using hl) hs
      simp only [State.putBytes, List.map_cons, h1, h2]

/-- The bytes stored read back, where no address is stored to twice. -/
theorem State.byteAt_storeAt_same (s : State) (pas : List Nat) (bs : List Byte) (hn : pas.Nodup)
    (hl : pas.length = bs.length) (h : s.memOk) : pas.map (s.storeAt pas bs).byteAt = bs :=
  State.byteAt_putBytes_same (s.noteStore pas) pas bs hn hl h

/-! ## Where the bytes of an access lie -/

/-- A part of a meaning and what follows it complete exactly where the part answers a value from which the rest completes. -/
theorem Res.then_ok {α β : Type} (first : Res α) (next : α → Res β) (out : β) :
    (first >>= next) = .ok out ↔ ∃ v, next v = .ok out ∧ first = .ok v := by
  constructor
  · intro h
    match first, h with
    | .ok v, h => exact ⟨v, h, rfl⟩
  · rintro ⟨v, hv, rfl⟩
    exact hv

/-- `raiseIf` succeeds exactly where its condition is false. -/
theorem raiseIf_ok {b : Bool} {e : Exc} {u : Unit} : raiseIf b e = .ok u ↔ b = false := by
  cases b <;> simp [raiseIf, raise]

@[simp] theorem raiseIf_false (e : Exc) : raiseIf false e = .ok () := rfl
@[simp] theorem raiseIf_true (e : Exc) : raiseIf true e = .error (.exc e) := rfl

theorem mod4096_of_page (x size la : Nat) (h : 4096 ∣ size) : (x / size * size + la % size) % 4096 = la % 4096 := by
  obtain ⟨k, rfl⟩ := h
  rw [Nat.add_mod, show x / (4096 * k) * (4096 * k) % 4096 = 0 from by
    rw [← Nat.mul_assoc, Nat.mul_comm (x / (4096 * k)) 4096, Nat.mul_assoc]; exact Nat.mul_mod_right _ _,
    Nat.zero_add, Nat.mod_mod, Nat.mod_mul_right_mod]

theorem State.leaf_mod {s : State} {a : Access} {la : Word} {up : Rights} {e : Word} {size pa : Nat}
    (hs : 4096 ∣ size) (h : s.leaf a la up e size = .ok pa) : pa % 4096 = la.toNat % 4096 := by
  unfold State.leaf at h
  split at h
  · cases h; exact mod4096_of_page _ _ _ hs
  · cases h

/-- A walk keeps the page offset. -/
theorem State.walk_mod (s : State) (a : Access) (la : Word) (n : Nat) (table : Nat) (up : Rights) (pa : Nat)
    (h : s.walk a la table up n = .ok pa) : pa % 4096 = la.toNat % 4096 := by
  induction n generalizing table up with
  | zero =>
    obtain ⟨now, h, -⟩ := (Res.then_ok _ _ _).1 h
    dsimp only at h
    split at h
    · cases h
    · split at h
      · cases h
      · exact State.leaf_mod (by norm_num) h
  | succ n ih =>
    obtain ⟨now, h, -⟩ := (Res.then_ok _ _ _).1 h
    dsimp only at h
    split at h
    · cases h
    · split at h
      · cases h
      · split at h
        · split at h
          · cases h
          · refine State.leaf_mod ?_ h
            exact ⟨2 ^ (9 * (n + 1)), by rw [pow_add]; norm_num⟩
        · exact ih _ _ h

/-- A translation, by the tables of CR3 or by cached ones, keeps the page offset. -/
theorem State.translate_mod {s : State} {a : Access} {la : Word} {pa : Nat} (h : s.translate a la = .ok pa) :
    pa % 4096 = la.toNat % 4096 := by
  unfold State.translate at h
  split at h
  · exact State.walk_mod _ _ _ _ _ _ _ h
  · split at h
    · cases h; exact State.walk_mod _ _ _ _ _ _ _ ‹_›
    · exact State.walk_mod _ _ _ _ _ _ _ h

/-- So does the redirection to the virtual-APIC page. -/
theorem State.apicRedirect_mod {s : State} {a : Access} {q pa : Nat} (h : s.apicRedirect a q = .ok pa) :
    pa % 4096 = q % 4096 := by
  unfold State.apicRedirect at h
  split at h
  · cases h; rfl
  · split at h
    · split at h
      · cases h; omega
      · cases h
    · cases h; rfl

/-- The physical address of a byte has the page offset of its linear address. -/
theorem State.linear_mod {s : State} {a : Access} {la : Word} {pa : Nat} (h : s.linear a la = .ok pa) :
    pa % 4096 = la.toNat % 4096 := by
  unfold State.linear at h
  obtain ⟨-, h, -⟩ := (Res.then_ok _ _ _).1 h
  obtain ⟨t, h, ht⟩ := (Res.then_ok _ _ _).1 h
  obtain ⟨q, h, hq⟩ := (Res.then_ok _ _ _).1 h
  obtain ⟨-, h, -⟩ := (Res.then_ok _ _ _).1 h
  cases h
  rw [State.apicRedirect_mod hq, State.translate_mod ht]

/-- The bytes of `n` linear addresses: as many, each at the page offset of its linear address. -/
theorem State.linears_spec (s : State) (a : Access) (n : Nat) (la : Word) (pas : List Nat)
    (h : s.linears a la n = .ok pas) :
    pas.length = n ∧ ∀ k pa, pas[k]? = some pa → pa % 4096 = (la.toNat + k) % 4096 := by
  induction n generalizing la pas with
  | zero => cases h; simp
  | succ n ih =>
    unfold State.linears at h
    obtain ⟨pa, h, hpa⟩ := (Res.then_ok _ _ _).1 h
    obtain ⟨rest, h, hrest⟩ := (Res.then_ok _ _ _).1 h
    cases h
    obtain ⟨hl, hr⟩ := ih _ _ hrest
    refine ⟨by simp [hl], fun k q hk => ?_⟩
    cases k with
    | zero =>
      cases hk
      simpa using State.linear_mod hpa
    | succ k =>
      have := hr k q (by simpa using hk)
      rw [this, BitVec.toNat_add, show (1 : Word).toNat = 1 from rfl]
      omega

/-- At most 4096 consecutive bytes lie at different physical addresses. -/
theorem State.linears_nodup (s : State) (a : Access) (n : Nat) (la : Word) (pas : List Nat)
    (h : s.linears a la n = .ok pas) (hn : n ≤ 4096) : pas.Nodup := by
  obtain ⟨hl, hr⟩ := State.linears_spec s a n la pas h
  rw [List.nodup_iff_injective_get]
  intro i j hij
  have hi := hr i.1 (pas.get i) (by simp)
  have hj := hr j.1 (pas.get j) (by simp)
  rw [hij, hj] at hi
  have h1 := i.2
  have h2 := j.2
  exact Fin.ext (by omega)

/-- What an access answers: the alignment and the canonical test hold, and there is one address a byte. -/
theorem State.accessPas_spec {s : State} {a : Access} {la : Word} {n align : Nat} {pas : List Nat}
    (h : s.accessPas a la n align = .ok pas) :
    s.canonical la = true ∧ s.alignOk a la align = true ∧ s.linears a la n = .ok pas ∧ pas.length = n := by
  unfold State.accessPas at h
  obtain ⟨_, h, h1⟩ := (Res.then_ok _ _ _).1 h
  obtain ⟨_, h, h2⟩ := (Res.then_ok _ _ _).1 h
  refine ⟨?_, ?_, h, (State.linears_spec _ _ _ _ _ h).1⟩
  · simpa using raiseIf_ok.1 h1
  · simpa using raiseIf_ok.1 h2

theorem State.accessPas_nodup {s : State} {a : Access} {la : Word} {n align : Nat} {pas : List Nat}
    (h : s.accessPas a la n align = .ok pas) (hn : n ≤ 4096) : pas.Nodup :=
  State.linears_nodup _ _ _ _ _ (State.accessPas_spec h).2.2.1 hn

/-- What a write of bytes does: it stores them at the addresses of the access. -/
theorem State.writeBytes_spec {s t : State} {a : Access} {la : Word} {bs : List Byte} {align : Nat}
    (h : s.writeBytes a la bs align = .ok t) :
    ∃ pas, s.accessPas { a with write := true } la bs.length align = .ok pas ∧ t = s.storeAt pas bs := by
  unfold State.writeBytes at h
  obtain ⟨pas, h, hp⟩ := (Res.then_ok _ _ _).1 h
  cases h
  exact ⟨pas, hp, rfl⟩

/-- `MemWrite` stores the value's bytes. -/
theorem State.memWrite_spec {s t : State} {la : Word} {n : Nat} {v : Word} (h : s.memWrite la n v = .ok t) :
    ∃ pas, s.accessPas { s.dataAccess with write := true } la (leBytes n v).length n = .ok pas ∧
      t = s.storeAt pas (leBytes n v) := State.writeBytes_spec h

@[simp] theorem leBytes_length (n : Nat) (v : Word) : (leBytes n v).length = n := by
  induction n generalizing v with
  | zero => rfl
  | succ n ih => simp [leBytes, ih]

end Sys2Proof.Machine
end

