-- ==== Sys2Proof/Laws/Ops.lean ====
section
/-! SUPPORT. One lemma per shared operation that says once what it can do: registers, the stack, the end of a meaning, the
taking of an event and the return from one. -/

namespace Sys2Proof.Machine

/-! ## General registers -/

@[simp] theorem Gprs.get_set_same (g : Gprs) (r : Reg) (v : Word) : (g.set r v).get r = v := by cases r <;> rfl

theorem Gprs.get_set_other (g : Gprs) (r q : Reg) (v : Word) (h : q ≠ r) : (g.set r v).get q = g.get q := by
  cases r <;> cases q <;> first | rfl | exact absurd rfl h

@[simp] theorem State.reg_setReg_same (s : State) (r : Reg) (v : Word) : (s.setReg r v).reg r = v :=
  Gprs.get_set_same _ _ _

theorem State.reg_setReg_other (s : State) (r q : Reg) (v : Word) (h : q ≠ r) : (s.setReg r v).reg q = s.reg q :=
  Gprs.get_set_other _ _ _ _ h

/-- A write of a register changes the register file alone. -/
theorem State.setReg_eq (s : State) (r : Reg) (v : Word) : s.setReg r v = { s with gpr := s.gpr.set r v } := rfl

/-- A write of any size changes the register file alone. -/
theorem State.setRegSz_eq (s : State) (sz : OpSize) (r : Reg) (v : Word) :
    s.setRegSz sz r v = { s with gpr := (s.setRegSz sz r v).gpr } := by cases sz <;> rfl

/-! ## The end of a meaning -/

@[simp] theorem finish_ok (s t : State) : finish s (.ok t) = .next t := rfl
@[simp] theorem finish_exc (s : State) (e : Exc) : finish s (.error (.exc e)) = s.takeException e := rfl
@[simp] theorem finish_vmExit (s : State) (r : DWord) (q : Word) :
    finish s (.error (.vmExit r q)) = .next (s.vmExit r q 0 0) := rfl

/-- What the end of a meaning answers when it answers a next state. -/
theorem finish_next {s t : State} {r : Res State} (h : finish s r = .next t) :
    r = .ok t ∨ (∃ e, r = .error (.exc e) ∧ s.takeException e = .next t) ∨
      (∃ x q, r = .error (.vmExit x q) ∧ t = s.vmExit x q 0 0) := by
  cases r with
  | ok u => left; simp only [finish_ok, Host.Outcome.next.injEq] at h; rw [h]
  | error x =>
    cases x with
    | exc e => right; left; exact ⟨e, rfl, h⟩
    | fault f => cases h
    | refuse f => cases h
    | vmExit x q => right; right; exact ⟨x, q, rfl, by cases h; rfl⟩

/-! ## The stack -/

/-- The offsets, within a page, of the bytes that pushes store. -/
theorem State.pushPas_spec (s : State) (a : Access) (wide : Bool) (n : Nat) (hn : n ≤ 8) (k : Nat) (sp : Word)
    (pas : List Nat) (h : s.pushPas a wide sp n k = .ok pas) :
    pas.length = n * k ∧ ∀ i pa, pas[i]? = some pa → (pa + n * (i / n + 1)) % 4096 = (sp.toNat + i % n) % 4096 := by
  induction k generalizing sp pas with
  | zero => cases h; simp
  | succ k ih =>
    unfold State.pushPas at h
    obtain ⟨p, h, hp⟩ := (Res.then_ok _ _ _).1 h
    obtain ⟨rest, h, hrest⟩ := (Res.then_ok _ _ _).1 h
    cases h
    obtain ⟨hl, hr⟩ := ih _ _ hrest
    obtain ⟨-, -, hp, hpl⟩ := State.accessPas_spec hp
    have hp' := (State.linears_spec _ _ _ _ _ hp).2
    have hdown : ((stackDown wide sp n).toNat + n) % 4096 = sp.toNat % 4096 := by
      unfold stackDown
      split
      · rw [BitVec.toNat_sub]; simp only [BitVec.toNat_ofNat]; omega
      · unfold low32
        rw [BitVec.toNat_and, show (0xFFFFFFFF : Word).toNat = 2 ^ 32 - 1 from rfl, Nat.and_two_pow_sub_one_eq_mod,
          BitVec.toNat_sub]
        simp only [BitVec.toNat_ofNat]; omega
    refine ⟨by simp [hl, hpl, Nat.mul_succ, Nat.add_comm], fun i pa hi => ?_⟩
    by_cases hin : i < n
    · rw [List.getElem?_append_left (by omega)] at hi
      have := hp' i pa hi
      rw [Nat.div_eq_of_lt hin, Nat.mod_eq_of_lt hin]
      omega
    · rw [List.getElem?_append_right (by omega), hpl] at hi
      have := hr (i - n) pa hi
      rcases Nat.eq_zero_or_pos n with h0 | h0
      · subst h0
        obtain ⟨hlt, -⟩ := List.getElem?_eq_some_iff.1 hi
        simp at hl
        simp [hl] at hlt
      · have hd : i / n = (i - n) / n + 1 := by
          conv_lhs => rw [show i = (i - n) + n from by omega]
          exact Nat.add_div_right _ h0
        have hm : i % n = (i - n) % n := by
          conv_lhs => rw [show i = (i - n) + n from by omega]
          exact Nat.add_mod_right _ _
        rw [hd, hm]
        have he : n * ((i - n) / n + 1 + 1) = n * ((i - n) / n + 1) + n := by rw [Nat.mul_succ]
        omega

/-- Two bytes of blocks of `n` bytes, each block below the one before: their offsets tell them apart. -/
theorem block_offsets (n i j z p : Nat) (hn : n = 2 ∨ n = 4 ∨ n = 8) (m : Nat) (hm : n * m ≤ 4096) (hi : i < n * m) (hj : j < n * m)
    (h1 : (z + n * (i / n + 1)) % 4096 = (p + i % n) % 4096)
    (h2 : (z + n * (j / n + 1)) % 4096 = (p + j % n) % 4096) : i = j := by
  have n0 : 0 < n := by omega
  have hi' : i / n < m := Nat.div_lt_of_lt_mul hi
  have hj' : j / n < m := Nat.div_lt_of_lt_mul hj
  have e1 := Nat.div_add_mod i n
  have e2 := Nat.div_add_mod j n
  have m1 := Nat.mod_lt i n0
  have m2 := Nat.mod_lt j n0
  generalize i / n = x at *
  generalize j / n = y at *
  generalize i % n = u at *
  generalize j % n = w at *
  rcases hn with rfl | rfl | rfl <;> omega

/-- The bytes of a few pushes lie at different physical addresses. -/
theorem State.pushPas_nodup (s : State) (a : Access) (wide : Bool) (n k : Nat) (sp : Word) (pas : List Nat)
    (hn : n = 2 ∨ n = 4 ∨ n = 8) (hk : n * k ≤ 4096) (h : s.pushPas a wide sp n k = .ok pas) : pas.Nodup := by
  obtain ⟨hl, hr⟩ := State.pushPas_spec s a wide n (by omega) k sp pas h
  rw [List.nodup_iff_injective_get]
  intro i j hij
  have h1 := hr i.1 (pas.get i) (by simp)
  have h2 := hr j.1 (pas.get j) (by simp)
  rw [hij] at h1
  exact Fin.ext (block_offsets n i.1 j.1 _ _ hn k hk (hl ▸ i.2) (hl ▸ j.2) h1 h2)

@[simp] theorem pushBytes_length (n : Nat) (vs : List Word) : (pushBytes n vs).length = n * vs.length := by
  induction vs with
  | nil => rfl
  | cons v vs ih => simp only [pushBytes, List.length_append, leBytes_length, ih, List.length_cons, Nat.mul_succ]; omega

/-- What pushes do: the values' bytes below the stack pointer, the stack pointer lowered, nothing else. -/
theorem State.pushAll_spec {s t : State} {sz : OpSize} {vs : List Word} (h : s.pushAll sz vs = .ok t) :
    ∃ pas, s.pushPas s.dataAccess s.mode64 s.sp sz.bytes vs.length = .ok pas ∧
      t = (s.storeAt pas (pushBytes sz.bytes vs)).setReg .rsp (stackDown s.mode64 s.sp (sz.bytes * vs.length)) := by
  unfold State.pushAll at h
  obtain ⟨pas, h, hp⟩ := (Res.then_ok _ _ _).1 h
  cases h
  exact ⟨pas, hp, rfl⟩

/-! ## Taking an event -/

/-- What a store can change: the two memories, the stored bytes and the stale translations. -/
def State.storedFrom (s t : State) : Prop :=
  t = { s with mem := t.mem, acram := t.acram, stored := t.stored, tlb := t.tlb }

theorem State.storedFrom_storeAt (s : State) (pas : List Nat) (bs : List Byte) : s.storedFrom (s.storeAt pas bs) := by
  unfold State.storedFrom
  rw [State.storeAt_stored, State.storeAt_tlb]
  exact State.storeAt_eq s pas bs

theorem State.storedFrom_trans {s t u : State} (h : s.storedFrom t) (h' : t.storedFrom u) : s.storedFrom u := by
  unfold State.storedFrom at *
  rw [h', h]

theorem State.writeBytes_eq {s t : State} {a : Access} {la : Word} {bs : List Byte} {align : Nat}
    (h : s.writeBytes a la bs align = .ok t) : s.storedFrom t := by
  obtain ⟨pas, -, rfl⟩ := State.writeBytes_spec h
  exact State.storedFrom_storeAt s pas bs

theorem State.shadowWrite_eq {s t : State} {la : Word} {n : Nat} {v : Word} (h : s.shadowWrite la n v = .ok t) :
    s.storedFrom t := State.writeBytes_eq h

theorem State.takeToken_eq {s t : State} {ssp : Word} (h : s.takeToken ssp = .ok t) : s.storedFrom t := by
  unfold State.takeToken at h
  obtain ⟨_, h, -⟩ := (Res.then_ok _ _ _).1 h
  obtain ⟨_, h, -⟩ := (Res.then_ok _ _ _).1 h
  obtain ⟨_, h, -⟩ := (Res.then_ok _ _ _).1 h
  exact State.shadowWrite_eq h

/-- What the CET steps can change: CET state beside. -/
def State.cetFrom (s t : State) : Prop :=
  t = { s with cet := t.cet, mem := t.mem, acram := t.acram, stored := t.stored, tlb := t.tlb }

theorem State.cetFrom_of_stored {s t : State} (h : s.storedFrom t) : s.cetFrom t := by
  unfold State.cetFrom State.storedFrom at *
  rw [h]

theorem State.cetInter_eq {s t : State} (h : s.cetInter = .ok t) : s.cetFrom t := by
  unfold State.cetInter at h
  split at h
  · exact State.cetFrom_of_stored (State.takeToken_eq h)
  · cases h; rfl

theorem State.cetIntra_eq {s t : State} {ist : Nat} {sel : Half} {rip : Word} (h : s.cetIntra ist sel rip = .ok t) :
    s.cetFrom t := by
  unfold State.cetIntra at h
  have key : ∀ (u : State) (new : Word), s.storedFrom u →
      (do
        let s1 ← u.shadowWrite (new - 4) 4 0
        let s2 ← s1.shadowWrite ((new &&& 0xFFFFFFFFFFFFFFF8) - 8) 8 (zsel sel)
        let s3 ← s2.shadowWrite ((new &&& 0xFFFFFFFFFFFFFFF8) - 16) 8 rip
        let s4 ← s3.shadowWrite ((new &&& 0xFFFFFFFFFFFFFFF8) - 24) 8 s.cet.ssp
        pure (s4.setSsp ((new &&& 0xFFFFFFFFFFFFFFF8) - 24))) = Except.ok t → s.cetFrom t := by
    intro u new hu h
    obtain ⟨u1, h, h1⟩ := (Res.then_ok _ _ _).1 h
    obtain ⟨u2, h, h2⟩ := (Res.then_ok _ _ _).1 h
    obtain ⟨u3, h, h3⟩ := (Res.then_ok _ _ _).1 h
    obtain ⟨u4, h, h4⟩ := (Res.then_ok _ _ _).1 h
    cases h
    have hw := State.storedFrom_trans (State.storedFrom_trans (State.storedFrom_trans (State.storedFrom_trans hu
      (State.shadowWrite_eq h1)) (State.shadowWrite_eq h2)) (State.shadowWrite_eq h3)) (State.shadowWrite_eq h4)
    unfold State.cetFrom State.storedFrom State.setSsp at *
    rw [hw]
    rfl
  split at h
  · dsimp only at h
    split at h
    · obtain ⟨new, h, -⟩ := (Res.then_ok _ _ _).1 h
      obtain ⟨u, h, hu⟩ := (Res.then_ok _ _ _).1 h
      exact key u new (State.takeToken_eq hu) h
    · exact key s s.cet.ssp rfl h
  · cases h; rfl

theorem State.landed_eq (s : State) (e : Event) (p : Plan) : s.landed e p = { s.switch e p with cet := (s.landed e p).cet } := by
  unfold State.landed State.cetEnter; split <;> rfl

theorem State.cetSteps_eq {s t : State} {e : Event} {p : Plan} (h : s.cetSteps e p = .ok t) : (s.switch e p).cetFrom t := by
  have h1 : (s.landed e p).cetFrom t := by
    unfold State.cetSteps at h
    split at h
    · exact State.cetInter_eq h
    · exact State.cetIntra_eq h
  have h2 := State.landed_eq s e p
  unfold State.cetFrom at *
  rw [h2] at h1
  exact h1

/-- The switch changes memory, by a store, and the registers of R434 and R435. -/
theorem State.switch_eq (s : State) (e : Event) (p : Plan) :
    s.switch e p = { s with
      mem := (s.switch e p).mem, acram := (s.switch e p).acram, stored := (s.switch e p).stored, tlb := (s.switch e p).tlb
      gpr := s.gpr.set .rsp (s.entryRsp e p)
      ss := if s.inter then ⟨0, 0, false⟩ else s.ss, cs := ⟨gateSel p.lo &&& 0xFFFC, true⟩
      rip := gateRip p.lo p.hi, nextRip := gateRip p.lo p.hi } := by
  have h := State.storedFrom_storeAt s p.pas (pushBytes 8 (s.frameItems e))
  unfold State.storedFrom at h
  unfold State.switch
  generalize s.storeAt p.pas (pushBytes 8 (s.frameItems e)) = w at *
  rw [h]
  rfl

theorem State.trackEndbranch_eq (s : State) : s.trackEndbranch = { s with cet := s.trackEndbranch.cet } := by
  unfold State.trackEndbranch; split <;> rfl

/-- What one delivery does when it reaches the handler: every field but those R434 to R437 name is kept. -/
theorem State.deliverOnce_ok {s t : State} {e : Event} (h : s.deliverOnce e = .ok t) :
    ∃ p, s.fred = false ∧ s.plan e = .ok p ∧ t = { s with
      mem := t.mem, acram := t.acram, tlb := t.tlb, stored := [], cet := t.cet, gpr := s.gpr.set .rsp (s.entryRsp e p)
      ss := if s.inter then ⟨0, 0, false⟩ else s.ss, cs := ⟨gateSel p.lo &&& 0xFFFC, true⟩
      rip := gateRip p.lo p.hi, nextRip := gateRip p.lo p.hi
      rflags := handlerFlags (gateType p.lo == 14) s.rflags
      activity := .running
      dbPending := e.completes && s.dbPending, bpHits := if e.completes then s.bpHits else 0
      nmiBlocked := s.nmiBlocked || e.kind == .nmi } := by
  unfold State.deliverOnce at h
  split at h
  · cases h
  · next hf =>
    split at h
    · cases h
    · next p hp =>
      split at h
      · cases h
      · next u hu =>
        cases h
        refine ⟨p, by simpa using hf, hp, ?_⟩
        have h1 := State.cetSteps_eq hu
        have h2 := State.switch_eq s e p
        generalize s.switch e p = w at *
        rw [h2] at h1
        unfold State.handlerEntry
        rw [State.trackEndbranch_eq, h1]

/-- Where a delivery stops, the state is unchanged or the one before the CET steps that can fault. -/
theorem State.deliverOnce_error {s u : State} {e : Event} {x : Stop} (h : s.deliverOnce e = .error (x, u)) :
    u = s ∨ ∃ p, s.plan e = .ok p ∧ u = s.landed e p := by
  unfold State.deliverOnce at h
  split at h
  · cases h; exact .inl rfl
  · split at h
    · cases h; exact .inl rfl
    · next p hp =>
      split at h
      · cases h; exact .inr ⟨p, hp, rfl⟩
      · cases h

end Sys2Proof.Machine
end

