-- ==== Sys2Proof/Laws/Decode.lean ====
section
/-! SUPPORT. What LOCK does to the decoding of an instruction (R131, R415), and that a form which raises #UD at decode raises it
when it is run (R173, R422). -/

namespace Sys2Proof

/-- The same prefixes and LOCK. -/
def DCtx.withLock (c : DCtx) : DCtx := { c with lock := true }

/-- `y` answers what `x` answers, where `x` answers. -/
def SameAnswer {α : Type} (x y : DRes α) : Prop := ∀ r, x = .ok r → y = .ok r

theorem SameAnswer.refl {α : Type} (x : DRes α) : SameAnswer x x := fun _ h => h
theorem SameAnswer.error {α : Type} (e : DErr) (y : DRes α) : SameAnswer (.error e) y := fun _ h => nomatch h

theorem SameAnswer.bind {α β : Type} {x y : DRes α} {f g : α → DRes β} (h : x = y) (hf : ∀ a, SameAnswer (f a) (g a)) :
    SameAnswer (x >>= f) (y >>= g) := by
  subst h
  cases x with
  | error e => exact fun _ h => nomatch h
  | ok a => exact hf a

theorem SameAnswer.ite {α : Type} {p : Prop} [Decidable p] {a b a' b' : DRes α} (ha : SameAnswer a a') (hb : SameAnswer b b') :
    SameAnswer (if p then a else b) (if p then a' else b') := by split; exacts [ha, hb]

theorem decodeGroup7_lock (c : DCtx) (bs : List Byte) : SameAnswer (decodeGroup7 c bs) (decodeGroup7 c.withLock bs) := by
  unfold decodeGroup7
  refine SameAnswer.bind rfl fun ⟨reg, rm, rest⟩ => ?_
  cases rm with
  | mem m =>
    repeat' (first | exact SameAnswer.error _ _ | refine SameAnswer.ite ?_ ?_ | exact SameAnswer.refl _)
  | reg r =>
    exact SameAnswer.bind rfl fun _ => SameAnswer.refl _

theorem decodeFsGsBase_lock (c : DCtx) (bs : List Byte) : SameAnswer (decodeFsGsBase c bs) (decodeFsGsBase c.withLock bs) := by
  unfold decodeFsGsBase
  refine SameAnswer.bind rfl fun ⟨reg, rm, rest⟩ => ?_
  cases rm <;> first | exact SameAnswer.error _ _ | exact SameAnswer.refl _

theorem decodeTwo_lock (c : DCtx) (bs : List Byte) : SameAnswer (decodeTwo c bs) (decodeTwo c.withLock bs) := by
  unfold decodeTwo
  refine SameAnswer.bind rfl fun ⟨op, bs⟩ => ?_
  repeat' (first | exact SameAnswer.error _ _ | exact decodeGroup7_lock _ _ | exact decodeFsGsBase_lock _ _ | refine SameAnswer.ite ?_ ?_ | exact SameAnswer.refl _)

theorem decodeGroup5_lock (c : DCtx) (bs : List Byte) : SameAnswer (decodeGroup5 c bs) (decodeGroup5 c.withLock bs) := by
  unfold decodeGroup5
  refine SameAnswer.bind rfl fun ⟨reg, rm, rest⟩ => ?_
  repeat' (first | exact SameAnswer.error _ _ | refine SameAnswer.ite ?_ ?_ | exact SameAnswer.refl _)

/-- LOCK changes no instruction that the opcodes give, only why they give none. -/
theorem decodeOne_lock (c : DCtx) (bs : List Byte) : SameAnswer (decodeOne c bs) (decodeOne c.withLock bs) := by
  unfold decodeOne
  refine SameAnswer.bind rfl fun ⟨op, bs⟩ => ?_
  repeat' (first | exact SameAnswer.error _ _ | exact decodeTwo_lock _ _ | exact decodeGroup5_lock _ _ | refine SameAnswer.ite ?_ ?_ | exact SameAnswer.refl _)

theorem legacyPrefix_lock (c : DCtx) (b : Byte) :
    legacyPrefix c.withLock b = (legacyPrefix c b).map DCtx.withLock := by
  unfold legacyPrefix DCtx.withLock
  repeat' split
  all_goals simp_all

theorem takePrefixes_lock (bs : List Byte) : ∀ c : DCtx, takePrefixes c.withLock bs =
    ((takePrefixes c bs).1.withLock, (takePrefixes c bs).2) := by
  induction bs with
  | nil => exact fun _ => rfl
  | cons b bs ih =>
    intro c
    simp only [takePrefixes, legacyPrefix_lock]
    cases legacyPrefix c b with
    | none => rfl
    | some c' => exact ih c'

theorem takeRex_lock (c : DCtx) (bs : List Byte) : takeRex c.withLock bs =
    ((takeRex c bs).1.withLock, (takeRex c bs).2) := by
  cases bs with
  | nil => rfl
  | cons b bs =>
    have hl : c.withLock.l = c.l := rfl
    by_cases h : c.l = true ∧ b.extractLsb' 4 4 = 4
    · simp only [takeRex, hl, if_pos h]; rfl
    · simp only [takeRex, hl, if_neg h]

end Sys2Proof

namespace Sys2Proof.Machine

theorem rejectNear16_raises {s : State} {p : Pfx} (h : (!s.mode64 && p.osz) = true) : s.rejectNear16 p = raise excUd := by
  simp_all [State.rejectNear16, State.nearSize, raiseIf]

theorem rejectFar16_raises {s : State} {p : Pfx} (h : (p.osz && !(s.mode64 && p.w)) = true) : s.rejectFar16 p = raise excUd := by
  simp only [Bool.and_eq_true, Bool.not_eq_true'] at h
  simp [State.rejectFar16, State.opSize, raiseIf, h.1, h.2]

theorem compatOnly_raises {s : State} (h : s.mode64 = true) : s.compatOnly = raise excUd := by
  simp [State.compatOnly, raiseIf, h]

/-- The forms that raise #UD at decode raise it when they are run. -/
theorem udAtDecode_exec {s : State} {i : Instr} (h : udAtDecode s.mode64 i = true) : exec i s = s.takeException excUd := by
  cases i <;> simp only [udAtDecode, Bool.false_eq_true] at h
  case callPtr | jmpPtr =>
    cases hm : s.mode64
    · have hf : ∀ {p : Pfx}, p.osz = true → s.rejectFar16 p = raise excUd := fun hp => rejectFar16_raises (by simp [hm, hp])
      simp only [hm, Bool.false_or] at h
      simp [exec, execCallPtr, execJmpPtr, State.compatOnly, raiseIf, hm, hf h, raise, bind, Except.bind]
    · simp [exec, execCallPtr, execJmpPtr, compatOnly_raises hm, raise, bind, Except.bind]
  case callFarM | jmpFarM | retFar | retFarImm16 | iret =>
    simp [exec, execCallFarM, execJmpFarM, execRetFar, execRetFarImm16, execIret, State.farRet, rejectFar16_raises h, raise, bind, Except.bind]
  case jccRel8 | jccRel32 | loopneRel8 | loopeRel8 | loopRel8 | jecxzRel8 | jrcxzRel8 | jmpRel8 | jmpRel32 | callRel32 | jmpRM | callRM |
      ret | retImm16 =>
    simp [exec, execJccRel8, execJccRel32, execLoopneRel8, execLoopeRel8, execLoopRel8, execJecxzRel8, execJrcxzRel8, execJmpRel8,
      execJmpRel32, execCallRel32, execJmpRM, execCallRM, execRet, execRetImm16, State.loopWhile, State.jumpIfZero, State.nearOperand,
      State.nearReturn, rejectNear16_raises h, raise, bind, Except.bind]
  case into => simp [exec, execInto, h, raiseUd, raise]
  case popEs | popSs | popDs | lds | les | pushEs | pushCs | pushSs | pushDs | arpl =>
    simp [exec, execPopEs, execPopSs, execPopDs, execLds, execLes, execPushEs, execPushCs, execPushSs, execPushDs, execArpl,
      compatOnly_raises h, raise, bind, Except.bind]
  case movSregRM p sr rm =>
    have h1 : loadableSreg sr = none := by revert h; revert sr; decide
    simp [exec, execMovSregRM, h1, raiseUd, raise]
  case movRMSreg p sr rm =>
    have h1 : storableSreg sr = none := by revert h; revert sr; decide
    simp [exec, execMovRMSreg, h1, raiseUd, raise]
  case lmsw | insb | insd | outsb | outsd => rfl
  all_goals
    have hc : s.compat = true := h
    simp [exec, execSwapgs, execLkgs, execRdfsbase, execRdgsbase, execWrfsbase, execWrgsbase, State.newBase, State.requireFsgsbase, execEretu, execErets,
      State.requireFred, execVmlaunch, execVmresume, State.vmEntry, execSeamret, hc, raiseIf, raiseUd, raise, bind, Except.bind]
    try (split <;> rfl)
end Sys2Proof.Machine
end

