-- ==== Sys2Proof/Laws/Invariant.lean ====
section
/-! SUPPORT. The induction behind every invariant, once: a property that one delivery, a VM exit and the small updates around
an instruction keep is kept by taking an event, by the end of a meaning, and by a step. -/

namespace Sys2Proof.Machine

/-- The state a delivery leaves, whether it succeeds or stops. -/
def onceState : Except (Stop × State) State → State
  | .ok t => t
  | .error (_, t) => t

/-- `P` is kept by each piece of the taking of an event. -/
structure EventClosed (P : State → Prop) : Prop where
  once : ∀ s e, P s → P (onceState (s.deliverOnce e))
  exits : ∀ s r q i c, P s → P (s.vmExit r q i c)
  cr2 : ∀ s v, P s → P (s.setCr2 v)
  shut : ∀ s, P s → P (s.setActivity (.shutdown .tripleFault))

variable {P : State → Prop}

theorem EventClosed.once_ok (h : EventClosed P) {s t : State} {e : Event} (hs : P s) (ht : s.deliverOnce e = .ok t) :
    P t := by have := h.once s e hs; rwa [ht] at this

theorem EventClosed.once_error (h : EventClosed P) {s t : State} {e : Event} {x : Stop} (hs : P s)
    (ht : s.deliverOnce e = .error (x, t)) : P t := by have := h.once s e hs; rwa [ht] at this

theorem EventClosed.noteCr2 (h : EventClosed P) {s : State} (x : Exc) (hs : P s) : P (s.noteCr2 x) := by
  unfold State.noteCr2
  split
  · exact h.cr2 _ _ hs
  · exact hs

theorem EventClosed.exitOnEvent (h : EventClosed P) {s : State} (e : Event) (c : Option Word) (hs : P s) :
    P (s.exitOnEvent e c) := h.exits _ _ _ _ _ hs

theorem EventClosed.tripleFault (h : EventClosed P) {s : State} (hs : P s) : P s.tripleFault := by
  unfold State.tripleFault
  split
  · exact h.exits _ _ _ _ _ hs
  · exact h.shut _ hs

theorem EventClosed.stopOutcome (h : EventClosed P) {s t : State} {x : Stop} (hs : P s)
    (ht : stopOutcome s x = .next t) : P t := by
  cases x with
  | exc e => cases ht; exact hs
  | fault f => cases ht
  | refuse f => cases ht
  | vmExit r q => cases ht; exact h.exits _ _ _ _ _ hs

/-- An exception keeps `P`, whether it exits or what follows it keeps `P`. -/
theorem EventClosed.orExit (h : EventClosed P) {s t : State} {x : Exc} {go : State → Host.Outcome State Fault Refusal} (hs : P s)
    (hgo : ∀ u, P u → go u = .next t → P t) (ht : s.orExit x go = .next t) : P t := by
  unfold State.orExit at ht
  dsimp only at ht
  split at ht
  · cases ht; exact h.exitOnEvent _ _ hs
  · exact hgo _ (h.noteCr2 x hs) ht

theorem EventClosed.deliverDf (h : EventClosed P) {s t : State} (hs : P s) (ht : s.deliverDf = .next t) : P t := by
  refine h.orExit hs (fun u hu ht => ?_) ht
  split at ht
  · next h1 => cases ht; exact h.once_ok hu h1
  · next h1 => exact h.orExit (h.once_error hu h1) (fun v hv ht => by cases ht; exact h.tripleFault hv) ht
  · next h1 => exact h.stopOutcome (h.once_error hu h1) ht

theorem EventClosed.deliverNested (h : EventClosed P) {s t : State} {x : Exc} {ext : Bool} (hs : P s)
    (ht : s.deliverNested x ext = .next t) : P t := by
  unfold State.deliverNested at ht
  split at ht
  · next h1 => cases ht; exact h.once_ok hs h1
  · next h1 => exact h.orExit (h.once_error hs h1) (fun _ hu ht => h.deliverDf hu ht) ht
  · next h1 => exact h.stopOutcome (h.once_error hs h1) ht

/-- Taking an event keeps `P`. -/
theorem EventClosed.deliver (h : EventClosed P) {s t : State} {e : Event} {b : Bool} (hs : P s)
    (ht : s.deliver e b = .next t) : P t := by
  unfold State.deliver at ht
  split at ht
  · cases ht; exact h.exitOnEvent _ _ hs
  · split at ht
    · next h1 => cases ht; exact h.once_ok hs h1
    · next h1 =>
      refine h.orExit (h.once_error hs h1) (fun u hu ht => ?_) ht
      split at ht
      · cases ht; exact h.tripleFault hu
      · split at ht
        · exact h.deliverDf hu ht
        · exact h.deliverNested hu ht
    · next h1 => exact h.stopOutcome (h.once_error hs h1) ht

/-- Taking an exception keeps `P`. -/
theorem EventClosed.takeException (h : EventClosed P) {s t : State} {x : Exc} (hs : P s)
    (ht : s.takeException x = .next t) : P t :=
  h.orExit hs (fun _ hu ht => h.deliver hu ht) ht

/-- A meaning keeps `P` when its body does. -/
theorem EventClosed.finish (h : EventClosed P) {s t : State} {r : Res State} (hs : P s)
    (hr : ∀ u, r = .ok u → P u) (ht : Machine.finish s r = .next t) : P t := by
  rcases finish_next ht with h1 | ⟨e, -, h1⟩ | ⟨x, q, -, h1⟩
  · exact hr t h1
  · exact h.takeException hs h1
  · rw [h1]; exact h.exits _ _ _ _ _ hs

/-- The end of an instruction keeps `P` when its retirement does. -/
theorem EventClosed.endInstr (_ : EventClosed P) {b t : State} {k r g : Bool} {o : Host.Outcome State Fault Refusal}
    (ho : ∀ u, o = .next u → State.wrapped b u g = false → P u) (hretire : ∀ u, P u → P (b.retire u k r))
    (ht : Machine.endInstr b k r g o = .next t) : P t := by
  cases o with
  | next u =>
    unfold Machine.endInstr at ht
    dsimp only at ht
    split at ht
    · cases ht
    · next hw => cases ht; exact hretire u (ho u rfl (by simpa using hw))
  | fault f => cases ht
  | refused f => cases ht

/-- A step keeps `P` when every instruction, HLT and every event do. -/
theorem EventClosed.step (h : EventClosed P) {s t : State} (hs : P s) (ht : Machine.step s = .next t)
    (hdue : ∀ d, s.due = some d → s.takeDue d = .next t → P t)
    (hbytes : ∀ n, P (s.beginBytes n)) (hbegin : ∀ i n, P (s.beginInstr i n))
    (hexec : ∀ i n u g, P (s.beginInstr i n) → exec i (s.beginInstr i n) = .next u →
      State.wrapped (s.beginInstr i n) u g = false → P u)
    (hhalt : ∀ n u g, P (s.beginBytes n) → (s.beginBytes n).halt = .next u → State.wrapped (s.beginBytes n) u g = false → P u)
    (hretire : ∀ (b u : State) k r, P u → P (b.retire u k r)) : P t := by
  unfold Machine.step at ht
  split at ht
  · next d hd => exact hdue d hd ht
  · split at ht
    · unfold runNext at ht
      split at ht
      · next i n _ => exact h.endInstr (fun u hu hw => hexec i n u _ (hbegin i n) hu hw) (fun u => hretire _ u _ _) ht
      · next n _ => exact h.endInstr (fun u hu hw => hhalt n u _ (hbytes n) hu hw) (fun u => hretire _ u _ _) ht
      · exact h.finish (hbytes 0) (fun u hu => by cases hu) ht
    · cases ht; exact hs

end Sys2Proof.Machine
end

