-- ==== Sys2Proof/Laws/PerInstr.lean ====
section
/-! SUPPORT. The statements made per instruction: its encoding has 1 to 15 bytes (R130). -/

namespace Sys2Proof.Laws

/-- R130: an instruction has at least one byte and at most 15, in both modes and for every operand value. -/
def Encoding.Statement (i : Instr) : Prop := ∀ l : Bool, 1 ≤ (encode l i).length ∧ (encode l i).length ≤ 15

theorem encPfx_length (m : List Byte) (p : Pfx) : (encPfx m p).length ≤ m.length + 3 := by
  unfold encPfx
  cases p.osz <;> cases p.asz <;> cases p.seg <;> simp

theorem encRex_length (w r x b : Bool) : (encRex w r x b).length ≤ 1 := by
  unfold encRex; split <;> simp

theorem bytes16_length (v : BitVec 16) : (bytes16 v).length = 2 := rfl

theorem bytes32_length (v : BitVec 32) : (bytes32 v).length = 4 := rfl

theorem disp_length (d : Disp) : d.bytes.length ≤ 4 := by cases d <;> simp [Disp.bytes, bytes16_length, bytes32_length]

theorem encMem_length (l asz : Bool) (reg : BitVec 3) (m : Mem) :
    1 ≤ (encMem l asz reg m).length ∧ (encMem l asz reg m).length ≤ 6 := by
  have hd := disp_length m.disp
  unfold encMem
  split
  · unfold encMemShort
    split <;> simp only [List.length_cons] <;> omega
  · unfold encMemLong
    repeat' split
    all_goals simp only [List.length_cons]
    all_goals omega

/-- ModRM forms: the mandatory prefix and the opcode have at most three bytes. -/
theorem encM_length (l : Bool) (mand : List Byte) (p : Pfx) (op : List Byte) (r : Bool) (reg : BitVec 3) (m : Mem)
    (h : mand.length + op.length ≤ 3) : 1 ≤ (encM l mand p op r reg m).length ∧ (encM l mand p op r reg m).length ≤ 15 := by
  have h1 := encPfx_length mand p
  have h2 := encRex_length p.w r (optHi m.index) (optHi m.base)
  have h3 := encMem_length l p.asz reg m
  unfold encM
  simp only [List.length_append]
  omega

theorem encRM_length (l : Bool) (mand : List Byte) (p : Pfx) (op : List Byte) (r : Bool) (reg : BitVec 3) (rm : RM)
    (h : mand.length + op.length ≤ 3) :
    1 ≤ (encRM l mand p op r reg rm).length ∧ (encRM l mand p op r reg rm).length ≤ 15 := by
  cases rm with
  | mem m => exact encM_length l mand p op r reg m h
  | reg b =>
    have h1 := encPfx_length mand p
    have h2 := encRex_length p.w r false b.hi
    simp only [encRM, List.length_append, List.length_cons, List.length_nil]
    omega

/-- Forms without ModRM: the opcode and the immediate have 1 to 8 bytes. -/
theorem encP_length (p : Pfx) (op : List Byte) (h : 1 ≤ op.length ∧ op.length ≤ 8) :
    1 ≤ (encP p op).length ∧ (encP p op).length ≤ 15 := by
  have h1 := encPfx_length [] p
  have h2 := encRex_length p.w false false false
  unfold encP
  simp only [List.length_append, List.length_nil] at *
  omega

theorem encRel_length (l : Bool) (p : Pfx) (rel : BitVec 32) : (encRel l p rel).length ≤ 4 := by
  unfold encRel; split <;> simp [bytes16_length, bytes32_length]

theorem encPtr_length (p : Pfx) (off : BitVec 32) (sel : BitVec 16) : (encPtr p off sel).length ≤ 6 := by
  unfold encPtr; split <;> simp [bytes16_length, bytes32_length]

theorem encCr_length (op : Byte) (r : Bool) (n : BitVec 3) (g : Reg) :
    1 ≤ (encCr op r n g).length ∧ (encCr op r n g).length ≤ 15 := by
  have h := encRex_length false r false g.hi
  unfold encCr
  simp only [List.length_append, List.length_cons, List.length_nil]
  omega

theorem Encoding.jccRel8 (p : Pfx) (cc : BitVec 4) (rel : BitVec 8) : Encoding.Statement (.jccRel8 p cc rel) :=
  fun _ => encP_length _ _ (by simp)

theorem Encoding.jccRel32 (p : Pfx) (cc : BitVec 4) (rel : BitVec 32) : Encoding.Statement (.jccRel32 p cc rel) :=
  fun l => encP_length _ _ (by have := encRel_length l p rel; simp; omega)

theorem Encoding.loopneRel8 (p : Pfx) (rel : BitVec 8) : Encoding.Statement (.loopneRel8 p rel) :=
  fun _ => encP_length _ _ (by simp)

theorem Encoding.loopeRel8 (p : Pfx) (rel : BitVec 8) : Encoding.Statement (.loopeRel8 p rel) :=
  fun _ => encP_length _ _ (by simp)

theorem Encoding.loopRel8 (p : Pfx) (rel : BitVec 8) : Encoding.Statement (.loopRel8 p rel) :=
  fun _ => encP_length _ _ (by simp)

theorem Encoding.jecxzRel8 (p : Pfx) (rel : BitVec 8) : Encoding.Statement (.jecxzRel8 p rel) :=
  fun _ => encP_length _ _ (by simp)

theorem Encoding.jrcxzRel8 (p : Pfx) (rel : BitVec 8) : Encoding.Statement (.jrcxzRel8 p rel) :=
  fun _ => encP_length _ _ (by simp)

theorem Encoding.jmpRel8 (p : Pfx) (rel : BitVec 8) : Encoding.Statement (.jmpRel8 p rel) :=
  fun _ => encP_length _ _ (by simp)

theorem Encoding.jmpRel32 (p : Pfx) (rel : BitVec 32) : Encoding.Statement (.jmpRel32 p rel) :=
  fun l => encP_length _ _ (by have := encRel_length l p rel; simp; omega)

theorem Encoding.callRel32 (p : Pfx) (rel : BitVec 32) : Encoding.Statement (.callRel32 p rel) :=
  fun l => encP_length _ _ (by have := encRel_length l p rel; simp; omega)

theorem Encoding.jmpRM (p : Pfx) (rm : RM) : Encoding.Statement (.jmpRM p rm) :=
  fun l => encRM_length l _ _ _ _ _ _ (by decide)

theorem Encoding.callRM (p : Pfx) (rm : RM) : Encoding.Statement (.callRM p rm) :=
  fun l => encRM_length l _ _ _ _ _ _ (by decide)

theorem Encoding.ret (p : Pfx) : Encoding.Statement (.ret p) :=
  fun _ => encP_length _ _ (by simp)

theorem Encoding.retImm16 (p : Pfx) (imm : BitVec 16) : Encoding.Statement (.retImm16 p imm) :=
  fun _ => encP_length _ _ (by simp [bytes16_length])

theorem Encoding.lea (p : Pfx) (r : Reg) (m : Mem) : Encoding.Statement (.lea p r m) :=
  fun l => encM_length l _ _ _ _ _ _ (by decide)

theorem Encoding.nop : Encoding.Statement .nop :=
  fun l => by cases l <;> decide

theorem Encoding.nopRM (p : Pfx) (rm : RM) : Encoding.Statement (.nopRM p rm) :=
  fun l => encRM_length l _ _ _ _ _ _ (by decide)

theorem Encoding.callPtr (p : Pfx) (off : BitVec 32) (sel : BitVec 16) : Encoding.Statement (.callPtr p off sel) :=
  fun _ => encP_length _ _ (by have := encPtr_length p off sel; simp; omega)

theorem Encoding.callFarM (p : Pfx) (m : Mem) : Encoding.Statement (.callFarM p m) :=
  fun l => encM_length l _ _ _ _ _ _ (by decide)

theorem Encoding.jmpPtr (p : Pfx) (off : BitVec 32) (sel : BitVec 16) : Encoding.Statement (.jmpPtr p off sel) :=
  fun _ => encP_length _ _ (by have := encPtr_length p off sel; simp; omega)

theorem Encoding.jmpFarM (p : Pfx) (m : Mem) : Encoding.Statement (.jmpFarM p m) :=
  fun l => encM_length l _ _ _ _ _ _ (by decide)

theorem Encoding.retFar (p : Pfx) : Encoding.Statement (.retFar p) :=
  fun _ => encP_length _ _ (by simp)

theorem Encoding.retFarImm16 (p : Pfx) (imm : BitVec 16) : Encoding.Statement (.retFarImm16 p imm) :=
  fun _ => encP_length _ _ (by simp [bytes16_length])

theorem Encoding.iret (p : Pfx) : Encoding.Statement (.iret p) :=
  fun _ => encP_length _ _ (by simp)

theorem Encoding.intImm8 (imm : BitVec 8) : Encoding.Statement (.intImm8 imm) :=
  fun _ => by simp [encode]

theorem Encoding.int3 : Encoding.Statement .int3 :=
  fun l => by cases l <;> decide

theorem Encoding.into : Encoding.Statement .into :=
  fun l => by cases l <;> decide

theorem Encoding.int1 : Encoding.Statement .int1 :=
  fun l => by cases l <;> decide

theorem Encoding.syscall : Encoding.Statement .syscall :=
  fun l => by cases l <;> decide

theorem Encoding.sysenter : Encoding.Statement .sysenter :=
  fun l => by cases l <;> decide

theorem Encoding.sysret (p : Pfx) : Encoding.Statement (.sysret p) :=
  fun _ => encP_length _ _ (by simp)

theorem Encoding.sysexit (p : Pfx) : Encoding.Statement (.sysexit p) :=
  fun _ => encP_length _ _ (by simp)

theorem Encoding.eretu : Encoding.Statement .eretu :=
  fun l => by cases l <;> decide

theorem Encoding.erets : Encoding.Statement .erets :=
  fun l => by cases l <;> decide

theorem Encoding.rsm : Encoding.Statement .rsm :=
  fun l => by cases l <;> decide

theorem Encoding.movSregRM (p : Pfx) (sr : BitVec 3) (rm : RM) : Encoding.Statement (.movSregRM p sr rm) :=
  fun l => encRM_length l _ _ _ _ _ _ (by decide)

theorem Encoding.popEs (p : Pfx) : Encoding.Statement (.popEs p) :=
  fun _ => encP_length _ _ (by simp)

theorem Encoding.popSs (p : Pfx) : Encoding.Statement (.popSs p) :=
  fun _ => encP_length _ _ (by simp)

theorem Encoding.popDs (p : Pfx) : Encoding.Statement (.popDs p) :=
  fun _ => encP_length _ _ (by simp)

theorem Encoding.popFs (p : Pfx) : Encoding.Statement (.popFs p) :=
  fun _ => encP_length _ _ (by simp)

theorem Encoding.popGs (p : Pfx) : Encoding.Statement (.popGs p) :=
  fun _ => encP_length _ _ (by simp)

theorem Encoding.lds (p : Pfx) (r : Reg) (m : Mem) : Encoding.Statement (.lds p r m) :=
  fun l => encM_length l _ _ _ _ _ _ (by decide)

theorem Encoding.les (p : Pfx) (r : Reg) (m : Mem) : Encoding.Statement (.les p r m) :=
  fun l => encM_length l _ _ _ _ _ _ (by decide)

theorem Encoding.lss (p : Pfx) (r : Reg) (m : Mem) : Encoding.Statement (.lss p r m) :=
  fun l => encM_length l _ _ _ _ _ _ (by decide)

theorem Encoding.lfs (p : Pfx) (r : Reg) (m : Mem) : Encoding.Statement (.lfs p r m) :=
  fun l => encM_length l _ _ _ _ _ _ (by decide)

theorem Encoding.lgs (p : Pfx) (r : Reg) (m : Mem) : Encoding.Statement (.lgs p r m) :=
  fun l => encM_length l _ _ _ _ _ _ (by decide)

theorem Encoding.lkgs (p : Pfx) (rm : RM) : Encoding.Statement (.lkgs p rm) :=
  fun l => encRM_length l _ _ _ _ _ _ (by decide)

theorem Encoding.movRMSreg (p : Pfx) (sr : BitVec 3) (rm : RM) : Encoding.Statement (.movRMSreg p sr rm) :=
  fun l => encRM_length l _ _ _ _ _ _ (by decide)

theorem Encoding.pushEs (p : Pfx) : Encoding.Statement (.pushEs p) :=
  fun _ => encP_length _ _ (by simp)

theorem Encoding.pushCs (p : Pfx) : Encoding.Statement (.pushCs p) :=
  fun _ => encP_length _ _ (by simp)

theorem Encoding.pushSs (p : Pfx) : Encoding.Statement (.pushSs p) :=
  fun _ => encP_length _ _ (by simp)

theorem Encoding.pushDs (p : Pfx) : Encoding.Statement (.pushDs p) :=
  fun _ => encP_length _ _ (by simp)

theorem Encoding.pushFs (p : Pfx) : Encoding.Statement (.pushFs p) :=
  fun _ => encP_length _ _ (by simp)

theorem Encoding.pushGs (p : Pfx) : Encoding.Statement (.pushGs p) :=
  fun _ => encP_length _ _ (by simp)

theorem Encoding.sgdt (p : Pfx) (m : Mem) : Encoding.Statement (.sgdt p m) :=
  fun l => encM_length l _ _ _ _ _ _ (by decide)

theorem Encoding.sidt (p : Pfx) (m : Mem) : Encoding.Statement (.sidt p m) :=
  fun l => encM_length l _ _ _ _ _ _ (by decide)

theorem Encoding.lgdt (p : Pfx) (m : Mem) : Encoding.Statement (.lgdt p m) :=
  fun l => encM_length l _ _ _ _ _ _ (by decide)

theorem Encoding.lidt (p : Pfx) (m : Mem) : Encoding.Statement (.lidt p m) :=
  fun l => encM_length l _ _ _ _ _ _ (by decide)

theorem Encoding.sldt (p : Pfx) (rm : RM) : Encoding.Statement (.sldt p rm) :=
  fun l => encRM_length l _ _ _ _ _ _ (by decide)

theorem Encoding.str (p : Pfx) (rm : RM) : Encoding.Statement (.str p rm) :=
  fun l => encRM_length l _ _ _ _ _ _ (by decide)

theorem Encoding.lldt (p : Pfx) (rm : RM) : Encoding.Statement (.lldt p rm) :=
  fun l => encRM_length l _ _ _ _ _ _ (by decide)

theorem Encoding.ltr (p : Pfx) (rm : RM) : Encoding.Statement (.ltr p rm) :=
  fun l => encRM_length l _ _ _ _ _ _ (by decide)

theorem Encoding.verr (p : Pfx) (rm : RM) : Encoding.Statement (.verr p rm) :=
  fun l => encRM_length l _ _ _ _ _ _ (by decide)

theorem Encoding.verw (p : Pfx) (rm : RM) : Encoding.Statement (.verw p rm) :=
  fun l => encRM_length l _ _ _ _ _ _ (by decide)

theorem Encoding.lar (p : Pfx) (r : Reg) (rm : RM) : Encoding.Statement (.lar p r rm) :=
  fun l => encRM_length l _ _ _ _ _ _ (by decide)

theorem Encoding.lsl (p : Pfx) (r : Reg) (rm : RM) : Encoding.Statement (.lsl p r rm) :=
  fun l => encRM_length l _ _ _ _ _ _ (by decide)

theorem Encoding.arpl (p : Pfx) (rm : RM) (r : Reg) : Encoding.Statement (.arpl p rm r) :=
  fun l => encRM_length l _ _ _ _ _ _ (by decide)

theorem Encoding.swapgs : Encoding.Statement .swapgs :=
  fun l => by cases l <;> decide

theorem Encoding.rdfsbase (p : Pfx) (r : Reg) : Encoding.Statement (.rdfsbase p r) :=
  fun l => encRM_length l [0xF3] p [0x0F, 0xAE] false 0 (.reg r) (by decide)

theorem Encoding.rdgsbase (p : Pfx) (r : Reg) : Encoding.Statement (.rdgsbase p r) :=
  fun l => encRM_length l [0xF3] p [0x0F, 0xAE] false 1 (.reg r) (by decide)

theorem Encoding.wrfsbase (p : Pfx) (r : Reg) : Encoding.Statement (.wrfsbase p r) :=
  fun l => encRM_length l [0xF3] p [0x0F, 0xAE] false 2 (.reg r) (by decide)

theorem Encoding.wrgsbase (p : Pfx) (r : Reg) : Encoding.Statement (.wrgsbase p r) :=
  fun l => encRM_length l [0xF3] p [0x0F, 0xAE] false 3 (.reg r) (by decide)

theorem Encoding.movRCr (crn : BitVec 4) (r : Reg) : Encoding.Statement (.movRCr crn r) :=
  fun _ => encCr_length _ _ _ _

theorem Encoding.movCr0R (r : Reg) : Encoding.Statement (.movCr0R r) :=
  fun _ => encCr_length _ _ _ _

theorem Encoding.movCr2R (r : Reg) : Encoding.Statement (.movCr2R r) :=
  fun _ => encCr_length _ _ _ _

theorem Encoding.movCr3R (r : Reg) : Encoding.Statement (.movCr3R r) :=
  fun _ => encCr_length _ _ _ _

theorem Encoding.movCr4R (r : Reg) : Encoding.Statement (.movCr4R r) :=
  fun _ => encCr_length _ _ _ _

theorem Encoding.movCr8R (r : Reg) : Encoding.Statement (.movCr8R r) :=
  fun _ => encCr_length _ _ _ _

theorem Encoding.lmsw (p : Pfx) (rm : RM) : Encoding.Statement (.lmsw p rm) :=
  fun l => encRM_length l _ _ _ _ _ _ (by decide)

theorem Encoding.rdmsr : Encoding.Statement .rdmsr :=
  fun l => by cases l <;> decide

theorem Encoding.wrmsr : Encoding.Statement .wrmsr :=
  fun l => by cases l <;> decide

theorem Encoding.cpuid : Encoding.Statement .cpuid :=
  fun l => by cases l <;> decide

theorem Encoding.popf (p : Pfx) : Encoding.Statement (.popf p) :=
  fun _ => encP_length _ _ (by simp)

theorem Encoding.popf16 (p : Pfx) : Encoding.Statement (.popf16 p) :=
  fun _ => encP_length _ _ (by simp)

theorem Encoding.pushf (p : Pfx) : Encoding.Statement (.pushf p) :=
  fun _ => encP_length _ _ (by simp)

theorem Encoding.cli : Encoding.Statement .cli :=
  fun l => by cases l <;> decide

theorem Encoding.sti : Encoding.Statement .sti :=
  fun l => by cases l <;> decide

theorem Encoding.inAlImm (imm : BitVec 8) : Encoding.Statement (.inAlImm imm) :=
  fun _ => by simp [encode]

theorem Encoding.inEaxImm (p : Pfx) (imm : BitVec 8) : Encoding.Statement (.inEaxImm p imm) :=
  fun _ => encP_length _ _ (by simp)

theorem Encoding.outImmAl (imm : BitVec 8) : Encoding.Statement (.outImmAl imm) :=
  fun _ => by simp [encode]

theorem Encoding.outImmEax (p : Pfx) (imm : BitVec 8) : Encoding.Statement (.outImmEax p imm) :=
  fun _ => encP_length _ _ (by simp)

theorem Encoding.inAlDx : Encoding.Statement .inAlDx :=
  fun l => by cases l <;> decide

theorem Encoding.inEaxDx (p : Pfx) : Encoding.Statement (.inEaxDx p) :=
  fun _ => encP_length _ _ (by simp)

theorem Encoding.outDxAl : Encoding.Statement .outDxAl :=
  fun l => by cases l <;> decide

theorem Encoding.outDxEax (p : Pfx) : Encoding.Statement (.outDxEax p) :=
  fun _ => encP_length _ _ (by simp)

theorem Encoding.insb : Encoding.Statement .insb :=
  fun l => by cases l <;> decide

theorem Encoding.insd : Encoding.Statement .insd :=
  fun l => by cases l <;> decide

theorem Encoding.outsb : Encoding.Statement .outsb :=
  fun l => by cases l <;> decide

theorem Encoding.outsd : Encoding.Statement .outsd :=
  fun l => by cases l <;> decide

theorem Encoding.vmlaunch : Encoding.Statement .vmlaunch :=
  fun l => by cases l <;> decide

theorem Encoding.vmresume : Encoding.Statement .vmresume :=
  fun l => by cases l <;> decide

theorem Encoding.seamret : Encoding.Statement .seamret :=
  fun l => by cases l <;> decide

theorem Encoding.getsec : Encoding.Statement .getsec :=
  fun l => by cases l <;> decide

end Sys2Proof.Laws
end

