-- ==== Sys2Proof/Tests/Slice0.lean ====
section
/-! SUPPORT. The model's own tests: an ill-formed term for each check of WellFormed, words written out from the encodings of
30_encoding.md, one step of each instruction, and for every obligation values that meet its hypotheses. -/

set_option Elab.async false

namespace Sys2Proof.Tests
open Sys2Proof Sys2Proof.Machine

/-! ## One ill-formed term for each check of WellFormed -/

theorem smoke_pfx_rexW : (Instr.ret { w := true }).wf false = false := by decide

theorem smoke_reg_compat : (Instr.movCr0R .r8).wf false = false := by decide

theorem smoke_base_reg_compat : (Instr.lea {} .rax { base := some .r9 }).wf false = false := by decide

theorem smoke_index_reg_compat : (Instr.lea {} .rax { base := some .rax, index := some .r9 }).wf false = false := by decide

theorem smoke_index_rsp : (Instr.lea {} .rax { base := some .rax, index := some .rsp }).wf true = false := by decide

theorem smoke_scale_without_index : (Instr.lea {} .rax { base := some .rax, scale := 1 }).wf true = false := by decide

theorem smoke_no_base_no_disp : (Instr.lea {} .rax {}).wf true = false := by decide

theorem smoke_rbp_base_no_disp : (Instr.lea {} .rax { base := some .rbp }).wf true = false := by decide

theorem smoke_r13_base_no_disp : (Instr.lea {} .rax { base := some .r13 }).wf true = false := by decide

theorem smoke_disp16_in_long_form : (Instr.lea {} .rax { base := some .rax, disp := .d16 0 }).wf true = false := by decide

theorem smoke_rip_relative_compat : (Instr.lea {} .rax { rip := true, disp := .d32 0 }).wf false = false := by decide

theorem smoke_rip_relative_base : (Instr.lea {} .rax { rip := true, base := some .rax, disp := .d32 0 }).wf true = false := by decide

theorem smoke_rip_relative_disp8 : (Instr.lea {} .rax { rip := true, disp := .d8 0 }).wf true = false := by decide

theorem smoke_short_pair : (Instr.lea { asz := true } .rax { base := some .rax }).wf false = false := by decide

theorem smoke_short_scale : (Instr.lea { asz := true } .rax { base := some .rbx, index := some .rsi, scale := 1 }).wf false = false := by decide

theorem smoke_short_rip : (Instr.lea { asz := true } .rax { rip := true, disp := .d16 0 }).wf false = false := by decide

theorem smoke_short_disp32 : (Instr.lea { asz := true } .rax { base := some .rbx, disp := .d32 0 }).wf false = false := by decide

theorem smoke_short_bp_no_disp : (Instr.lea { asz := true } .rax { base := some .rbp }).wf false = false := by decide

theorem smoke_short_no_base_disp8 : (Instr.lea { asz := true } .rax { disp := .d8 0 }).wf false = false := by decide

theorem smoke_rm_reg_compat : (Instr.jmpRM {} (.reg .r8)).wf false = false := by decide

theorem smoke_rm_mem_compat : (Instr.jmpRM {} (.mem { base := some .r8 })).wf false = false := by decide

theorem smoke_rel16 : (Instr.jmpRel32 { osz := true } 0x12345678).wf false = false := by decide

theorem smoke_ptr16 : (Instr.jmpPtr { osz := true } 0x12345678 0).wf false = false := by decide

theorem smoke_jecxz_64 : (Instr.jecxzRel8 {} 0).wf true = false := by decide

theorem smoke_jrcxz_compat : (Instr.jrcxzRel8 {} 0).wf false = false := by decide

theorem smoke_lds_64 : (Instr.lds {} .rax { base := some .rbx }).wf true = false := by decide

theorem smoke_les_64 : (Instr.les {} .rax { base := some .rbx }).wf true = false := by decide

theorem smoke_arpl_64 : (Instr.arpl {} (.reg .rax) .rcx).wf true = false := by decide

theorem smoke_cr8_compat : (Instr.movCr8R .rax).wf false = false := by decide

theorem smoke_crn_compat : (Instr.movRCr 8 .rax).wf false = false := by decide

theorem smoke_popf_osz : (Instr.popf { osz := true }).wf true = false := by decide

theorem smoke_popf16_no_osz : (Instr.popf16 {}).wf true = false := by decide

theorem smoke_popf16_rexW : (Instr.popf16 { osz := true, w := true }).wf true = false := by decide

theorem smoke_lar_reg_compat : (Instr.lar {} .r8 (.reg .rax)).wf false = false := by decide

theorem smoke_wrfsbase_reg_compat : (Instr.wrfsbase {} .r15).wf false = false := by decide

/-! ## Every constructor decoded from bytes written out from 30_encoding.md, by hand -/

theorem decode_near_1 :
    decode true [0x74, 0x10] = .ok (.jccRel8 {} 4 0x10, 2) ∧
    decode true [0x0F, 0x8F, 0x00, 0x01, 0x00, 0x00] = .ok (.jccRel32 {} 15 0x100, 6) ∧
    decode true [0xE0, 0xFE] = .ok (.loopneRel8 {} 0xFE, 2) ∧
    decode true [0xE1, 0x02] = .ok (.loopeRel8 {} 2, 2) ∧
    decode false [0x67, 0xE2, 0xFC] = .ok (.loopRel8 { asz := true } 0xFC, 3) ∧
    decode false [0xE3, 0x05] = .ok (.jecxzRel8 {} 5, 2) ∧
    decode true [0xE3, 0x05] = .ok (.jrcxzRel8 {} 5, 2) ∧
    decode true [0xEB, 0x80] = .ok (.jmpRel8 {} 0x80, 2) := by decide +kernel

theorem decode_near_2 :
    decode false [0x66, 0xE9, 0x34, 0x82] = .ok (.jmpRel32 { osz := true } 0xFFFF8234, 4) ∧
    decode true [0xE8, 0x78, 0x56, 0x34, 0x12] = .ok (.callRel32 {} 0x12345678, 5) ∧
    decode true [0x41, 0xFF, 0xE4] = .ok (.jmpRM {} (.reg .r12), 3) ∧
    decode true [0xFF, 0x54, 0x24, 0x08] = .ok (.callRM {} (.mem { base := some .rsp, disp := .d8 8 }), 4) ∧
    decode true [0xC3] = .ok (.ret {}, 1) ∧
    decode false [0xC2, 0x08, 0x00] = .ok (.retImm16 {} 8, 3) := by decide +kernel

theorem decode_lea_nop :
    decode true [0x4C, 0x8D, 0x44, 0x8D, 0xF8] = .ok (.lea { w := true } .r8 { base := some .rbp, index := some .rcx, scale := 2, disp := .d8 0xF8 }, 5) ∧
    decode true [0x8D, 0x05, 0x00, 0x01, 0x00, 0x00] = .ok (.lea {} .rax { rip := true, disp := .d32 0x100 }, 6) ∧
    decode true [0x90] = .ok (.nop, 1) ∧
    decode true [0x66, 0x0F, 0x1F, 0x04, 0x00] = .ok (.nopRM { osz := true } (.mem { base := some .rax, index := some .rax }), 5) := by decide +kernel

theorem decode_far_1 :
    decode false [0x9A, 0x78, 0x56, 0x34, 0x12, 0x23, 0x00] = .ok (.callPtr {} 0x12345678 0x23, 7) ∧
    decode true [0x48, 0xFF, 0x18] = .ok (.callFarM { w := true } { base := some .rax }, 3) ∧
    decode false [0xEA, 0x00, 0x00, 0x02, 0x00, 0x33, 0x00] = .ok (.jmpPtr {} 0x20000 0x33, 7) ∧
    decode true [0xFF, 0x2C, 0x25, 0x00, 0x10, 0x00, 0x00] = .ok (.jmpFarM {} { disp := .d32 0x1000 }, 7) ∧
    decode true [0x48, 0xCB] = .ok (.retFar { w := true }, 2) ∧
    decode false [0xCA, 0x04, 0x00] = .ok (.retFarImm16 {} 4, 3) ∧
    decode true [0x48, 0xCF] = .ok (.iret { w := true }, 2) ∧
    decode true [0xCD, 0x80] = .ok (.intImm8 0x80, 2) := by decide +kernel

theorem decode_far_2 :
    decode false [0xCC] = .ok (.int3, 1) ∧
    decode false [0xCE] = .ok (.into, 1) ∧
    decode true [0xF1] = .ok (.int1, 1) := by decide +kernel

theorem decode_system_call :
    decode true [0x0F, 0x05] = .ok (.syscall, 2) ∧
    decode true [0x0F, 0x34] = .ok (.sysenter, 2) ∧
    decode true [0x48, 0x0F, 0x07] = .ok (.sysret { w := true }, 3) ∧
    decode true [0x48, 0x0F, 0x35] = .ok (.sysexit { w := true }, 3) ∧
    decode true [0xF3, 0x0F, 0x01, 0xCA] = .ok (.eretu, 4) ∧
    decode true [0xF2, 0x0F, 0x01, 0xCA] = .ok (.erets, 4) ∧
    decode true [0x0F, 0xAA] = .ok (.rsm, 2) := by decide +kernel

theorem decode_segment_1 :
    decode true [0x8E, 0xD8] = .ok (.movSregRM {} 3 (.reg .rax), 2) ∧
    decode false [0x07] = .ok (.popEs {}, 1) ∧
    decode false [0x17] = .ok (.popSs {}, 1) ∧
    decode false [0x1F] = .ok (.popDs {}, 1) ∧
    decode true [0x0F, 0xA1] = .ok (.popFs {}, 2) ∧
    decode true [0x66, 0x0F, 0xA9] = .ok (.popGs { osz := true }, 3) ∧
    decode false [0xC5, 0x03] = .ok (.lds {} .rax { base := some .rbx }, 2) ∧
    decode false [0xC4, 0x43, 0x04] = .ok (.les {} .rax { base := some .rbx, disp := .d8 4 }, 3) := by decide +kernel

theorem decode_segment_2 :
    decode true [0x48, 0x0F, 0xB2, 0x23] = .ok (.lss { w := true } .rsp { base := some .rbx }, 4) ∧
    decode true [0x0F, 0xB4, 0x03] = .ok (.lfs {} .rax { base := some .rbx }, 3) ∧
    decode true [0x64, 0x0F, 0xB5, 0x03] = .ok (.lgs { seg := .fs } .rax { base := some .rbx }, 4) ∧
    decode true [0xF2, 0x0F, 0x00, 0xF0] = .ok (.lkgs {} (.reg .rax), 4) ∧
    decode true [0x8C, 0xD0] = .ok (.movRMSreg {} 2 (.reg .rax), 2) ∧
    decode false [0x06] = .ok (.pushEs {}, 1) ∧
    decode false [0x0E] = .ok (.pushCs {}, 1) ∧
    decode false [0x16] = .ok (.pushSs {}, 1) := by decide +kernel

theorem decode_segment_3 :
    decode false [0x1E] = .ok (.pushDs {}, 1) ∧
    decode true [0x0F, 0xA0] = .ok (.pushFs {}, 2) ∧
    decode true [0x0F, 0xA8] = .ok (.pushGs {}, 2) := by decide +kernel

theorem decode_table_registers_1 :
    decode true [0x0F, 0x01, 0x03] = .ok (.sgdt {} { base := some .rbx }, 3) ∧
    decode true [0x0F, 0x01, 0x4C, 0x24, 0x10] = .ok (.sidt {} { base := some .rsp, disp := .d8 0x10 }, 5) ∧
    decode true [0x0F, 0x01, 0x13] = .ok (.lgdt {} { base := some .rbx }, 3) ∧
    decode false [0x67, 0x0F, 0x01, 0x1F] = .ok (.lidt { asz := true } { base := some .rbx }, 4) ∧
    decode true [0x0F, 0x00, 0xC0] = .ok (.sldt {} (.reg .rax), 3) ∧
    decode true [0x0F, 0x00, 0xC9] = .ok (.str {} (.reg .rcx), 3) ∧
    decode true [0x0F, 0x00, 0xD2] = .ok (.lldt {} (.reg .rdx), 3) ∧
    decode true [0x0F, 0x00, 0xDB] = .ok (.ltr {} (.reg .rbx), 3) := by decide +kernel

theorem decode_table_registers_2 :
    decode true [0x0F, 0x00, 0xE0] = .ok (.verr {} (.reg .rax), 3) ∧
    decode true [0x0F, 0x00, 0xE9] = .ok (.verw {} (.reg .rcx), 3) ∧
    decode true [0x0F, 0x02, 0xC1] = .ok (.lar {} .rax (.reg .rcx), 3) ∧
    decode true [0x44, 0x0F, 0x03, 0xC1] = .ok (.lsl {} .r8 (.reg .rcx), 4) ∧
    decode false [0x63, 0xC8] = .ok (.arpl {} (.reg .rax) .rcx, 2) ∧
    decode true [0x0F, 0x01, 0xF8] = .ok (.swapgs, 3) ∧
    decode true [0xF3, 0x48, 0x0F, 0xAE, 0xC0] = .ok (.rdfsbase { w := true } .rax, 5) ∧
    decode true [0xF3, 0x0F, 0xAE, 0xC9] = .ok (.rdgsbase {} .rcx, 4) := by decide +kernel

theorem decode_table_registers_3 :
    decode true [0xF3, 0x49, 0x0F, 0xAE, 0xD0] = .ok (.wrfsbase { w := true } .r8, 5) ∧
    decode true [0xF3, 0x0F, 0xAE, 0xD8] = .ok (.wrgsbase {} .rax, 4) := by decide +kernel

theorem decode_control_1 :
    decode true [0x44, 0x0F, 0x20, 0xC0] = .ok (.movRCr 8 .rax, 4) ∧
    decode true [0x0F, 0x22, 0xC0] = .ok (.movCr0R .rax, 3) ∧
    decode true [0x0F, 0x22, 0xD1] = .ok (.movCr2R .rcx, 3) ∧
    decode true [0x0F, 0x22, 0xDA] = .ok (.movCr3R .rdx, 3) ∧
    decode true [0x41, 0x0F, 0x22, 0xE0] = .ok (.movCr4R .r8, 4) ∧
    decode true [0x44, 0x0F, 0x22, 0xC0] = .ok (.movCr8R .rax, 4) ∧
    decode true [0x0F, 0x01, 0xF0] = .ok (.lmsw {} (.reg .rax), 3) ∧
    decode true [0x0F, 0x32] = .ok (.rdmsr, 2) := by decide +kernel

theorem decode_control_2 :
    decode true [0x0F, 0x30] = .ok (.wrmsr, 2) ∧
    decode true [0x0F, 0xA2] = .ok (.cpuid, 2) ∧
    decode true [0x9D] = .ok (.popf {}, 1) ∧
    decode false [0x66, 0x9D] = .ok (.popf16 { osz := true }, 2) ∧
    decode true [0x9C] = .ok (.pushf {}, 1) ∧
    decode true [0xFA] = .ok (.cli, 1) ∧
    decode true [0xFB] = .ok (.sti, 1) := by decide +kernel

theorem decode_ports_1 :
    decode true [0xE4, 0x60] = .ok (.inAlImm 0x60, 2) ∧
    decode true [0x66, 0xE5, 0x60] = .ok (.inEaxImm { osz := true } 0x60, 3) ∧
    decode true [0xE6, 0x80] = .ok (.outImmAl 0x80, 2) ∧
    decode true [0xE7, 0x80] = .ok (.outImmEax {} 0x80, 2) ∧
    decode true [0xEC] = .ok (.inAlDx, 1) ∧
    decode true [0xED] = .ok (.inEaxDx {}, 1) ∧
    decode true [0xEE] = .ok (.outDxAl, 1) ∧
    decode true [0xEF] = .ok (.outDxEax {}, 1) := by decide +kernel

theorem decode_ports_2 :
    decode true [0x6C] = .ok (.insb, 1) ∧
    decode true [0x6D] = .ok (.insd, 1) ∧
    decode true [0x6E] = .ok (.outsb, 1) ∧
    decode false [0xF3, 0x6F] = .ok (.outsd, 2) := by decide +kernel

theorem decode_virtualization :
    decode true [0x0F, 0x01, 0xC2] = .ok (.vmlaunch, 3) ∧
    decode true [0x0F, 0x01, 0xC3] = .ok (.vmresume, 3) ∧
    decode true [0x66, 0x0F, 0x01, 0xCD] = .ok (.seamret, 4) ∧
    decode true [0x0F, 0x37] = .ok (.getsec, 2) := by decide +kernel
/-! ## A small machine -/

/-- Four levels of tables under CR3 = 0: the first gigabyte mapped to itself, writable, for user and supervisor. -/
def pageCells : List Host.Cell := [(0, 7), (1, 0x10), (0x1000, 0x87)]

/-- GDT at 0x2000: 0x08 ring-0 code, 0x10 ring-0 data, 0x18 ring-3 32-bit code, 0x20 ring-3 data, 0x28 ring-3 64-bit code, 0x30 an LDT,
0x40 a TSS at 0x3000. -/
def gdtCells : List Host.Cell :=
  [(0x200D, 0x9A), (0x200E, 0x20), (0x2015, 0x92), (0x201D, 0xFA), (0x201E, 0x40), (0x2025, 0xF2), (0x202D, 0xFA), (0x202E, 0x20),
   (0x2035, 0x82), (0x2040, 0x67), (0x2043, 0x30), (0x2045, 0x89)]

/-- RSP0 = 0xA000 in the TSS, and the gate of vector `v`: interrupt gate to 0x08:0x5300 with DPL 3. -/
def idtCells (v : Nat) : List Host.Cell :=
  [(0x3005, 0xA0), (0x4001 + 16 * v, 0x53), (0x4002 + 16 * v, 8), (0x4005 + 16 * v, 0xEE)]

def machine (mem : List Host.Cell) : State :=
  { State.reset with
    rip := 0x10000, nextRip := 0x10002, cr3 := 0, cr0 := 0x80010033, gdtr := ⟨0x2000, 0x5F⟩, idtr := ⟨0x4000, 0xFFF⟩
    tr := ⟨0x40, 0x3000, 0x67⟩, gpr := { Gprs.zero with rsp := 0x9000, rbx := 0x6000 }, mem := mem }

def kernel (mem : List Host.Cell) : State := { machine mem with cs := ⟨8, true⟩, ss := ⟨0x10, 0, false⟩ }
def user (mem : List Host.Cell) : State := { machine mem with cs := ⟨0x2B, true⟩, ss := ⟨0x23, 3, false⟩ }
def compat (mem : List Host.Cell) : State := { machine mem with cs := ⟨0x1B, false⟩, ss := ⟨0x23, 3, false⟩ }

/-- What is read of the state that `i` leaves, if it leaves one. -/
def ran {α : Type} (i : Instr) (s : State) (f : State → α) : Option α :=
  match exec i s with
  | .next t => some (f t)
  | _ => none

/-- RIP and RSP. -/
def ripRsp (t : State) : Word × Word := (t.rip, t.reg .rsp)

/-- The operand [RBX], at 0x6000. -/
def atRbx : Mem := { base := some .rbx }

/-- 8 bytes of memory. -/
def quad (a : Nat) (t : State) : Word := leWord ((List.range 8).map (fun k => t.byteAt (a + k)))

/-! ## One step of each instruction -/

/-- R178, R191: JZ taken with ZF = 1 and not taken with ZF = 0 (95_test_vectors.md, 35). -/
theorem test_jccRel8 : ran (.jccRel8 {} 4 0x10) ((user []).setRflags 0x42) (·.rip) = some 0x10012 ∧
    ran (.jccRel8 {} 4 0x10) ((user []).setRflags 2) (·.rip) = some 0x10002 := by decide +kernel

/-- R179: JG is not taken with ZF = 1, SF = OF. -/
theorem test_jccRel32 : ran (.jccRel32 {} 15 0xFFFFFFF0) ((user []).setRflags 2) (·.rip) = some 0xFFF2 ∧
    ran (.jccRel32 {} 15 0xFFFFFFF0) ((user []).setRflags 0x42) (·.rip) = some 0x10002 := by decide +kernel

/-- R180: LOOPNE ends with ZF = 1, LOOPE with ZF = 0, both decrement. -/
theorem test_loopcc :
    ran (.loopneRel8 {} 0xFE) (((user []).setReg .rcx 2).setRflags 0x42) (fun t => (t.rip, t.reg .rcx)) = some (0x10002, 1) ∧
    ran (.loopeRel8 {} 0xFE) (((user []).setReg .rcx 2).setRflags 0x42) (fun t => (t.rip, t.reg .rcx)) = some (0x10000, 1) := by
  decide +kernel

/-- R180: the count 0 wraps and branches; with 0x67 the count is ECX and bits 63:32 clear (34). -/
theorem test_loop :
    ran (.loopRel8 {} 0xFE) ((compat []).setReg .rcx 0) (fun t => (t.rip, t.reg .rcx)) = some (0x10000, 0xFFFFFFFF) ∧
    ran (.loopRel8 { asz := true } 0xFE) ((user []).setReg .rcx 0xFFFFFFFF00000001) (fun t => (t.rip, t.reg .rcx)) =
      some (0x10002, 0) := by decide +kernel

/-- R181: JECXZ with 0x67 tests CX (23); JRCXZ tests all 64 bits. -/
theorem test_jecxz : ran (.jecxzRel8 { asz := true } 5) ((compat []).setReg .rcx 0x10000) (·.rip) = some 0x10007 ∧
    ran (.jrcxzRel8 {} 5) ((user []).setReg .rcx 0x100000000) (·.rip) = some 0x10002 := by decide +kernel

/-- R182, R183, R194: the target is truncated in compatibility mode (24). -/
theorem test_jmp : ran (.jmpRel8 {} 0x80) (user []) (·.rip) = some 0xFF82 ∧
    ran (.jmpRel32 {} 0x20) { compat [] with rip := 0xFFFFFFF0, nextRip := 0xFFFFFFF5 } (·.rip) = some 0x15 := by decide +kernel

/-- R185: JMP r32 of compatibility mode ignores bits 63:32 (27). -/
theorem test_jmpRM : ran (.jmpRM {} (.reg .rax)) ((compat []).setReg .rax 0xFFFFFFFF00020000) (·.rip) = some 0x20000 := by
  decide +kernel

/-- R184: the return address is pushed in 8 bytes (29), in 4 bytes in compatibility mode (28). -/
theorem test_callRel32 :
    ran (.callRel32 {} 0x10) (user pageCells) (fun t => (ripRsp t, quad 0x8FF8 t)) = some ((0x10012, 0x8FF8), 0x10002) ∧
    ran (.callRel32 {} 0x10) (compat pageCells) (fun t => (ripRsp t, quad 0x8FF8 t)) =
      some ((0x10012, 0x8FFC), 0x0001000200000000) := by decide +kernel

/-- R186: the operand is read before the push. -/
theorem test_callRM : ran (.callRM {} (.reg .rsp)) (user pageCells) ripRsp = some (0x9000, 0x8FF8) := by decide +kernel

/-- R187, R188 (30). -/
theorem test_ret : ran (.ret {}) (user (pageCells ++ [(0x9000, 0x40)])) ripRsp = some (0x40, 0x9008) ∧
    ran (.retImm16 {} 8) (compat (pageCells ++ [(0x9000, 0x40), (0x9004, 0xFF)])) ripRsp = some (0x40, 0x900C) := by decide +kernel

/-- R189: with 0x67 in compatibility mode 16 bits of the address remain (21); a 16-bit destination keeps bits 63:16. -/
theorem test_lea : ran (.lea { asz := true } .rax { base := some .rbx }) ((compat []).setReg .rbx 0x12345678) (·.reg .rax) =
      some 0x5678 ∧
    ran (.lea { osz := true } .rax { base := some .rbx, disp := .d8 0xFF }) ((user []).setReg .rax 0x1234567890) (·.reg .rax) =
      some 0x1234565FFF := by decide +kernel

/-- R190. -/
theorem test_nop : ran .nop (user []) ripRsp = some (0x10002, 0x9000) ∧
    ran (.nopRM { asz := true } (.mem atRbx)) (compat []) ripRsp = some (0x10002, 0x9000) := by decide +kernel

/-- R322: CS, then the return address. -/
theorem test_callPtr : ran (.callPtr {} 0x20000 0x2B) (compat (pageCells ++ gdtCells)) (fun t => (ripRsp t, t.cs, quad 0x8FF8 t)) =
    some ((0x20000, 0x8FF8), ⟨0x2B, true⟩, 0x0000001B00010002) := by decide +kernel

/-- R323. -/
theorem test_callFarM :
    ran (.callFarM {} atRbx) (user (pageCells ++ gdtCells ++ [(0x6001, 2), (0x6004, 0x1B)])) (fun t => (ripRsp t, t.cs)) =
      some ((0x200, 0x8FF8), ⟨0x1B, false⟩) := by decide +kernel

/-- R325. -/
theorem test_jmpPtr : ran (.jmpPtr {} 0x20000 0x2B) (compat (pageCells ++ gdtCells)) (fun t => (ripRsp t, t.cs)) =
    some ((0x20000, 0x9000), ⟨0x2B, true⟩) := by decide +kernel

/-- R326. -/
theorem test_jmpFarM :
    ran (.jmpFarM {} atRbx) (user (pageCells ++ gdtCells ++ [(0x6001, 2), (0x6004, 0x1B)])) (fun t => (ripRsp t, t.cs)) =
      some ((0x200, 0x9000), ⟨0x1B, false⟩) := by decide +kernel

/-- R327, R328. -/
theorem test_retFar :
    ran (.retFar {}) (compat (pageCells ++ gdtCells ++ [(0x9001, 2), (0x9004, 0x2B)])) (fun t => (ripRsp t, t.cs)) =
      some ((0x200, 0x9008), ⟨0x2B, true⟩) ∧
    ran (.retFarImm16 {} 0x10) (compat (pageCells ++ gdtCells ++ [(0x9001, 2), (0x9004, 0x2B)])) ripRsp = some (0x200, 0x9018) := by
  decide +kernel

/-- The frame of a return from ring 0 to 0x200 in ring 3, with IF set in its flags. -/
def iretCells : List Host.Cell :=
  [(0x9001, 2), (0x9008, 0x2B), (0x9010, 2), (0x9011, 2), (0x9019, 0x70), (0x9020, 0x23)]

/-- R333, R334. -/
theorem test_iret : ran (.iret { w := true }) (kernel (pageCells ++ gdtCells ++ iretCells)) (fun t => (ripRsp t, t.cs, t.ss, t.rflags)) =
    some ((0x200, 0x7000), ⟨0x2B, true⟩, ⟨0x23, 3, false⟩, 0x202) := by decide +kernel

/-- R340, R434, R438: from ring 3 the frame lies below RSP0; IF clears. -/
theorem test_intImm8 :
    ran (.intImm8 3) ((user (pageCells ++ gdtCells ++ idtCells 3)).setRflags 0x202)
      (fun t => (ripRsp t, t.cs, t.ss, t.rflags, quad 0x9FD8 t, quad 0x9FE8 t)) =
      some ((0x5300, 0x9FD8), ⟨8, true⟩, ⟨0, 0, false⟩, 2, 0x10002, 0x202) := by decide +kernel

/-- R341, R435: within ring 0 SS stays. -/
theorem test_int3 : ran .int3 (kernel (pageCells ++ gdtCells ++ idtCells 3)) (fun t => (ripRsp t, t.ss, quad 0x8FD8 t)) =
    some ((0x5300, 0x8FD8), ⟨0x10, 0, false⟩, 0x10002) := by decide +kernel

/-- R342. -/
theorem test_into : ran .into ((compat (pageCells ++ gdtCells ++ idtCells 4)).setRflags 0x802) ripRsp = some (0x5300, 0x9FD8) ∧
    ran .into (compat []) (·.rip) = some 0x10002 := by decide +kernel

/-- R343. -/
theorem test_int1 : ran .int1 (user (pageCells ++ gdtCells ++ idtCells 1)) ripRsp = some (0x5300, 0x9FD8) := by decide +kernel

/-- IA32_STAR, IA32_LSTAR, IA32_FMASK and the SYSENTER MSRs. -/
def withMsrs (s : State) : State :=
  { s with sys := { s.sys with star := 0x0018000800000000, lstar := 0x8000, fmask := 0x202, sysenterCs := 8,
                               sysenterEsp := 0x7000, sysenterEip := 0x8100 } }

/-- R344: bit 1 of RFLAGS stays. -/
theorem test_syscall :
    ran .syscall ((withMsrs (user [])).setRflags 0x202) (fun t => (t.rip, t.reg .rcx, t.reg .r11, t.rflags, t.cs, t.ss)) =
      some (0x8000, 0x10002, 0x202, 2, ⟨8, true⟩, ⟨0x10, 0, true⟩) := by decide +kernel

/-- R345. -/
theorem test_sysenter : ran .sysenter ((withMsrs (user [])).setRflags 0x202) (fun t => (ripRsp t, t.rflags, t.cs, t.ss)) =
    some ((0x8100, 0x7000), 2, ⟨8, true⟩, ⟨0x10, 0, true⟩) := by decide +kernel

/-- R346: without REX.W compatibility mode. -/
theorem test_sysret :
    ran (.sysret { w := true }) (((withMsrs (kernel [])).setReg .rcx 0x400).setReg .r11 0x246) (fun t => (t.rip, t.rflags, t.cs, t.ss)) =
      some (0x400, 0x246, ⟨0x2B, true⟩, ⟨0x23, 3, true⟩) ∧
    ran (.sysret {}) ((withMsrs (kernel [])).setReg .rcx 0x500000400) (fun t => (t.rip, t.cs)) = some (0x400, ⟨0x1B, false⟩) := by
  decide +kernel

/-- R347. -/
theorem test_sysexit :
    ran (.sysexit { w := true }) (((withMsrs (kernel [])).setReg .rcx 0x7000).setReg .rdx 0x400) (fun t => (ripRsp t, t.cs, t.ss)) =
      some ((0x400, 0x7000), ⟨0x2B, true⟩, ⟨0x33, 3, true⟩) := by decide +kernel

/-- A FRED frame above an error code at 0x9000: RIP 0x200, ring-3 segments, RSP 0x7000. -/
def fredCells : List Host.Cell := [(0x9009, 2), (0x9010, 0x2B), (0x9018, 2), (0x9021, 0x70), (0x9028, 0x23)]

def fredKernel : State := withMsrs ({ kernel (pageCells ++ fredCells) with cr4 := 0x100000020 })

/-- R350: the GS bases are exchanged. -/
theorem test_eretu : ran .eretu (fredKernel.setGs ⟨0, 5⟩) (fun t => (ripRsp t, t.cs, t.ss, t.gs.base, t.sys.kernelGsBase)) =
    some ((0x200, 0x7000), ⟨0x2B, true⟩, ⟨0x23, 3, true⟩, 0, 5) := by decide +kernel

/-- R351: CS and SS stay. -/
theorem test_erets : ran .erets fredKernel (fun t => (ripRsp t, t.cs, t.ss)) = some ((0x200, 0x7000), ⟨8, true⟩, ⟨0x10, 0, false⟩) := by
  decide +kernel

/-- R353, D38: a saved image with IOPL set and ring 1 is made legal. -/
theorem test_rsm :
    ran .rsm { kernel [] with inSmm := true, smmSave := { State.reset.smmSave with rflags := 0x3002, ss := ⟨8, 1, false⟩, rip := 0x77 } }
      (fun t => (t.rip, t.rflags, t.ss, t.inSmm)) = some (0x77, 2, ⟨8, 0, false⟩, false) := by decide +kernel

/-- R214, R207: MOV SS blocks, MOV DS does not. -/
theorem test_movSregRM :
    ran (.movSregRM {} 2 (.reg .rax)) ((user (pageCells ++ gdtCells)).setReg .rax 0x23) (fun t => (t.ss, t.movSsBlocked)) =
      some (⟨0x23, 3, false⟩, true) ∧
    ran (.movSregRM {} 3 (.reg .rax)) ((user []).setReg .rax 3) (fun t => (t.ds, t.movSsBlocked)) = some (3, false) := by decide +kernel

/-- R215. -/
theorem test_popEs_popDs : ran (.popEs {}) (compat (pageCells ++ gdtCells ++ [(0x9000, 0x23)])) (fun t => (t.es, t.reg .rsp)) =
      some (0x23, 0x9004) ∧
    ran (.popDs { osz := true }) (compat (pageCells ++ gdtCells ++ [(0x9000, 0x23)])) (fun t => (t.ds, t.reg .rsp)) =
      some (0x23, 0x9002) := by decide +kernel

/-- R215, R65. -/
theorem test_popSs : ran (.popSs {}) (compat (pageCells ++ gdtCells ++ [(0x9000, 0x23)])) (fun t => (t.ss.sel, t.movSsBlocked)) =
    some (0x23, true) := by decide +kernel

/-- R215, R212: the base comes from the descriptor. -/
theorem test_popFs_popGs : ran (.popFs {}) (user (pageCells ++ [(0x2022, 0x77)] ++ gdtCells.drop 5 ++ [(0x9000, 0x23)])) (fun t => (t.fs, t.reg .rsp)) =
      some (⟨0x23, 0x77⟩, 0x9008) ∧
    ran (.popGs {}) (user pageCells) (fun t => (t.gs, t.reg .rsp)) = some (⟨0, 0⟩, 0x9008) := by decide +kernel

/-- A far pointer at 0x6000: offset 0x200, selector 0x23. -/
def farCells : List Host.Cell := [(0x6001, 2), (0x6004, 0x23)]

/-- R216. -/
theorem test_lds_les : ran (.lds {} .rax atRbx) (compat (pageCells ++ gdtCells ++ farCells)) (fun t => (t.ds, t.reg .rax)) =
      some (0x23, 0x200) ∧
    ran (.les {} .rax atRbx) (compat (pageCells ++ gdtCells ++ farCells)) (fun t => (t.es, t.reg .rax)) = some (0x23, 0x200) := by
  decide +kernel

/-- R216: LSS sets no blocking. -/
theorem test_lss : ran (.lss {} .rsp atRbx) (user (pageCells ++ gdtCells ++ farCells)) (fun t => (t.ss.sel, t.reg .rsp, t.movSsBlocked)) =
    some (0x23, 0x200, false) := by decide +kernel

/-- R216. -/
theorem test_lfs_lgs : ran (.lfs {} .rax atRbx) (user (pageCells ++ gdtCells ++ farCells)) (fun t => (t.fs.sel, t.reg .rax)) =
      some (0x23, 0x200) ∧
    ran (.lgs {} .rax atRbx) (user (pageCells ++ gdtCells ++ farCells)) (fun t => (t.gs.sel, t.reg .rax)) = some (0x23, 0x200) := by
  decide +kernel

/-- R217: the base of GS stays. -/
theorem test_lkgs :
    ran (.lkgs {} (.reg .rax)) (((kernel (pageCells ++ [(0x2022, 0x77)] ++ gdtCells.drop 5)).setReg .rax 0x23).setGs ⟨0, 5⟩)
      (fun t => (t.gs, t.sys.kernelGsBase)) = some (⟨0x23, 5⟩, 0x77) := by decide +kernel

/-- R218: zero-extended into a 32-bit register, bits 63:16 kept in a 16-bit one. -/
theorem test_movRMSreg : ran (.movRMSreg {} 2 (.reg .rax)) ((user []).setReg .rax 0xFFFFFFFFFFFFFFFF) (·.reg .rax) = some 0x23 ∧
    ran (.movRMSreg { osz := true } 1 (.reg .rax)) ((user []).setReg .rax 0xFFFFFFFFFFFFFFFF) (·.reg .rax) =
      some 0xFFFFFFFFFFFF002B := by decide +kernel

/-- R219: a slot of 2 or 8 bytes is zero-extended; of the 4-byte slot the low half is the selector. -/
theorem test_pushSreg : ran (.pushFs {}) ((user pageCells).setFs ⟨0x23, 0⟩) (fun t => (t.reg .rsp, quad 0x8FF8 t)) = some (0x8FF8, 0x23) ∧
    ran (.pushGs { osz := true }) (user pageCells) (·.reg .rsp) = some 0x8FFE ∧
    ran (.pushEs {}) (compat pageCells) (·.reg .rsp) = some 0x8FFC := by decide +kernel

/-- R219. -/
theorem test_pushCs_pushSs_pushDs :
    ran (.pushCs { osz := true }) (compat pageCells) (fun t => (t.byteAt 0x8FFE, t.byteAt 0x8FFF)) = some (0x1B, 0) ∧
    ran (.pushSs { osz := true }) (compat pageCells) (fun t => (t.byteAt 0x8FFE, t.byteAt 0x8FFF)) = some (0x23, 0) ∧
    ran (.pushDs { osz := true }) ((compat pageCells).setDs 0x123) (fun t => (t.byteAt 0x8FFE, t.byteAt 0x8FFF)) = some (0x23, 1) := by
  decide +kernel

/-- R222, R223: limit, then base. -/
theorem test_sgdt_sidt : ran (.sgdt {} atRbx) (user pageCells) (quad 0x6000) = some 0x000000002000005F ∧
    ran (.sidt {} atRbx) (compat pageCells) (quad 0x6000) = some 0x0000000040000FFF := by decide +kernel

/-- R220, R221: a base that is not canonical loads nothing. -/
theorem test_lgdt_lidt : ran (.lgdt {} atRbx) (kernel (pageCells ++ [(0x6000, 0x7F), (0x6003, 0x20)])) (·.gdtr) = some ⟨0x2000, 0x7F⟩ ∧
    ran (.lidt {} atRbx) (kernel (pageCells ++ [(0x6001, 1), (0x6009, 0xFF)])) (·.idtr.limit) = some 0xFFF := by
  decide +kernel

/-- R225, R227. -/
theorem test_sldt_str : ran (.sldt {} (.reg .rax)) ((user []).setReg .rax 0xFFFFFFFFFFFFFFFF) (·.reg .rax) = some 0 ∧
    ran (.str {} (.reg .rax)) (user []) (·.reg .rax) = some 0x40 := by decide +kernel

/-- R224, R226. -/
theorem test_lldt_ltr : ran (.lldt {} (.reg .rax)) ((kernel (pageCells ++ gdtCells)).setReg .rax 0x30) (·.ldtr) = some ⟨0x30, 0, 0⟩ ∧
    ran (.ltr {} (.reg .rax)) ((kernel (pageCells ++ gdtCells)).setReg .rax 0x40) (·.tr) = some ⟨0x40, 0x3000, 0x67⟩ := by decide +kernel

/-- R242, R243: a ring-0 segment is not accessible from ring 3. -/
theorem test_verr_verw : ran (.verr {} (.reg .rax)) ((user (pageCells ++ gdtCells)).setReg .rax 0x23) (·.rflags) = some 0x42 ∧
    ran (.verw {} (.reg .rax)) (((user (pageCells ++ gdtCells)).setReg .rax 0x10).setRflags 0x42) (·.rflags) = some 2 := by decide +kernel

/-- R240, R241: the accessed bit reads as 1. -/
theorem test_lar_lsl : ran (.lar {} .rcx (.reg .rax)) ((user (pageCells ++ gdtCells)).setReg .rax 0x23) (·.reg .rcx) = some 0xF300 ∧
    ran (.lsl {} .rcx (.reg .rax)) ((user (pageCells ++ [(0x2020, 0x34), (0x2025, 0xF2), (0x2026, 0x80)])).setReg .rax 0x23) (·.reg .rcx) =
      some 0x34FFF := by decide +kernel

/-- R244. -/
theorem test_arpl : ran (.arpl {} (.reg .rax) .rcx) (((compat []).setReg .rax 0x20).setReg .rcx 3) (fun t => (t.reg .rax, t.rflags)) =
      some (0x23, 0x42) ∧
    ran (.arpl {} (.reg .rax) .rcx) (((compat []).setReg .rax 0x23).setReg .rcx 1) (fun t => (t.reg .rax, t.rflags)) = some (0x23, 2) := by
  decide +kernel

/-- R245. -/
theorem test_swapgs : ran .swapgs ((kernel []).setGs ⟨0, 5⟩) (fun t => (t.gs.base, t.sys.kernelGsBase)) = some (0, 5) := by decide +kernel

/-- A machine with CR4.FSGSBASE. -/
def fsgs : State := { user [] with cr4 := 0x10020, fs := ⟨0, 0x123456789⟩, gs := ⟨0, 0x55⟩ }

/-- R246: 32 bits without REX.W. -/
theorem test_rdfsbase_rdgsbase : ran (.rdfsbase {} .rax) fsgs (·.reg .rax) = some 0x23456789 ∧
    ran (.rdgsbase { w := true } .rax) fsgs (·.reg .rax) = some 0x55 := by decide +kernel

/-- R247. -/
theorem test_wrfsbase_wrgsbase : ran (.wrfsbase { w := true } .rbx) fsgs (·.fs.base) = some 0x6000 ∧
    ran (.wrgsbase {} .rax) (fsgs.setReg .rax 0x700000001) (·.gs.base) = some 1 := by decide +kernel

/-- R270: MOV from CR0; the reserved and system flags stay. -/
theorem test_movRCr : ran (.movRCr 0 .rax) (kernel []) (·.reg .rax) = some 0x80010033 ∧
    ran (.movRCr 8 .r9) ((kernel []).setCr8 5) (·.reg .r9) = some 5 := by decide +kernel

/-- R271: ET is not examined and reads as 1. -/
theorem test_movCr0R : ran (.movCr0R .rax) ((kernel []).setReg .rax 0x80000023) (·.cr0) = some 0x80000033 := by decide +kernel

/-- R272. -/
theorem test_movCr2R_movCr3R : ran (.movCr2R .rax) ((kernel []).setReg .rax 0x8000000000000001) (·.cr2) = some 0x8000000000000001 ∧
    ran (.movCr3R .rax) ((kernel []).setReg .rax 0x3000) (·.cr3) = some 0x3000 := by decide +kernel

/-- R273, R272. -/
theorem test_movCr4R_movCr8R : ran (.movCr4R .rax) ((kernel []).setReg .rax 0x10020) (·.cr4) = some 0x10020 ∧
    ran (.movCr8R .rax) ((kernel []).setReg .rax 0xF) (·.cr8) = some 0xF := by decide +kernel

/-- R275, R36: IA32_EFER reads 0xD01. -/
theorem test_rdmsr : ran .rdmsr (((kernel []).setReg .rcx 0xC0000080).setReg .rdx 0xFFFFFFFFFFFFFFFF) (fun t => (t.reg .rax, t.reg .rdx)) =
    some (0xD01, 0) := by decide +kernel

/-- R276: EDX:EAX. -/
theorem test_wrmsr : ran .wrmsr ((((kernel []).setReg .rcx 0xC0000081).setReg .rdx 0xF00180008).setReg .rax 0x700000001) (·.sys.star) =
    some 0x0018000800000001 := by decide +kernel

/-- R281: every answer has bits 63:32 clear; RIP moves on. -/
theorem test_cpuid : ran .cpuid (user []) (fun t => (t.rip, t.draws, t.reg .rbp)) = some (0x10002, 1, 0) := by decide +kernel

/-- R290: at CPL 3 IF stays; RF clears. -/
theorem test_popf : ran (.popf {}) ((user (pageCells ++ [(0x9000, 0xD7), (0x9001, 0x7F), (0x9002, 0x24)])).setRflags 0x10002) (fun t => (t.rflags, t.reg .rsp)) =
    some (0x244DD7, 0x9008) := by decide +kernel

/-- R291: bits 31:16 stay. -/
theorem test_popf16 : ran (.popf16 { osz := true }) ((kernel (pageCells ++ [(0x9001, 2)])).setRflags 0x40002) (fun t => (t.rflags, t.reg .rsp)) =
    some (0x40202, 0x9002) := by decide +kernel

/-- R292: RF is pushed as 0. -/
theorem test_pushf : ran (.pushf {}) ((user pageCells).setRflags 0x10202) (fun t => (t.reg .rsp, quad 0x8FF8 t)) = some (0x8FF8, 0x202) := by
  decide +kernel

/-- R296, R297: the shadow of STI follows a change of IF only. -/
theorem test_cli_sti : ran .cli ((kernel []).setRflags 0x202) (·.rflags) = some 2 ∧
    ran .sti (kernel []) (fun t => (t.rflags, t.stiBlocked)) = some (0x202, true) ∧
    ran .sti ((kernel []).setRflags 0x202) (·.stiBlocked) = some false := by decide +kernel

/-- R301, R304: the low byte of RAX, or EAX. -/
theorem test_out : ran (.outImmAl 0x80) ((kernel []).setReg .rax 0x1234) (·.portWrites) = some [⟨0x80, 1, 0x34⟩] ∧
    ran (.outImmEax { osz := true } 0x80) ((kernel []).setReg .rax 0x12345678) (·.portWrites) = some [⟨0x80, 2, 0x5678⟩] ∧
    ran .outDxAl (((kernel []).setReg .rax 0x1234).setReg .rdx 0x103F8) (·.portWrites) = some [⟨0x3F8, 1, 0x34⟩] ∧
    ran (.outDxEax {}) ((kernel []).setReg .rax 0x912345678) (·.portWrites) = some [⟨0, 4, 0x12345678⟩] := by decide +kernel

/-- R299, R300: one answer is used; nothing is written. -/
theorem test_in : ran (.inAlImm 0x60) (kernel []) (fun t => (t.draws, t.rip)) = some (1, 0x10002) ∧
    ran (.inEaxImm {} 0x60) (kernel []) (fun t => (t.draws, t.rip)) = some (1, 0x10002) ∧
    ran .inAlDx (kernel []) (fun t => (t.draws, t.rip)) = some (1, 0x10002) ∧
    ran (.inEaxDx {}) (kernel []) (fun t => (t.draws, t.rip)) = some (1, 0x10002) := by decide +kernel

/-- R274, R302, R303: #UD, vector 6, in ring 0. -/
theorem test_removed : ([Instr.lmsw {} (.reg .rax), .insb, .insd, .outsb, .outsd].all fun i =>
    ran i (kernel (pageCells ++ gdtCells ++ idtCells 6)) (fun t => (ripRsp t, quad 0x8FD8 t)) == some ((0x5300, 0x8FD8), 0x10000)) = true := by
  decide +kernel

def zeroGuest : VmcsGuest :=
  { esSel := 0, csSel := 0, ssSel := 0, dsSel := 0, fsSel := 0, gsSel := 0, ldtrSel := 0, trSel := 0, esLimit := 0,
    csLimit := 0, ssLimit := 0, dsLimit := 0, fsLimit := 0, gsLimit := 0, ldtrLimit := 0, trLimit := 0, gdtrLimit := 0,
    idtrLimit := 0, esAr := 0, csAr := 0, ssAr := 0, dsAr := 0, fsAr := 0, gsAr := 0, ldtrAr := 0, trAr := 0, esBase :=
    0, csBase := 0, ssBase := 0, dsBase := 0, fsBase := 0, gsBase := 0, ldtrBase := 0, trBase := 0, gdtrBase := 0,
    idtrBase := 0, pdpte0 := 0, pdpte1 := 0, pdpte2 := 0, pdpte3 := 0, activity := 0, rflags := 0, rip := 0, rsp := 0,
    cr0 := 0, cr3 := 0, cr4 := 0 }

/-- A guest area that passes R367 and R368: ring 0 in 64-bit mode at 0x400. -/
def guestArea : VmcsGuest :=
  { zeroGuest with csSel := 8, csAr := 0x2000, rip := 0x400, rsp := 0x7000, rflags := 2, cr0 := 0x80010033, cr4 := 0x2020 }

def hostArea : VmcsHost :=
  { csSel := 8, ssSel := 0x10, dsSel := 0, esSel := 0, fsSel := 0, gsSel := 0, trSel := 0x40, fsBase := 0, gsBase := 0,
    trBase := 0x3000, gdtrBase := 0x2000, idtrBase := 0x4000, cr0 := 0x80010033, cr3 := 0, cr4 := 0x2020, rsp := 0x9800, rip := 0x5000 }

def vmcs (launched : Bool) : Vmcs :=
  { guest := guestArea, host := hostArea, exit := ⟨0, 0, 0, 0, 0⟩
    ctl := { hostAddressSpaceSize := true, ia32eGuest := true, unrestrictedGuest := false, cr0Mask := 0, cr0Shadow := 0, cr4Mask := 0,
             cr4Shadow := 0, exceptionBitmap := 0, ioExiting := false, useIoBitmaps := false, ioBitmapA := 0, ioBitmapB := 0, entryIntrInfo := 0,
             entryErrorCode := 0, entryInstrLen := 0, virtualizeApicAccesses := false, useTprShadow := false, apicRegisterVirtualization := false, apicAccessAddr := 0, virtualApicAddr := 0, launched := launched } }

/-- VMX root operation with a current VMCS. -/
def root (launched : Bool) : State := { kernel [] with vmx := .root (some (vmcs launched)), cr4 := 0x2020 }

/-- R366, R377. -/
theorem test_vmlaunch_vmresume : ran .vmlaunch (root false) (fun t => (ripRsp t, t.cs, t.ss, t.nonRoot)) =
      some ((0x400, 0x7000), ⟨8, true⟩, ⟨0, 0, false⟩, true) ∧
    ran .vmresume (root true) (fun t => (ripRsp t, t.nonRoot)) = some ((0x400, 0x7000), true) := by decide +kernel

/-- R376: in SEAM. -/
theorem test_seamret : ran .seamret { root false with inSeam := true } (fun t => (ripRsp t, t.inSeam)) = some ((0x400, 0x7000), false) := by
  decide +kernel

/-- R390: GETSEC[CAPABILITIES] goes on; GETSEC[ENTERACCS] of a machine with no chipset raises #GP(0). -/
theorem test_getsec : ran .getsec { kernel [] with cr4 := 0x4020 } (fun t => (t.rip, t.draws)) = some (0x10002, 1) ∧
    ran .getsec ((({ kernel (pageCells ++ gdtCells ++ idtCells 13) with cr4 := 0x4020 } : State)).setReg .rax 2) ripRsp =
      some (0x5300, 0x8FD0) := by decide +kernel

/-- R480: a step fetches, decodes and runs the instruction at RIP; the host's question is answered so. -/
theorem test_step : (match step (user (pageCells ++ [(0x10000, 0xEB), (0x10001, 0x10)])) with
    | .next t => some t.rip
    | _ => none) = some 0x10012 ∧
    decodeTableWord 16 0x10EB = some (.jmpRel8 {} 0x10) ∧
    (match step (State.reset.withFetchWord 16 0x10EB) with
    | .next t => some t.rip
    | _ => none) = some 0x100000002 ∧
    decodeTableWord 16 0xC163 = some (.arpl {} (.reg .rcx) .rax) ∧
    (match step (State.reset.withFetchWord 16 0xC163) with
    | .next t => some (t.rip, t.rflags, t.cs.l)
    | _ => none) = some (0xFFFFFFF2, 2, false) := by decide +kernel

/-! ## Every obligation's hypotheses are met, each clause at a boundary of its range -/

/-- The next state a machine answers, if it answers one, has the property `f`. -/
def nextHas (r : Host.Outcome State Fault Refusal) (f : State → Bool) : Bool :=
  match r with
  | .next t => f t
  | _ => false

/-- The refusal a machine answers, if it refuses. -/
def refusal (r : Host.Outcome State Fault Refusal) : Option Refusal :=
  match r with
  | .refused x => some x
  | _ => none

/-- The checks of a delivery pass. -/
def planned (s : State) (e : Event) : Bool :=
  match s.plan e with
  | .ok _ => !bit s.cr4 32 && !bit s.cr4 23
  | _ => false

/-- `n` addresses from `a` on. -/
def span (a n : Nat) : List Nat := (List.range n).map (a + ·)

/-- JMP +0x10 at 0x10000. -/
def jumpCells : List Host.Cell := pageCells ++ [(0x10000, 0xEB), (0x10001, 0x10)]

def stepping : State := user jumpCells

theorem witness_DecodeEncode : (Instr.jmpRel32 {} 0xFFFFFFFF).wf false = true ∧
    (Instr.movRMSreg { seg := .gs, osz := true, asz := true, w := true } 5
      (.mem { base := some .r15, index := some .r12, scale := 3, disp := .d32 0x80000000 })).wf true = true := by decide

theorem witness_StepRunsDecoded : stepping.due = none ∧ stepping.activity = .running ∧
    (Instr.jmpRel8 {} 0x10).wf stepping.cs.l = true ∧ decode stepping.cs.l stepping.fetch.1 = .ok (.jmpRel8 {} 0x10, 2) ∧
    nextHas (exec (.jmpRel8 {} 0x10) (stepping.beginInstr (.jmpRel8 {} 0x10) 2))
      (fun t => !State.wrapped (stepping.beginInstr (.jmpRel8 {} 0x10) 2) t true) = true ∧
    stepping.dbg.dr7 &&& 0xFF = 0 := by decide +kernel

/-- At the end of the 32-bit space: a NOP at its last byte ends at 2^32. -/
theorem witness_StepRunsDecoded_wrap :
    let s := { compat (pageCells ++ [(0xFFFFFFFF, 0x90)]) with rip := 0xFFFFFFFF }
    State.wrapped (s.beginInstr .nop 1) ((s.beginInstr .nop 1).setRip 0x100000000) false = true := by decide +kernel

/-- The last bytes of the 64-bit space, mapped to the first gigabyte. -/
def atTheTop (bs : List Host.Cell) (rip : Word) : State :=
  { kernel ([(0, 7), (1, 0x10), (0xFF8, 7), (0xFF9, 0x10), (0x1000, 0x87), (0x1FF8, 0x87)] ++ bs) with rip := rip }

/-- R24, U11: a NOP at the last byte goes on past the end; a JMP from there to linear 0 does not, nor one over the end; a JMP that lies
over the end is not fetched. -/
theorem witness_StepRunsDecoded_top :
    refusal (step (atTheTop [(0x3FFFFFFF, 0x90)] 0xFFFFFFFFFFFFFFFF)) = some .ripWrapAround ∧
    nextHas (step (atTheTop [(0x3FFFFFFE, 0xEB)] 0xFFFFFFFFFFFFFFFE)) (fun t => t.rip == 0) = true ∧
    nextHas (step (atTheTop [(0x3FFFFFFE, 0xEB), (0x3FFFFFFF, 5)] 0xFFFFFFFFFFFFFFFE)) (fun t => t.rip == 5) = true ∧
    refusal (step (atTheTop [(0x3FFFFFFF, 0xEB)] 0xFFFFFFFFFFFFFFFF)) = some .ripWrapAround := by decide +kernel

theorem witness_StepRunsDecoded_interrupts : stepping.interrupts .int3 = true ∧ stepping.interrupts (.intImm8 255) = true ∧
    ((compat []).setRflags 0x802).interrupts .into = true ∧ (compat []).interrupts .into = false ∧
    stepping.interrupts .nop = false := by decide +kernel

/-- TF makes a trap pending (R26); a byte that has been stored to is not fetched (R122, D5). -/
theorem test_surroundings :
    nextHas (step (stepping.setRflags 0x102)) (fun t => t.dbPending) = true ∧
    refusal (step { stepping with stored := [0x10001] }) = some .storedCodeFetched := by decide +kernel

theorem witness_ResetRegisters : Reg.rcx ≠ .rax ∧ Reg.rcx ≠ .rdx ∧ Config.default.bistPassed = true := by decide

/-- A platform reset of a machine that runs. -/
theorem witness_ResetRegisters_event : let s := { user pageCells with pending := { Pending.none with reset := true } }
    s.pending.reset = true ∧ nextHas (step s) (fun t => t.rip == 0xFFFFFFF0 && decide (t.mem = pageCells)) = true := by decide +kernel

theorem witness_StepKeepsMemoryForm : stepping.memWf = true ∧ nextHas (step stepping) (fun _ => true) = true := by decide +kernel

theorem witness_StepKeepsMode : stepping.legalMode = true ∧ nextHas (step stepping) (fun _ => true) = true := by decide +kernel

theorem witness_StepKeepsFixedRegisters : stepping.fixedRegisters = true ∧ nextHas (step stepping) (fun _ => true) = true := by
  decide +kernel

theorem witness_StepKeepsFlags : stepping.legalRflags = true ∧ nextHas (step stepping) (fun _ => true) = true := by decide +kernel

theorem witness_StepKeepsCompatRip : (compat jumpCells).legalMode = true ∧ (compat jumpCells).legalRip = true ∧
    nextHas (step (compat jumpCells)) (fun t => !t.cs.l) = true := by decide +kernel

theorem witness_UserKeepsSystemState : (user []).ss.dpl = 3 ∧ (user []).inSmm = false ∧
    nextHas (exec (.jmpRel8 {} 0x10) (user [])) (fun t => t.ss.dpl == 3) = true := by decide +kernel

theorem witness_OnlyReturnsLeaveRingZero : (kernel (pageCells ++ gdtCells ++ iretCells)).ss.dpl = 0 ∧
    nextHas (exec (.iret { w := true }) (kernel (pageCells ++ gdtCells ++ iretCells))) (fun t => t.ss.dpl == 3) = true := by
  decide +kernel

theorem witness_RingZeroEntries : (user (pageCells ++ gdtCells ++ idtCells 3)).ss.dpl = 3 ∧
    nextHas (exec (.intImm8 3) (user (pageCells ++ gdtCells ++ idtCells 3))) (fun t => t.ss.dpl == 0) = true ∧
    Instr.intImm8 3 ≠ .rsm := by decide +kernel

/-- A branch at the last canonical addresses: +1 is not canonical. -/
def edge : State := { user [] with nextRip := 0x00FFFFFFFFFFFFFF, cr4 := 0x1020 }

theorem witness_RelativeBranches : edge.cs.l = true ∧ condTrue 4 edge.rflags = false ∧ condTrue 5 edge.rflags = true ∧
    legalTarget edge (edge.nextRip + (0 : BitVec 8).signExtend 64) = some 0x00FFFFFFFFFFFFFF ∧
    legalTarget edge (edge.nextRip + (0 : BitVec 32).signExtend 64) = some 0x00FFFFFFFFFFFFFF ∧
    legalTarget edge (edge.nextRip + (1 : BitVec 8).signExtend 64) = none ∧
    legalTarget edge (edge.nextRip + (1 : BitVec 32).signExtend 64) = none ∧
    legalTarget (compat []) ((compat []).nextRip + (0x80 : BitVec 8).signExtend 64) = some 0xFF82 ∧
    (compat []).cs.l = false := by decide +kernel

/-- The counts 0, 1 and 2. -/
def counting (n : Word) : State := edge.setReg .rcx n

theorem witness_CountBranches : edge.cs.l = true ∧
    regWritten 0 8 ((counting 0).reg .rcx) = 0 ∧ regWritten 0 8 ((counting 1).reg .rcx - 1) = 0 ∧
    regWritten 0 8 ((counting 2).reg .rcx - 1) ≠ 0 ∧ regWritten 0 8 ((counting 0).reg .rcx - 1) ≠ 0 ∧
    legalTarget (counting 2) ((counting 2).nextRip + (0xFE : BitVec 8).signExtend 64) = some 0x00FFFFFFFFFFFFFD ∧
    legalTarget (counting 2) ((counting 2).nextRip + (1 : BitVec 8).signExtend 64) = none ∧ regWritten 0 8 ((counting 1).reg .rcx) ≠ 0 ∧
    bit (counting 2).rflags 6 = false ∧ bit ((counting 2).setRflags 0x42).rflags 6 = true ∧
    regWritten 0 2 (((compat []).setReg .rcx 0x10000).reg .rcx) = 0 := by decide +kernel

theorem witness_CallsJumpsReturns :
    (user pageCells).memWf = true ∧ (user pageCells).readRM {} .w64 (.reg .rbx) = .ok 0x6000 ∧
    legalTarget (user pageCells) 0x6000 = some 0x6000 ∧
    legalTarget (user pageCells) ((user pageCells).nextRip + (0x10 : BitVec 32).signExtend 64) = some 0x10012 ∧
    (user pageCells).accessPas { (user pageCells).dataAccess with write := true } (stackDown true (user pageCells).sp 8) 8 8 =
      .ok (span 0x8FF8 8) ∧
    (compat pageCells).accessPas { (compat pageCells).dataAccess with write := true } (stackDown false (compat pageCells).sp 4) 4 4 =
      .ok (span 0x8FFC 4) ∧
    (edge.setReg .rax 0x0100000000000000).readRM {} .w64 (.reg .rax) = .ok 0x0100000000000000 ∧
    legalTarget (edge.setReg .rax 0x0100000000000000) 0x0100000000000000 = none ∧
    legalTarget edge (edge.nextRip + (1 : BitVec 32).signExtend 64) = none := by decide +kernel

theorem witness_CallsJumpsReturns_returns :
    (user (pageCells ++ [(0x9000, 0x40)])).memRead (user (pageCells ++ [(0x9000, 0x40)])).sp 8 = .ok 0x40 ∧
    legalTarget (user (pageCells ++ [(0x9000, 0x40)])) 0x40 = some 0x40 ∧
    (user (pageCells ++ [(0x9006, 1)])).memRead (user (pageCells ++ [(0x9006, 1)])).sp 8 = .ok 0x0001000000000000 ∧
    legalTarget (user (pageCells ++ [(0x9006, 1)])) 0x0001000000000000 = none ∧
    (compat (pageCells ++ [(0x9000, 0x40)])).memRead (compat (pageCells ++ [(0x9000, 0x40)])).sp 4 = .ok 0x40 := by decide +kernel

theorem witness_Address16Faults : (compat []).cs.l = false ∧ ({ asz := true } : Pfx).asz = true ∧ ({ asz := true } : Pfx).osz = false ∧
    (5 : BitVec 3).toNat ∈ [0, 2, 3, 4, 5] ∧ (1 : BitVec 3).toNat ≤ 5 := by decide +kernel

theorem witness_LeaAndNop : (0x6000 : Word) = (user []).optReg atRbx.base + ((user []).optReg atRbx.index <<< atRbx.scale.toNat) +
    Disp.value atRbx.disp + (if atRbx.rip then (user []).nextRip else 0) := by decide +kernel

/-! ### Far transfers -/

/-- Descriptors 0x08 (ring-0 code), 0x10 (ring-0 data), 0x18 (ring-3 32-bit code), 0x20 (ring-3 data) and 0x28 (ring-3 64-bit code). -/
def codeCells : List Host.Cell :=
  pageCells ++ [(0x200D, 0x9A), (0x200E, 0x20), (0x2015, 0x92), (0x201D, 0xFA), (0x201E, 0x40), (0x2025, 0xF2), (0x202D, 0xFA), (0x202E, 0x20)]

/-- A far pointer at 0x6000 to 0x200 in segment `sel`, with a 4-byte offset. -/
def pointer (sel : Byte) : List Host.Cell := codeCells ++ [(0x6001, 2), (0x6004, sel)]

/-- A far frame at 0x9000 to 0x200 in segment `sel`, in 4-byte slots. -/
def farFrame (sel : Byte) : List Host.Cell := codeCells ++ [(0x9001, 2), (0x9004, sel)]

theorem witness_FarJumpsAndCalls :
    (compat (pointer 0x2B)).memWf = true ∧ (compat (pointer 0x2B)).cs.l = false ∧
    inTable (compat (pointer 0x2B)) 0x2B = true ∧ descriptorAt (compat (pointer 0x2B)) 0x2B = .ok 0x0020FA0000000000 ∧
    codeDescriptorOk 0x2B 0x0020FA0000000000 (compat (pointer 0x2B)).ss.dpl = true ∧
    legalFarTarget (compat (pointer 0x2B)) true ((0x20000 : BitVec 32).setWidth 64) = some 0x20000 ∧
    (compat (pointer 0x2B)).pushPas (compat (pointer 0x2B)).dataAccess false (compat (pointer 0x2B)).sp 4 2 =
      .ok (span 0x8FFC 4 ++ span 0x8FF8 4) ∧
    (user (pointer 0x1B)).memWf = true ∧ inTable (user (pointer 0x1B)) 0x1B = true ∧
    descriptorAt (user (pointer 0x1B)) 0x1B = .ok 0x0040FA0000000000 ∧
    codeDescriptorOk 0x1B 0x0040FA0000000000 (user (pointer 0x1B)).ss.dpl = true ∧
    (user (pointer 0x1B)).readFarPtr {} atRbx ((user (pointer 0x1B)).opSize {}) = .ok (0x200, 0x1B) ∧
    (user (pointer 0x1B)).pushPas (user (pointer 0x1B)).dataAccess true (user (pointer 0x1B)).sp 4 2 =
      .ok (span 0x8FFC 4 ++ span 0x8FF8 4) ∧
    legalFarTarget (user (pointer 0x1B)) false 0x200 = some 0x200 ∧
    (user (codeCells ++ [(0x6006, 1), (0x6008, 0x2B)])).readFarPtr { w := true } atRbx .w64 = .ok (0x0001000000000000, 0x2B) ∧
    inTable (user (codeCells ++ [(0x6006, 1), (0x6008, 0x2B)])) 0x2B = true ∧
    descriptorAt (user (codeCells ++ [(0x6006, 1), (0x6008, 0x2B)])) 0x2B = .ok 0x0020FA0000000000 ∧
    legalFarTarget (user (codeCells ++ [(0x6006, 1), (0x6008, 0x2B)])) true 0x0001000000000000 = none := by decide +kernel

theorem witness_FarReturns :
    (compat (farFrame 0x1B)).popAt ((compat (farFrame 0x1B)).opSize {}) 0 = .ok 0x200 ∧
    (compat (farFrame 0x1B)).popAt ((compat (farFrame 0x1B)).opSize {}) 1 = .ok 0x1B ∧
    inTable (compat (farFrame 0x1B)) 0x1B = true ∧ descriptorAt (compat (farFrame 0x1B)) 0x1B = .ok 0x0040FA0000000000 ∧
    codeDescriptorOk 0x1B 0x0040FA0000000000 (compat (farFrame 0x1B)).ss.dpl = true ∧
    legalFarTarget (compat (farFrame 0x1B)) false 0x200 = some 0x200 := by decide +kernel

theorem witness_RemovedFormsAndInstructions : (compat []).cs.l = false ∧ ({ osz := true } : Pfx).osz = true ∧ (user []).cs.l = true ∧
    ({ osz := true } : Pfx).w = false := by decide +kernel

theorem witness_FarTransferFaults :
    let s := compat (pointer 8)
    inTable s 8 = true ∧ descriptorAt s 8 = .ok 0x00209A0000000000 ∧ codeDescriptorOk 8 0x00209A0000000000 s.ss.dpl = false ∧
    s.cs.l = false ∧ s.readFarPtr {} atRbx (s.opSize {}) = .ok (0x200, 8) ∧
    inTable (compat (farFrame 8)) 8 = true ∧ descriptorAt (compat (farFrame 8)) 8 = .ok 0x00209A0000000000 ∧
    (compat (farFrame 8)).popAt ((compat (farFrame 8)).opSize {}) 0 = .ok 0x200 ∧
    (compat (farFrame 8)).popAt ((compat (farFrame 8)).opSize {}) 1 = .ok 8 ∧
    (compat (pointer 3)).readFarPtr {} atRbx .w32 = .ok (0x200, 3) ∧ (compat (pointer 7)).readFarPtr {} atRbx .w32 = .ok (0x200, 7) ∧
    (compat (pointer 0x63)).readFarPtr {} atRbx .w32 = .ok (0x200, 0x63) ∧ inTable (compat (pointer 0x63)) 0x63 = false := by
  decide +kernel

theorem witness_FarTransferFaults_target :
    let s := user (codeCells ++ [(0x6006, 1), (0x6008, 0x2B), (0x9006, 1), (0x9008, 0x2B)])
    s.cs.l = true ∧ inTable s 0x2B = true ∧ descriptorAt s 0x2B = .ok 0x0020FA0000000000 ∧
    codeDescriptorOk 0x2B 0x0020FA0000000000 s.ss.dpl = true ∧
    s.readFarPtr { w := true } atRbx (s.opSize { w := true }) = .ok (0x0001000000000000, 0x2B) ∧
    s.popAt (s.opSize { w := true }) 0 = .ok 0x0001000000000000 ∧ s.popAt (s.opSize { w := true }) 1 = .ok 0x2B ∧
    legalFarTarget s ((0x0020FA0000000000 : Word).getLsbD 53) 0x0001000000000000 = none := by decide +kernel

/-- An IRET frame of 8-byte slots at 0x9000: RIP 0x200, the flags 0x202, RSP 0x7000. -/
def frame8 (cs ss flagsHigh : Byte) : List Host.Cell :=
  codeCells ++ [(0x9001, 2), (0x9008, cs), (0x9010, 2), (0x9011, flagsHigh), (0x9019, 0x70), (0x9020, ss)]

/-- The head of the frame as IRET reads it. -/
def headIs (s : State) (cs image : Word) : Bool :=
  decide (s.popAt .w64 0 = .ok 0x200) && decide (s.popAt .w64 1 = .ok cs) && decide (s.popAt .w64 2 = .ok image)

theorem witness_Iret_kernel_to_user : let s := kernel (frame8 0x2B 0x23 2)
    headIs s 0x2B 0x202 = true ∧ bit s.rflags 14 = false ∧ inTable s 0x2B = true ∧ descriptorAt s 0x2B = .ok 0x0020FA0000000000 ∧
    codeDescriptorOk 0x2B 0x0020FA0000000000 3 = true ∧ legalFarTarget s true 0x200 = some 0x200 ∧
    s.popAt .w64 3 = .ok 0x7000 ∧ s.popAt .w64 4 = .ok 0x23 ∧ s.ss.dpl = 0 ∧ bit s.cr4 32 = false ∧ inTable s 0x23 = true ∧
    descriptorAt s 0x23 = .ok 0x0000F20000000000 ∧ (0x0000F20000000000 : Word).extractLsb' 45 2 = (0x2B : Half).setWidth 2 ∧
    (0x0000F20000000000 : Word).getLsbD 44 = true ∧ (0x0000F20000000000 : Word).getLsbD 47 = true ∧
    bit ({ s with cr4 := 0x100000020 } : State).cr4 32 = true := by decide +kernel

theorem witness_Iret_kernel_null_ss : let s := kernel (frame8 8 0 2)
    headIs s 8 0x202 = true ∧ inTable s 8 = true ∧ descriptorAt s 8 = .ok 0x00209A0000000000 ∧
    codeDescriptorOk 8 0x00209A0000000000 0 = true ∧ (0x202 : Word) &&& 0x183000 = 0 ∧ (8 : Half).toNat % 4 ≠ 3 ∧ s.popAt .w64 3 = .ok 0x7000 ∧
    s.popAt .w64 4 = .ok 0 ∧ s.ss.dpl = 0 ∧ (0x00209A0000000000 : Word).getLsbD 53 = true := by decide +kernel

theorem witness_Iret_same_ring_compat : let s := compat (codeCells ++ [(0x9001, 2), (0x9004, 0x1B), (0x9008, 2)])
    s.popAt .w32 0 = .ok 0x200 ∧ s.popAt .w32 1 = .ok 0x1B ∧ s.popAt .w32 2 = .ok 2 ∧ s.cs.l = false ∧
    s.opSize {} = .w32 ∧ s.ss.dpl = (0x1B : Half).setWidth 2 ∧ inTable s 0x1B = true ∧
    descriptorAt s 0x1B = .ok 0x0040FA0000000000 ∧ codeDescriptorOk 0x1B 0x0040FA0000000000 3 = true ∧
    legalFarTarget s false 0x200 = some 0x200 := by decide +kernel

theorem witness_Iret_faults : let s := user (frame8 8 0 2)
    headIs s 8 0x202 = true ∧ s.ss.dpl = 3 ∧ bit s.rflags 14 = false ∧ inTable s 8 = true ∧ descriptorAt s 8 = .ok 0x00209A0000000000 ∧
    codeDescriptorOk 8 0x00209A0000000000 0 = true ∧ bit (s.setRflags 0x4002).rflags 14 = true ∧
    headIs (user (frame8 8 0 0x30)) 8 0x3002 = true ∧ headIs (kernel (frame8 8 0 0x30)) 8 0x3002 = true ∧ (0x3002 : Word) &&& 0x183000 ≠ 0 := by decide +kernel

theorem witness_Iret_refused :
    headIs (kernel (frame8 0 0x23 2)) 0 0x202 = true ∧ headIs (user (frame8 3 0x23 2)) 3 0x202 = true ∧
    headIs (kernel (frame8 4 0x23 2)) 4 0x202 = true ∧ headIs (user (frame8 0x63 0x23 2)) 0x63 0x202 = true ∧
    inTable (user (frame8 0x63 0x23 2)) 0x63 = false ∧
    (let s := user (frame8 0x23 0x23 2)
     headIs s 0x23 0x202 = true ∧ inTable s 0x23 = true ∧ descriptorAt s 0x23 = .ok 0x0000F20000000000 ∧
     codeDescriptorOk 0x23 0x0000F20000000000 3 = false) ∧
    ([3, 4, 0x63].all fun ss => decide ((kernel (frame8 0x2B ss 2)).popAt .w64 4 = .ok (ss.setWidth 64))) = true ∧
    inTable (kernel (frame8 0x2B 0x63 2)) 0x63 = false ∧
    (let s := kernel (frame8 0x2B 0x20 2)
     s.popAt .w64 4 = .ok 0x20 ∧ inTable s 0x20 = true ∧ descriptorAt s 0x20 = .ok 0x0000F20000000000 ∧
     iretStackDescriptorOk 0x2B 0x20 0x0000F20000000000 = false ∧ iretStackDescriptorOk 0x2B 0x23 0x0000F20000000000 = true) := by
  decide +kernel

/-- The frame's RIP is not canonical. -/
theorem witness_Iret_rip :
    let s := kernel (codeCells ++ [(0x9006, 1), (0x9008, 0x2B), (0x9010, 2), (0x9019, 0x70), (0x9020, 0x23)])
    s.popAt .w64 0 = .ok 0x0001000000000000 ∧ s.popAt .w64 1 = .ok 0x2B ∧ s.popAt .w64 2 = .ok 2 ∧ s.popAt .w64 3 = .ok 0x7000 ∧
    s.popAt .w64 4 = .ok 0x23 ∧ descriptorAt s 0x2B = .ok 0x0020FA0000000000 ∧ codeDescriptorOk 0x2B 0x0020FA0000000000 3 = true ∧
    descriptorAt s 0x23 = .ok 0x0000F20000000000 ∧ legalFarTarget s true 0x0001000000000000 = none := by decide +kernel

/-! ### Events -/

/-- The gate of vector `v`, with byte 5 `access` (0xEE: present, DPL 3, interrupt gate) and IST byte `ist`. -/
def gateCells (v : Nat) (access ist : Byte) : List Host.Cell :=
  pageCells ++ [(0x200D, 0x9A), (0x200E, 0x20), (0x3005, 0xA0), (0x3025, 0xB0), (0x4001 + 16 * v, 0x53), (0x4002 + 16 * v, 8)] ++
  (if ist = 0 then [] else [(0x4004 + 16 * v, ist)]) ++ [(0x4005 + 16 * v, access)]

theorem witness_DeliveryFrame :
    (user (gateCells 3 0xEE 0)).memWf = true ∧ planned (user (gateCells 3 0xEE 0)) ⟨3, .softInt, false, none, 0⟩ = true ∧
    (user (gateCells 3 0xEE 0)).eventExits ⟨3, .softInt, false, none, 0⟩ true = false ∧
    planned (kernel (gateCells 13 0x8F 1)) ⟨13, .exception, false, some 0, 0⟩ = true := by decide +kernel

theorem witness_GateChecks :
    ({ user [] with idtr := ⟨0x4000, 62⟩ } : State).idtr.limit.toNat < (3 : BitVec 8).toNat * 16 + 15 ∧
    (3 : BitVec 8).toNat * 16 + 15 ≤ ({ user [] with idtr := ⟨0x4000, 63⟩ } : State).idtr.limit.toNat ∧
    ((user (gateCells 3 0x8D 0)).supReadBytes 0x4030 16).map (fun bs => (leWord (bs.take 8)).extractLsb' 40 4) = .ok 13 ∧
    ((user (gateCells 3 0xFE 0)).supReadBytes 0x4030 16).map (fun bs => (leWord (bs.take 8)).getLsbD 44) = .ok true ∧
    ((user (gateCells 3 0x8E 0)).supReadBytes 0x4030 16).map (fun bs =>
      let lo := leWord (bs.take 8)
      (lo.extractLsb' 40 4, lo.getLsbD 44, decide ((lo.extractLsb' 45 2).toNat < (user []).ss.dpl.toNat))) = .ok (14, false, true) ∧
    ((user (gateCells 3 0x6F 0)).supReadBytes 0x4030 16).map (fun bs =>
      let lo := leWord (bs.take 8)
      (lo.extractLsb' 40 4, lo.getLsbD 44, decide ((user []).ss.dpl.toNat ≤ (lo.extractLsb' 45 2).toNat), lo.getLsbD 47)) =
        .ok (15, false, true, false) ∧
    planned (user (gateCells 3 0xEE 0)) ⟨3, .softInt, false, none, 0⟩ = true ∧
    planned (user (gateCells 3 0xEE 1)) ⟨3, .external, true, none, 0⟩ = true ∧
    planned (kernel (gateCells 3 0xEE 0)) ⟨3, .softInt, false, none, 0⟩ = true := by decide +kernel

/-- The later checks of a delivery: a NULL handler selector, one beyond the table, a data segment, a TSS that ends inside RSP0, stack
pointers and handlers that are not canonical. -/
theorem witness_GateChecks_later :
    let e : Event := ⟨3, .softInt, false, none, 0⟩
    let gate := fun (sel : Byte) => user (pageCells ++ [(0x200D, 0x9A), (0x200E, 0x20), (0x2015, 0x92), (0x3005, 0xA0), (0x4031, 0x53)] ++
      (if sel = 0 then [] else [(0x4032, sel)]) ++ [(0x4035, 0xEE)])
    (gate 0).plan e = .error (.exc (excGp 0)) ∧ (gate 3).plan e = .error (.exc (excGp 0)) ∧
    (gate 4).plan e = .error (.exc (excGp 4)) ∧ (gate 0x63).plan e = .error (.exc (excGp 0x60)) ∧
    (gate 0x10).plan e = .error (.exc (excGp 0x10)) ∧
    ({ gate 8 with tr := ⟨0x40, 0x3000, 10⟩ } : State).plan e = .error (.exc (excTs 0x40)) ∧
    ((kernel (gateCells 3 0xEE 0)).setReg .rsp 0x0001000000000000).plan e = .error (.exc (excGp 0)) ∧
    (user (gateCells 3 0xEE 0 ++ [(0x4038, 1)])).plan ⟨3, .external, true, none, 0⟩ ≠ .error (.exc (excGp 1)) ∧
    (user (gateCells 3 0xEE 0 ++ [(0x403A, 1)])).plan ⟨3, .external, true, none, 0⟩ = .error (.exc (excGp 1)) := by decide +kernel

/-- Ring 3 with CET on, a supervisor shadow stack of which the free token lies at 0x40007000 (the second gigabyte maps the first,
read-only and dirty), and no user shadow stack. -/
def shadowed (token : Word) : State :=
  { user (pageCells ++ [(0x1008, 0xC1), (0x200D, 0x9A), (0x200E, 0x20), (0x3005, 0xA0), (0x4031, 0x53), (0x4032, 8), (0x4035, 0xEE),
      (0x7001, 0x70), (0x7003, 0x40)]) with
    cr4 := 0x800020, cet := { State.reset.cet with sCet := 1, pl0Ssp := token } }

theorem witness_DeliveryShadowStack : bit (shadowed 0x40007000).cr4 32 = false ∧ bit (shadowed 0x40007000).cr4 23 = true ∧
    bit (shadowed 0x40007000).cet.sCet 0 = true ∧ (shadowed 0x40007000).ss.dpl = 3 ∧
    (match (shadowed 0x40007000).deliverOnce ⟨3, .softInt, false, none, 0⟩ with
      | .ok t => t.cet.ssp == 0x40007000 && t.byteAt 0x7000 == 1
      | _ => false) = true ∧
    ((shadowed 0x40007004).plan ⟨3, .softInt, false, none, 0⟩).map (fun p => p.newSsp.toNat % 8) = .ok 4 ∧
    bit (shadowed 0x40007000).cet.uCet 0 = false ∧
    (match ({ shadowed 0x40007000 with cet := { (shadowed 0x40007000).cet with uCet := 1 } } : State).deliverOnce
        ⟨3, .softInt, false, none, 0⟩ with
      | .ok t => isCanonical (bit t.cr4 12) t.cet.pl3Ssp
      | _ => false) = true := by decide +kernel

/-- Within ring 0 the shadow stack at 0x40007100 takes CS, RIP and the old SSP; with an IST entry the new one's token is taken first. -/
theorem witness_DeliveryShadowStack_intra :
    let s := { kernel (pageCells ++ [(0x1008, 0xC1), (0x200D, 0x9A), (0x200E, 0x20), (0x3025, 0xB0), (0x4031, 0x53), (0x4032, 8), (0x4034, 1),
        (0x4035, 0xEE), (0x4041, 0x53), (0x4042, 8), (0x4045, 0xEE), (0x6009, 0x72), (0x600B, 0x40), (0x7201, 0x72), (0x7203, 0x40)]) with
      cr4 := 0x800020, cet := { State.reset.cet with sCet := 1, ssp := 0x40007100, intSspTable := 0x6000 } }
    s.ss.dpl = 0 ∧
    (match s.deliverOnce ⟨4, .softInt, false, none, 0x1234⟩ with
      | .ok t => t.cet.ssp == 0x400070E8 && quad 0x70F8 t == 8 && quad 0x70F0 t == 0x1234 && quad 0x70E8 t == 0x40007100
      | _ => false) = true ∧
    (match s.deliverOnce ⟨3, .softInt, false, none, 0x1234⟩ with
      | .ok t => t.cet.ssp == 0x400071E8 && quad 0x7200 t == 0x40007201 && quad 0x71E8 t == 0x40007100
      | _ => false) = true := by decide +kernel

theorem witness_SoftwareInterrupts :
    (user (gateCells 255 0xEE 0)).memWf = true ∧ planned (user (gateCells 255 0xEE 0)) ⟨255, .softInt, false, none, 0x10002⟩ = true ∧
    (user (gateCells 3 0xEE 0)).nonRoot = false ∧ planned (user (gateCells 3 0xEE 0)) ⟨3, .softInt, false, none, 0x10002⟩ = true ∧
    bit ((compat (gateCells 4 0xEE 0)).setRflags 0x802).rflags 11 = true ∧ (compat (gateCells 4 0xEE 0)).cs.l = false ∧
    planned ((compat (gateCells 4 0xEE 0)).setRflags 0x802) ⟨4, .softInt, false, none, 0x10002⟩ = true ∧
    bit (compat []).rflags 11 = false ∧
    planned (user (gateCells 1 0x8E 0)) ⟨1, .int1, true, none, 0x10002⟩ = true := by decide +kernel

theorem witness_RemovedFormsAndInstructions_handler : (kernel (gateCells 6 0x8E 0)).memWf = true ∧ (kernel (gateCells 6 0x8E 0)).nonRoot = false ∧
    planned (kernel (gateCells 6 0x8E 0)) ⟨6, .exception, false, none, 0x10000⟩ = true := by decide +kernel

theorem witness_FaultsArePrecise : (user (gateCells 14 0x8E 0)).memWf = true ∧ (user (gateCells 14 0x8E 0)).nonRoot = false ∧
    planned ((user (gateCells 14 0x8E 0)).noteCr2 (excPf 0x12345678 4)) ⟨14, .exception, false, some 4, 0x10000⟩ = true := by
  decide +kernel

theorem witness_NestedFaults : ({ user [] with idtr := ⟨0, 142⟩ } : State).idtr.limit.toNat < 143 ∧ (user []).nonRoot = false ∧
    bit (user []).cr4 32 = false ∧
    (8 : BitVec 8).toNat * 16 + 15 > ({ user [] with idtr := ⟨0, 142⟩ } : State).idtr.limit.toNat := by decide +kernel

/-- INT3 whose gate is not present: #GP is delivered instead, with EXT = 0; #GP whose gate is not present: #DF; #DF: shutdown. -/
theorem witness_NestedFaults_nested :
    (let s := user (pageCells ++ [(0x200D, 0x9A), (0x200E, 0x20), (0x3005, 0xA0), (0x4031, 0x53), (0x4032, 8), (0x4035, 0x6E), (0x40D1, 0x53),
       (0x40D2, 8), (0x40D5, 0x8E)])
     s.memWf = true ∧ s.plan ⟨3, .softInt, false, none, 0x10002⟩ = .error (.exc (excGp 26)) ∧
     planned s ⟨13, .exception, false, some 26, 0x10000⟩ = true ∧ ran .int3 s (fun t => (t.rip, quad 0x9FD0 t)) = some (0x5300, 26)) ∧
    (let s := user (pageCells ++ [(0x200D, 0x9A), (0x200E, 0x20), (0x3005, 0xA0), (0x4081, 0x53), (0x4082, 8), (0x4085, 0x8E)])
     s.memWf = true ∧ s.plan ⟨13, .exception, false, some 0, 0x10000⟩ = .error (.exc (excGp 106)) ∧
     planned s ⟨8, .exception, true, some 0, 0x10000⟩ = true ∧
     nextHas (s.takeException (excGp 0)) (fun t => t.rip == 0x5300 && quad 0x9FD0 t == 0) = true) ∧
    (let s := user pageCells
     s.plan ⟨8, .exception, true, some 0, 0x10000⟩ = .error (.exc (excGp 67)) ∧
     nextHas (s.deliver ⟨8, .exception, true, some 0, 0x10000⟩ true) (fun t => decide (t.activity = .shutdown .tripleFault)) = true) := by
  decide +kernel

/-- R475: a debug trap that MOV SS held off stays pending over INT3, which is no single step either. -/
theorem test_heldTrap :
    let s := { user (gateCells 3 0xEE 0 ++ [(0x10000, 0xCC)]) with dbPending := true, movSsBlocked := true, rflags := 0x102 }
    nextHas (step s) (fun t => t.rip == 0x5300 && t.dbPending) = true ∧
    nextHas (step { s with dbPending := false }) (fun t => t.rip == 0x5300 && !t.dbPending) = true := by decide +kernel

/-- R415, R416: LOCK CPUID raises #GP(0), LOCK LMSW #UD. -/
theorem witness_StepRunsDecoded_lock :
    (let s := compat (gateCells 13 0x8E 0 ++ [(0x10000, 0xF0), (0x10001, 0x0F), (0x10002, 0xA2)])
     s.due = none ∧ s.activity = .running ∧ decode s.cs.l s.fetch.1 = .error .lockMisuse ∧
     nextHas (step s) (fun t => t.rip == 0x5300 && quad 0x9FD0 t == 0) = true) ∧
    (let s := compat (gateCells 6 0x8E 0 ++ [(0x10000, 0xF0), (0x10001, 0x0F), (0x10002, 0x01), (0x10003, 0xF0)])
     s.due = none ∧ s.activity = .running ∧ decode s.cs.l s.fetch.1 = .error .invalid ∧
     nextHas (step s) (fun t => t.rip == 0x5300) = true) := by decide +kernel

theorem witness_DecodeWords_lock :
    decode true [0x0F, 0xA2] = .ok (.cpuid, 2) ∧ udAtDecode true .cpuid = false ∧
    decode false [0x66, 0xEB, 0x00] = .ok (.jmpRel8 { osz := true } 0, 3) ∧ udAtDecode false (.jmpRel8 { osz := true } 0) = true ∧
    decode true [0xF0, 0xF4] = .error .lockMisuse ∧ decode false [0x67, 0xF0, 0x8B, 0x07] = .error .lockMisuse := by decide +kernel

/-- R176, R422: ADD m, imm32, MOV AL, moffs and VPSHUFD with 0x67 take their immediate and offset before the fault. -/
theorem test_immediate16 :
    decode false [0x67, 0x81, 0x07, 1, 2, 3] = .error .truncated ∧ decode false [0x67, 0x81, 0x07, 1, 2, 3, 4] = .error (.addr16 .integer) ∧
    decode false [0x67, 0xA0, 1] = .error .truncated ∧ decode false [0x67, 0xA0, 1, 2] = .error (.addr16 .integer) ∧
    decode false [0x67, 0x62, 0xF1, 0x7D, 0x48, 0x70, 0x07] = .error .truncated ∧
    decode false [0x67, 0x62, 0xF1, 0x7D, 0x48, 0x70, 0x07, 0] = .error (.addr16 .evex) := by decide +kernel

/-- R151, R176: VADDPS with the opmask k1 and 0x67 in compatibility mode: #GP(0) where an element is active. -/
theorem test_opmask16 :
    let s := fun (k : Word) => { compat (gateCells 13 0x8E 0 ++ [(0x10000, 0x67), (0x10001, 0x62), (0x10002, 0xF1), (0x10003, 0x74), (0x10004, 0x49),
      (0x10005, 0x58), (0x10006, 0x07)]) with cr4 := 0x40020, xcr0 := 0xE7, fpu := { State.reset.fpu with opmask := [0, k, 0, 0, 0, 0, 0, 0] } }
    nextHas (step (s 0x8000)) (fun t => t.rip == 0x5300 && quad 0x9FD0 t == 0) = true ∧
    (refusal (step (s 0xFFFFFFFFFFFF0000))).isSome = true := by decide +kernel

theorem witness_InterruptsAreTaken :
    let s := { user [] with pending := { Pending.none with intr := some 0x20 }, rflags := 0x202, cr8 := 1 }
    s.activity = .running ∧ bit s.rflags 9 = true ∧ s.movSsBlocked = false ∧ s.stiBlocked = false ∧ s.dbPending = false ∧ s.bpHits = 0 ∧
    (s.cr8 &&& 0xF).toNat < (0x20 : BitVec 8).toNat / 16 ∧ (0x20 : BitVec 8).toNat / 16 ≤ (s.setCr8 2).cr8.toNat % 16 ∧
    s.nmiBlocked = false ∧ s.smx.maskNmi = false ∧ (s.setNmiBlocked true).nmiBlocked = true ∧ bit (user []).rflags 9 = false ∧
    s.codeHits = 0 ∧ ({ s with activity := .halted } : State).activity = .halted ∧ (s.setDbPending true).dbPending = true ∧
    (s.setBpHits 1).bpHits ≠ 0 := by decide +kernel

/-- An NMI that waits is taken; a blocked one stays; a debug trap comes before it. -/
theorem witness_InterruptsAreTaken_nmi :
    let s := { user (gateCells 2 0x8E 0) with pending := { Pending.none with nmi := true } }
    s.activity = .running ∧ s.dbPending = false ∧ s.bpHits = 0 ∧ s.nmiBlocked = false ∧ s.movSsBlocked = false ∧ s.smx.maskNmi = false ∧
    nextHas (step s) (fun t => t.rip == 0x5300 && t.nmiBlocked && !t.pending.nmi) = true ∧
    (s.setNmiBlocked true).codeHits = 0 ∧ (s.setNmiBlocked true).due = none ∧ (s.setDbPending true).due = some .trap := by decide +kernel

theorem witness_AlignmentCheck :
    let s := { (user (pageCells ++ [(0x9000, 0x40)])).setReg .rbx 0x6001 with cr0 := 0x80050033, rflags := 0x40002 }
    s.ss.dpl = 3 ∧ bit s.cr0 18 = true ∧ bit s.rflags 18 = true ∧ isCanonical (bit s.cr4 12) (s.linAddr {} atRbx) = true ∧
    (s.linAddr {} atRbx).toNat % 2 ≠ 0 ∧ s.cs.l = true ∧ ((s.setReg .rsp 0x9004).reg .rsp).toNat % 8 ≠ 0 ∧
    isCanonical (bit s.cr4 12) ((s.setReg .rsp 0x9004).reg .rsp) = true ∧
    s.memRead 0x6001 2 = .error (.exc excAc) ∧ s.memWrite 0x6002 4 5 = .error (.exc excAc) ∧
    (s.setRflags 2).memRead 0x40000001 2 = .error (.exc (excPf 0x40000001 4)) ∧
    s.supReadBytes 0x40000001 2 = .error (.exc (excPf 0x40000001 0)) ∧
    s.supWrite 0x40000001 2 0 = .error (.exc (excPf 0x40000001 2)) := by decide +kernel

/-- HLT at RIP. -/
def halting (s : List Host.Cell → State) (mem : List Host.Cell) : State := s (mem ++ [(0x10000, 0xF4)])

theorem witness_HaltDebugMachineCheck_halt :
    (halting kernel pageCells).due = none ∧ (halting kernel pageCells).activity = .running ∧ (halting kernel pageCells).cs.l = true ∧
    (halting kernel pageCells).fetch.1 = 0xF4 :: List.replicate 14 0 ∧ (halting kernel pageCells).ss.dpl = 0 ∧
    nextHas (step (halting kernel pageCells)) (fun t => t.rip == 0x10001 && decide (t.activity = .halted)) = true ∧
    (halting user pageCells).fetch.1 = 0xF4 :: List.replicate 14 0 ∧ (halting user pageCells).ss.dpl ≠ 0 ∧
    (halting user pageCells).due = none ∧
    (({ user [] with activity := .halted } : State)).due = none ∧ (({ user [] with activity := .halted } : State)).activity ≠ .running := by
  decide +kernel

theorem witness_HaltDebugMachineCheck_debug :
    let s := { user (gateCells 1 0x8E 0) with dbPending := true, bpHits := 1 }
    let u := { s with dbPending := false, bpHits := 0, dbg := { s.dbg with dr6 := 0xFFFF4FF1 } }
    s.due = some .trap ∧ s.memWf = true ∧ s.nonRoot = false ∧ planned u ⟨1, .exception, false, none, 0x10000⟩ = true ∧
    nextHas (step s) (fun t => t.rip == 0x5300 && t.dbg.dr6 == 0xFFFF4FF1) = true ∧
    (let b := { user (gateCells 1 0x8E 0) with dbg := ⟨0x10000, 0, 0, 0, 0xFFFF0FF0, 0x401⟩ }
     b.pending = Pending.none ∧ b.activity = .running ∧ b.dbPending = false ∧ b.bpHits = 0 ∧ bit b.rflags 16 = false ∧
     b.movSsBlocked = false ∧ b.dbg.dr7 &&& 3 ≠ 0 ∧ b.dbg.dr7.extractLsb' 16 2 = 0 ∧ b.dbg.dr0 = b.rip ∧ b.due = some .codeBreak ∧
     planned { b with dbg := { b.dbg with dr6 := 0xFFFF0FF1 } } ⟨1, .exception, false, none, 0x10000⟩ = true ∧
     nextHas (step b) (fun t => t.rip == 0x5300 && t.dbg.dr6 == 0xFFFF0FF1) = true) := by decide +kernel

theorem witness_HaltDebugMachineCheck_check :
    let s := { user (gateCells 18 0x8E 0) with pending := { Pending.none with machineCheck := true }, cr4 := 0x60 }
    s.due = some .machineCheck ∧ s.memWf = true ∧ s.nonRoot = false ∧ bit s.cr4 6 = true ∧ bit s.plat.mcgStatus 2 = false ∧
    planned { s with pending := Pending.none, plat := { s.plat with mcgStatus := 4 } } ⟨18, .exception, true, none, 0x10000⟩ = true ∧
    nextHas (step s) (fun t => t.rip == 0x5300 && t.plat.mcgStatus == 4) = true ∧
    ({ s with cr4 := 0x20 } : State).due = some .machineCheck ∧ bit (0x20 : Word) 6 = false := by decide +kernel

theorem witness_HaltDebugMachineCheck_stored :
    let s := { stepping with stored := [0x10000] }
    s.due = none ∧ s.activity = .running ∧ s.cs.l = true ∧ s.linear { user := s.ss.dpl == 3, fetch := true } s.rip = .ok 0x10000 ∧
    0x10000 ∈ s.stored := by decide +kernel

theorem witness_InitState : ({ State.reset with pending := { Pending.none with init := true } } : State).due = some .init ∧
    State.reset.nonRoot = false ∧ bit (State.reset.cnt.perfEvtSel.getD 0 0) 22 = false ∧
    (State.reset.cnt.fixedCtrCtrl >>> (4 * 0)) &&& 3 = 0 ∧ bit State.reset.plat.apicBase 8 = true ∧
    bit (State.resetOf { Config.default with isBsp := false }).plat.apicBase 8 = false := by decide +kernel

/-- An application processor for which a SIPI waits, with an entry structure at 0x8000. -/
def waiting : State :=
  { State.resetOf { Config.default with isBsp := false } with
    pending := { Pending.none with sipi := some 0x10 }, plat := { State.reset.plat with sipiPtr := 0x8001 }
    mem := [(0x8000, 1), (0x8009, 2), (0x8018, 0x23), (0x801B, 0x80), (0x8020, 0x20)] }

theorem witness_SipiStarts : waiting.due = some (.sipi 0x10) ∧ waiting.activity = .waitForSipi ∧ bit waiting.plat.sipiPtr 0 = true ∧
    0x8000 = (waiting.plat.sipiPtr.toNat % 2 ^ waiting.cfg.maxPA) / 4096 * 4096 ∧ tdxPrivate waiting.cfg 0x8000 = false ∧
    waiting.physRead8 0x8000 = .ok 1 ∧ waiting.physRead8 0x8008 = .ok 0x200 ∧ waiting.physRead8 0x8010 = .ok 0 ∧
    waiting.physRead8 0x8018 = .ok 0x80000023 ∧ waiting.physRead8 0x8020 = .ok 0x20 ∧
    (0x80000023 : Word) &&& ~~~(0x40050008 : Word) ||| 0x10 = 0x80000033 ∧ (0x20 : Word) &&& 0x22 = 0x20 ∧
    waiting.cr4Reserved 0x20 = false ∧ bit (0x20 : Word) 23 = false ∧ bit (0x20 : Word) 17 = false ∧
    isCanonical false 0x200 = true ∧ bit State.reset.plat.sipiPtr 0 = false ∧ State.reset.activity ≠ .waitForSipi ∧
    nextHas (step waiting) (fun t => t.rip == 0x200 && t.reg .r10 == 0x10 && decide (t.activity = .running)) = true := by decide +kernel

/-- FEATURES = 2; a CR4 with PCIDE over a CR3 with bit 3; an entry structure under the first TDX private key. -/
theorem witness_SipiStarts_fails :
    (let s := { waiting with mem := [(0x8000, 2)] }
     s.due = some (.sipi 0x10) ∧ s.physRead8 0x8000 = .ok 2 ∧ (2 : Word) ≠ 1 ∧
     nextHas (step s) (fun t => decide (t.activity = .shutdown .nonTripleFault)) = true) ∧
    (let s := { waiting with mem := [(0x8000, 1), (0x8009, 2), (0x8010, 8), (0x8018, 0x23), (0x801B, 0x80), (0x8020, 0x20), (0x8022, 2)] }
     s.due = some (.sipi 0x10) ∧ s.physRead8 0x8010 = .ok 8 ∧ s.physRead8 0x8020 = .ok 0x20020 ∧ bit (0x20020 : Word) 17 = true ∧
     (8 : Word) &&& 0xFFF ≠ 0 ∧ nextHas (step s) (fun t => decide (t.activity = .shutdown .unbreakable)) = true) ∧
    (let s := { waiting with cfg := { waiting.cfg with keyIdLow := 40 }, plat := { waiting.plat with sipiPtr := 0x10000008001 } }
     s.due = some (.sipi 0x10) ∧ tdxPrivate s.cfg 0x10000008000 = true ∧
     0x10000008000 = (s.plat.sipiPtr.toNat % 2 ^ s.cfg.maxPA) / 4096 * 4096 ∧
     nextHas (step s) (fun t => decide (t.activity = .shutdown .nonTripleFault)) = true) := by decide +kernel

/-! ### System calls, FRED returns, RSM -/

theorem witness_SystemCallsAndReturns :
    let s := withMsrs (kernel [])
    bit s.cr4 32 = false ∧ (s.sys.sysenterCs.setWidth 16 : Half) &&& 0xFFFC ≠ 0 ∧
    (State.reset.sys.sysenterCs.setWidth 16 : Half) &&& 0xFFFC = 0 ∧ s.ss.dpl = 0 ∧ s.reg .r11 &&& 0x183000 = 0 ∧
    (s.setReg .r11 0x1000).reg .r11 &&& 0x183000 ≠ 0 ∧ ({ w := true } : Pfx).w = true ∧ ({} : Pfx).w = false ∧
    isCanonical (bit s.cr4 12) ((s.setReg .rcx 0x00007FFFFFFFFFFF).reg .rcx) = true ∧ isCanonical (bit s.cr4 12) (s.reg .rdx) = true := by
  decide +kernel

theorem witness_SystemCallsAndReturns_faults :
    let s := withMsrs (kernel [])
    (user []).ss.dpl ≠ 0 ∧ bit ({ s with cr4 := 0x100000020 } : State).cr4 32 = true ∧
    (State.reset.sys.sysenterCs.setWidth 16 : Half) &&& 0xFFFC = 0 ∧ (kernel []).ss.dpl = 0 ∧
    isCanonical (bit s.cr4 12) ((s.setReg .rcx 0x0000800000000000).reg .rcx) = false ∧
    isCanonical (bit s.cr4 12) ((s.setReg .rdx 0x0000800000000000).reg .rdx) = false := by decide +kernel

/-- The frame that `fredKernel` finds, with the byte `cs` in the code segment's slot. -/
def fredFrameOf (cs ss flagsHigh : Byte) : Res FredFrame :=
  ({ fredKernel with mem := pageCells ++ [(0x9009, 2), (0x9010, cs), (0x9018, 2), (0x9019, flagsHigh), (0x9021, 0x70), (0x9028, ss)] } :
    State).fredFrame

theorem witness_FredReturns : fredKernel.ss.dpl = 0 ∧ fredKernel.cs.l = true ∧ bit fredKernel.cr4 32 = true ∧
    fredKernel.sys.star.extractLsb' 48 16 = (0x18 : Half) ∧ fredKernel.plat.fredConfig &&& 3 = 0 ∧
    fredFrameOf 0x2B 0x23 2 = .ok ⟨0x200, 0x2B, 0x202, 0x7000, 0x23⟩ ∧ (0x202 : Word) &&& ~~~(0x254FD7 : Word) = 0 ∧
    (0x2B : Half) = (0x18 + 16) ||| 3 ∧ (0x23 : Half) = (0x18 + 8) ||| 3 ∧ isCanonical false 0x200 = true ∧
    fredFrameOf 0x1B 0x23 2 = .ok ⟨0x200, 0x1B, 0x202, 0x7000, 0x23⟩ ∧ (0x1B : Half) = 0x18 ||| 3 ∧
    fredFrameOf 0x2B 0x33 2 = .ok ⟨0x200, 0x2B, 0x202, 0x7000, 0x33⟩ ∧
    fredFrameOf 8 0x23 2 = .ok ⟨0x200, 8, 0x202, 0x7000, 0x23⟩ ∧
    fredFrameOf 0x2B 0x23 0x30 = .ok ⟨0x200, 0x2B, 0x3002, 0x7000, 0x23⟩ ∧ (0x3002 : Word) &&& 0x1A3000 ≠ 0 := by decide +kernel

/-- Frames that ERETU and ERETS refuse: a RIP that is not canonical, a higher stack level; and a processor that has neither instruction
in its mode, at its CPL, or at its stack level. -/
theorem witness_FredReturns_faults :
    (let s : State := { fredKernel with mem := pageCells ++ [(0x9009, 2), (0x900E, 1), (0x9010, 0x2B), (0x9018, 2), (0x9021, 0x70), (0x9028, 0x23)] }
     s.fredFrame = .ok ⟨0x0001000000000200, 0x2B, 2, 0x7000, 0x23⟩ ∧ isCanonical (bit s.cr4 12) 0x0001000000000200 = false) ∧
    (let s : State := { fredKernel with mem := pageCells ++ [(0x9009, 2), (0x9010, 8), (0x9012, 1), (0x9018, 2), (0x9021, 0x70), (0x9028, 0x10)] }
     s.fredFrame = .ok ⟨0x200, 0x10008, 2, 0x7000, 0x10⟩ ∧
     (s.plat.fredConfig &&& 3).toNat < ((0x10008 : Word) >>> 16 &&& 3).toNat ∧ (2 : Word) &&& ~~~(0x254FD7 : Word) = 0) ∧
    (compat []).cs.l = false ∧ bit (kernel []).cr4 32 = false ∧
    (let s : State := { user [] with cr4 := 0x100000020 }
     s.cs.l = true ∧ bit s.cr4 32 = true ∧ s.ss.dpl ≠ 0) ∧
    (let s : State := { fredKernel with plat := { fredKernel.plat with fredConfig := 1 } }
     s.cs.l = true ∧ bit s.cr4 32 = true ∧ s.ss.dpl = 0 ∧ s.plat.fredConfig &&& 3 ≠ 0) := by decide +kernel

/-- In SMM, with CR4 = 0x1002 and a RIP of 33 bits saved, and the mode `l` of the ring `dpl`. -/
def inSmmWith (l : Bool) (dpl : BitVec 2) : State :=
  { State.reset with inSmm := true, smmSave := { State.reset.smmSave with
      cs := ⟨8, l⟩, ss := ⟨0x10, dpl, false⟩, rip := 0x100000200, cr4 := 0x1002 } }

theorem witness_ResumeFromSmm : State.reset.inSmm = false ∧ (inSmmWith true 0).inSmm = true ∧
    ran .rsm (inSmmWith true 0) (fun t => (t.rip, t.cr4, t.cs.l, t.ss.dpl)) = some (0x100000200, 0x1020, true, 0) ∧
    ran .rsm (inSmmWith true 3) (fun t => (t.rip, t.cs.l, t.ss.dpl)) = some (0x100000200, true, 3) ∧
    ran .rsm (inSmmWith false 3) (fun t => (t.rip, t.cs.l, t.ss.dpl)) = some (0x200, false, 3) ∧
    ran .rsm (inSmmWith false 1) (fun t => (t.rip, t.cs.l, t.ss.dpl)) = some (0x100000200, true, 0) := by decide +kernel

/-! ### Segment registers, tables, queries -/

theorem witness_MovToSegment :
    let s := (user codeCells).setReg .rax 0x23
    s.readRM16 {} (.reg .rax) = .ok 0x23 ∧ inTable s 0x23 = true ∧ descriptorAt s 0x23 = .ok 0x0000F20000000000 ∧
    s.ss.dpl.toNat = (0x23 : Half).toNat % 4 ∧ (0x0000F20000000000 : Word).extractLsb' 45 2 = s.ss.dpl ∧
    (0x0000F20000000000 : Word).getLsbD 44 = true ∧ (0x0000F20000000000 : Word).getLsbD 47 = true ∧
    (s.setReg .rax 3).readRM16 {} (.reg .rax) = .ok 3 ∧ (3 : Half).toNat < 4 ∧ (kernel []).ss.dpl = 0 ∧ (kernel []).cs.l = true ∧
    (2 : BitVec 3).toNat ∈ [0, 2, 3, 4, 5] ∧ (6 : BitVec 3).toNat ∉ [0, 2, 3, 4, 5] ∧
    inTable s 0x63 = false ∧ (s.setReg .rax 4).readRM16 {} (.reg .rax) = .ok 4 ∧
    (s.setReg .rax 0x20).readRM16 {} (.reg .rax) = .ok 0x20 ∧ inTable s 0x20 = true ∧ descriptorAt s 0x20 = .ok 0x0000F20000000000 ∧
    ¬s.ss.dpl.toNat ≤ (0x20 : Half).toNat % 4 := by decide +kernel

theorem witness_PushPopSegment_pop :
    let s := compat (codeCells ++ [(0x9000, 0x23)])
    s.popAt (s.stackSize {}) 0 = .ok 0x23 ∧ s.cs.l = false ∧ inTable s 0x23 = true ∧ descriptorAt s 0x23 = .ok 0x0000F20000000000 ∧
    s.ss.dpl.toNat = (0x23 : Half).toNat % 4 ∧ (0x0000F20000000000 : Word).extractLsb' 45 2 = s.ss.dpl ∧
    (0x0000F20000000000 : Word).getLsbD 44 = true ∧ (0x0000F20000000000 : Word).getLsbD 47 = true ∧
    (user pageCells).popAt ((user pageCells).stackSize {}) 0 = .ok 0 := by decide +kernel

/-- Selectors that POP, the far loads and LKGS refuse: of 4 to 7, beyond the table, of ring 0 at CPL 3, of an LDT. -/
theorem witness_PushPopSegment_refused :
    (let s := compat (codeCells ++ [(0x9000, 4)])
     s.popAt (s.stackSize {}) 0 = .ok 4) ∧
    (let s := compat (codeCells ++ [(0x9000, 0x63)])
     s.popAt (s.stackSize {}) 0 = .ok 0x63 ∧ inTable s 0x63 = false) ∧
    (let s := compat (codeCells ++ [(0x9000, 0x20)])
     s.popAt (s.stackSize {}) 0 = .ok 0x20 ∧ inTable s 0x20 = true ∧ descriptorAt s 0x20 = .ok 0x0000F20000000000 ∧
     ¬s.ss.dpl.toNat ≤ (0x20 : Half).toNat % 4) ∧
    (let s := compat codeCells
     s.popAt (s.stackSize {}) 0 = .ok 0 ∧ s.ss.dpl = 3) := by decide +kernel

theorem witness_LoadFarPointers :
    let s := compat (pointer 0x23)
    s.readFarPtr {} atRbx (s.opSize {}) = .ok (0x200, 0x23) ∧ s.cs.l = false ∧ inTable s 0x23 = true ∧
    descriptorAt s 0x23 = .ok 0x0000F20000000000 ∧ s.ss.dpl.toNat = (0x23 : Half).toNat % 4 ∧
    (0x0000F20000000000 : Word).extractLsb' 45 2 = s.ss.dpl ∧
    (0x0000F20000000000 : Word).getLsbD 44 = true ∧ (0x0000F20000000000 : Word).getLsbD 47 = true := by decide +kernel

theorem witness_LoadFarPointers_refused :
    ([4, 7, 0x63, 0].all fun sel => decide ((compat (pointer sel)).readFarPtr {} atRbx .w32 = .ok (0x200, sel.setWidth 16))) = true ∧
    inTable (compat (pointer 0x63)) 0x63 = false ∧
    (let s := compat (pointer 0x20)
     s.readFarPtr {} atRbx .w32 = .ok (0x200, 0x20) ∧ inTable s 0x20 = true ∧ descriptorAt s 0x20 = .ok 0x0000F20000000000 ∧
     ¬s.ss.dpl.toNat ≤ (0x20 : Half).toNat % 4) := by decide +kernel

theorem witness_SegmentBases : (kernel []).cs.l = true ∧ (kernel []).ss.dpl = 0 ∧ (kernel []).readRM16 {} (.reg .rax) = .ok 0 ∧
    (user []).ss.dpl ≠ 0 ∧ (compat []).cs.l = false ∧ bit (kernel []).cr4 32 = false ∧ bit fsgs.cr4 16 = true ∧ fsgs.cs.l = true ∧
    isCanonical (bit fsgs.cr4 12) (regWritten 0 8 ((fsgs.setReg .rax 0x00007FFFFFFFFFFF).reg .rax)) = true ∧
    isCanonical (bit fsgs.cr4 12) (regWritten 0 8 ((fsgs.setReg .rax 0x0000800000000000).reg .rax)) = false := by decide +kernel

theorem witness_SegmentBases_faults :
    let s := kernel (pageCells ++ gdtCells)
    (s.setReg .rax 4).readRM16 {} (.reg .rax) = .ok 4 ∧ (s.setReg .rax 0x63).readRM16 {} (.reg .rax) = .ok 0x63 ∧ inTable s 0x63 = false ∧
    (s.setReg .rax 0x30).readRM16 {} (.reg .rax) = .ok 0x30 ∧ inTable s 0x30 = true ∧ descriptorAt s 0x30 = .ok 0x0000820000000000 ∧
    (0x0000820000000000 : Word).getLsbD 44 = false ∧ bit ({ s with cr4 := 0x100000020 } : State).cr4 32 = true ∧
    (user []).cs.l = true ∧ (user []).ss.dpl ≠ 0 ∧ bit (user []).cr4 32 = false ∧ bit (user []).cr4 16 = false := by decide +kernel

theorem witness_MovFromSegment : (5 : BitVec 3).toNat ≤ 5 ∧ 6 ≤ (6 : BitVec 3).toNat ∧ (user pageCells).memWf = true ∧
    (user pageCells).accessPas { (user pageCells).dataAccess with write := true } ((user pageCells).linAddr {} atRbx) 2 2 =
      .ok [0x6000, 0x6001] := by decide +kernel

theorem witness_PushPopSegment : (compat pageCells).memWf = true ∧ (compat pageCells).cs.l = false ∧
    (compat pageCells).pushPas (compat pageCells).dataAccess false (compat pageCells).sp (stackBytes (compat pageCells) {}) 1 =
      .ok (span 0x8FFC 4) ∧
    (user pageCells).pushPas (user pageCells).dataAccess true (user pageCells).sp (stackBytes (user pageCells) { osz := true }) 1 =
      .ok (span 0x8FFE 2) := by decide +kernel

theorem witness_StoreTables : (user pageCells).ss.dpl = 3 ∧ bit (user pageCells).cr4 11 = false ∧ (user pageCells).memWf = true ∧
    (user pageCells).accessPas { (user pageCells).dataAccess with write := true } ((user pageCells).linAddr {} atRbx) 10 2 =
      .ok (span 0x6000 10) ∧
    (compat pageCells).accessPas { (compat pageCells).dataAccess with write := true } ((compat pageCells).linAddr {} atRbx) 6 2 =
      .ok (span 0x6000 6) ∧
    (user pageCells).accessPas { (user pageCells).dataAccess with write := true } ((user pageCells).linAddr {} atRbx) 2 2 =
      .ok (span 0x6000 2) ∧
    bit ({ user [] with cr4 := 0x820 } : State).cr4 11 = true := by decide +kernel

theorem witness_LoadTables :
    let s := kernel (pageCells ++ [(0x6000, 0x7F), (0x6003, 0x20)])
    s.ss.dpl = 0 ∧ s.cs.l = true ∧ s.memRead (s.linAddr {} atRbx) 2 = .ok 0x7F ∧
    s.memRead (s.linAddr {} atRbx + 2) 8 = .ok 0x2000 ∧ isCanonical (bit s.cr4 12) 0x2000 = true ∧
    (kernel (pageCells ++ [(0x6008, 1)])).memRead (s.linAddr {} atRbx + 2) 8 = .ok 0x0001000000000000 ∧
    (kernel (pageCells ++ [(0x6008, 1)])).memRead (s.linAddr {} atRbx) 2 = .ok 0 ∧
    isCanonical (bit s.cr4 12) 0x0001000000000000 = false ∧ (user []).ss.dpl ≠ 0 := by decide +kernel

/-- An LDT's descriptor at 0x50, byte-granular, and a TSS's at 0x40, page-granular; both end within the limit 0x5F. -/
def systemCells : List Host.Cell :=
  pageCells ++ [(0x2040, 0x67), (0x2043, 0x30), (0x2045, 0x89), (0x2046, 0x80), (0x2050, 0xFF), (0x2055, 0x82)]

theorem witness_LoadSystemSegments :
    let s := (kernel systemCells).setReg .rax 0x50
    s.ss.dpl = 0 ∧ s.readRM16 {} (.reg .rax) = .ok 0x50 ∧ (0x50 : Half).toNat / 8 * 8 + 15 ≤ s.gdtr.limit.toNat ∧
    s.loadSysDescriptor 0x50 = .ok (0x00008200000000FF, 0) ∧ (0x00008200000000FF : Word).extractLsb' 40 4 = 2 ∧
    (0x00008200000000FF : Word).getLsbD 44 = false ∧ (0x00008200000000FF : Word).getLsbD 47 = true ∧
    (0 : Word).extractLsb' 40 5 = 0 ∧ s.gdtr.limit.toNat < (0x58 : Half).toNat / 8 * 8 + 15 ∧
    (s.setReg .rax 0x40).readRM16 {} (.reg .rax) = .ok 0x40 ∧ s.loadSysDescriptor 0x40 = .ok (0x0080890030000067, 0) ∧
    (0x0080890030000067 : Word).extractLsb' 40 4 = 9 ∧ (0x0080890030000067 : Word).getLsbD 44 = false ∧
    (0x0080890030000067 : Word).getLsbD 47 = true ∧ isCanonical (bit s.cr4 12) 0x3000 = true ∧
    (s.setReg .rax 3).readRM16 {} (.reg .rax) = .ok 3 ∧ (s.setReg .rax 4).readRM16 {} (.reg .rax) = .ok 4 ∧
    (4 : Half).getLsbD 2 = true := by decide +kernel

/-- Bit 8 of the last doubleword (44): #GP(0x50), to the handler at 0x5300. -/
theorem witness_LoadSystemSegments_reserved :
    let s := (kernel (pageCells ++ [(0x200D, 0x9A), (0x200E, 0x20), (0x2050, 0xFF), (0x2055, 0x82), (0x205D, 1), (0x3005, 0xA0),
      (0x40D1, 0x53), (0x40D2, 8), (0x40D5, 0x8E)])).setReg .rax 0x50
    s.loadSysDescriptor 0x50 = .ok (0x00008200000000FF, 0x0000010000000000) ∧ (0x0000010000000000 : Word).extractLsb' 40 5 ≠ 0 ∧
    ran (.lldt {} (.reg .rax)) s (fun t => (t.rip, quad 0x8FD0 t)) = some (0x5300, 0x50) := by decide +kernel

theorem witness_SelectorQueries :
    let s := (user codeCells).setReg .rax 0x23
    s.readRM16 {} (.reg .rax) = .ok 0x23 ∧ inTable s 0x23 = true ∧ descriptorAt s 0x23 = .ok 0x0000F20000000000 ∧
    s.ss.dpl.toNat ≤ (0x23 : Half).toNat % 4 ∧ (0x0000F20000000000 : Word).getLsbD 44 = true ∧
    (0x0000F20000000000 : Word).getLsbD 47 = true ∧ (s.setReg .rax 7).readRM16 {} (.reg .rax) = .ok 7 ∧ inTable s 0x63 = false ∧
    (s.setReg .rax 0x63).readRM16 {} (.reg .rax) = .ok 0x63 ∧ (s.setReg .rax 0x20).readRM16 {} (.reg .rax) = .ok 0x20 ∧
    descriptorAt s 0x20 = .ok 0x0000F20000000000 ∧ ¬s.ss.dpl.toNat ≤ (0x20 : Half).toNat % 4 := by decide +kernel

theorem witness_SelectorQueries_arpl :
    let s := (compat (pageCells ++ [(0x6000, 0x20)])).setReg .rcx 3
    s.cs.l = false ∧ s.memWf = true ∧ (s.setReg .rax 0x23).readRM16 {} (.reg .rax) = .ok 0x23 ∧
    ((s.reg .rcx).setWidth 16 : Half).toNat % 4 ≤ (0x23 : Half).toNat % 4 ∧
    (0x20 : Half).toNat % 4 < ((s.reg .rcx).setWidth 16 : Half).toNat % 4 ∧ s.readRM16 {} (.mem atRbx) = .ok 0x20 ∧
    s.accessPas { s.dataAccess with write := true } (s.linAddr {} atRbx) 2 2 = .ok [0x6000, 0x6001] := by decide +kernel

/-! ### Control registers, MSRs, flags, ports -/

theorem witness_ControlRegisters :
    let s := kernel []
    s.ss.dpl = 0 ∧ s.nonRoot = false ∧ s.vmx = .off ∧ ((0 : BitVec 4) = 0 ∧ (0x80010033 : Word) = s.cr0) ∧
    ((8 : BitVec 4) = 8 ∧ (0 : Word) = s.cr8) ∧ (1 : BitVec 4) ∉ [(0 : BitVec 4), 2, 3, 4, 8] ∧
    (s.setReg .rax 0xC005002B).reg .rax >>> 32 = 0 ∧
    (0xC005002B : Word) &&& 0xA0000027 = 0x80000023 ∧ bit s.cr4 23 = false ∧ (0x100000000 : Word) >>> 32 ≠ 0 ∧
    (0x80000022 : Word) &&& 0xA0000027 ≠ 0x80000023 ∧ (user []).ss.dpl = 3 ∧ bit s.cr4 17 = false ∧
    (0x3FFFFFFFFFFF : Word).toNat < 2 ^ s.cfg.maxPA ∧ 2 ^ s.cfg.maxPA ≤ (0x400000000000 : Word).toNat ∧
    (0x20020 : Word) &&& 0x22 = 0x20 ∧ s.cr4Reserved 0x20020 = false ∧ bit (0x20020 : Word) 12 = bit s.cr4 12 ∧
    s.cr3 &&& 0xFFF = 0 ∧ bit s.cr0 16 = true ∧ (0x22 : Word) &&& 0x22 ≠ 0x20 ∧ s.cr4Reserved 0x8020 = true ∧
    bit (0x1020 : Word) 12 ≠ bit s.cr4 12 ∧ (15 : Word).toNat < 16 ∧ 16 ≤ (16 : Word).toNat := by decide +kernel

/-- With CR4.CET and CR4.PCIDE: WP = 0 is not written; bit 63 of CR3's value is not stored. -/
theorem witness_ControlRegisters_consistency :
    let s := { kernel (gateCells 13 0x8E 0) with cr4 := 0x820020 }
    bit s.cr4 23 = true ∧ bit (0x80000023 : Word) 16 = false ∧ bit s.cr4 17 = true ∧
    (0x8000000000001001 &&& 0x7FFFFFFFFFFFFFFF : Word).toNat < 2 ^ s.cfg.maxPA ∧
    2 ^ s.cfg.maxPA ≤ (0x8000400000000000 &&& 0x7FFFFFFFFFFFFFFF : Word).toNat ∧
    ran (.movCr3R .rax) (s.setReg .rax 0x8000000000001001) (·.cr3) = some 0x1001 ∧
    ran (.movCr0R .rax) ((kernel (gateCells 13 0x8E 0)).setReg .rax 0x80000023) (·.cr0) = some 0x80000033 ∧
    (s.cr0WriteOk 0x80000023) = false ∧ ({ kernel [] with cr3 := 8 } : State).cr4WriteOk 0x20020 = false ∧
    ({ kernel [] with cr0 := 0x80000033 } : State).cr4WriteOk 0x800020 = false ∧ bit (kernel []).cr4 7 = false := by decide +kernel

theorem witness_ReadWriteMsr :
    let s := (kernel []).setReg .rcx 0x258
    s.ss.dpl = 0 ∧ (s.reg .rcx &&& 0xFFFFFFFF).toNat = 0x258 ∧ s.cfg.x2apicReadable.contains 0x258 = false ∧
    s.cfg.x2apicWritable.contains 0x258 = false ∧ s.cnt.pmc.length ≤ 8 ∧ (user []).ss.dpl = 3 ∧ s.biosDone = false ∧
    (0x901 : Word) ||| 0x400 = 0xD01 ∧ (0x501 : Word) ||| 0x400 ≠ 0xD01 ∧ bit (0x900 : Word) 10 = false ∧ bit (0xD00 : Word) 11 = true ∧
    (0x3FFFFFFFF001 : Word).toNat < 2 ^ s.cfg.maxPA ∧ (0x3FFFFFFFF001 : Word) &&& 0xFFE = 0 ∧
    2 ^ s.cfg.maxPA ≤ (0x400000000000 : Word).toNat ∧ (0x1002 : Word) &&& 0xFFE ≠ 0 ∧
    ({ s with biosDone := true } : State).biosDone = true ∧ bit (0x400 : Word) 10 = true ∧
    isCanonical (bit s.cr4 12) 0x7FFFFFFFFFFC = true ∧ (0x7FFFFFFFFFFC : Word) &&& 3 = 0 ∧
    s.cnt.pmc[7]? = some 0 ∧ bit (s.cnt.perfEvtSel.getD 7 0) 22 = false ∧ s.cnt.fixedCtr[2]? = some 0 ∧
    (s.cnt.fixedCtrCtrl >>> (4 * 2)) &&& 3 = 0 ∧ s.plat.mcCtl[9]? = some 0 ∧ 9 < s.plat.mcCtl.length ∧
    s.cfg.x2apicReadable.contains 0x802 = true ∧ isCanonical (bit s.cr4 12) 0x800000000000 = false ∧ (0x1001 : Word) &&& 3 ≠ 0 := by decide +kernel

theorem witness_ReadWriteMsr_values :
    let s := kernel []
    (bit 0x3FFFFFFFFD00 10 && bit 0x3FFFFFFFFD00 11 && 0x3FFFFFFFFD00 &&& 0x2FF == (0 : Word) && decide ((0x3FFFFFFFFD00 : Word).toNat < 2 ^ s.cfg.maxPA)) = true ∧
    (0xD01 : Word) &&& 0x2FF ≠ 0 ∧ (0x8FF : Word) &&& ~~~(0x8FF : Word) = 0 ∧ (0x806 : Word) &&& 0xFF ∈ [(0 : Word), 1, 4, 5, 6] ∧
    (0x807 : Word) &&& 0xFF ∉ [(0 : Word), 1, 4, 5, 6] ∧ (0xC06 : Word) &&& ~~~(0x8FF : Word) ≠ 0 ∧
    (0xFFFFFFFF : Word) >>> 32 = 0 ∧ (0x100000000 : Word) >>> 32 ≠ 0 ∧ isCanonical (bit s.cr4 12) 0x00007FFFFFFFFFFF = true ∧
    isCanonical (bit s.cr4 12) 0x0000800000000000 = false ∧ (0x1000 : Word) &&& s.cfg.fredConfigReserved = 0 := by decide +kernel

/-- R60, R458: a counter that does not count keeps its value; the x2APIC ID. -/
theorem test_held_msrs :
    ran .rdmsr { (kernel []).setReg .rcx 0xC2 with cnt := { State.reset.cnt with pmc := [1, 2] } } (·.reg .rax) = some 2 ∧
    ran .rdmsr ({ kernel [] with cfg := { Config.default with apicId := 7 } }.setReg .rcx 0x802) (fun t => (t.reg .rax, t.reg .rdx)) =
      some (7, 0) := by decide +kernel

theorem witness_Cpuid : (user []).nonRoot = false ∧ ((user []).setReg .rax 7).reg .rax &&& 0xFFFFFFFF = 7 ∧
    ((user []).setReg .rcx 1).reg .rcx &&& 0xFFFFFFFF = 1 := by decide +kernel

theorem witness_FlagInstructions : (user pageCells).popAt ((user pageCells).stackSize {}) 0 = .ok 0 ∧ (user pageCells).popAt .w16 0 = .ok 0 ∧
    (user pageCells).memWf = true ∧
    (user pageCells).pushPas (user pageCells).dataAccess true (user pageCells).sp (stackBytes (user pageCells) {}) 1 =
      .ok (span 0x8FF8 8) ∧ (kernel []).ss.dpl ≠ 3 ∧ (user []).ss.dpl = 3 := by decide +kernel

theorem witness_Ports : (kernel []).ss.dpl ≠ 3 ∧ (kernel []).nonRoot = false ∧ (user []).ss.dpl = 3 := by decide +kernel

/-! ### VMX and SMX -/

theorem witness_VmEntry :
    let s := { root false with inSeam := true }
    let v := vmcs false
    s.vmx = .root (some v) ∧ s.cs.l = true ∧ s.ss.dpl = 0 ∧
    ¬((v.guest.csAr.getLsbD 13 = false ∧ v.guest.csAr.getLsbD 14 = false) ∨
      (v.guest.csAr.getLsbD 13 = true ∧ v.guest.csAr.getLsbD 14 = true) ∨
      (v.guest.csAr.getLsbD 13 = false ∧ v.guest.ssAr.extractLsb' 5 2 = 0) ∨ v.guest.ssAr.extractLsb' 5 2 = 1 ∨
      v.guest.ssAr.extractLsb' 5 2 = 2 ∨ v.guest.ssSel.setWidth 2 ≠ v.guest.ssAr.extractLsb' 5 2 ∨
      v.guest.csSel.setWidth 2 ≠ v.guest.ssAr.extractLsb' 5 2 ∨ v.guest.trSel.getLsbD 2 = true ∨
      v.guest.ldtrSel.getLsbD 2 = true ∨ isCanonical (bit (guestCr4 s.cfg v.guest.cr4) 12) v.guest.ldtrBase = false ∨
      v.guest.rflags &&& 0x1A3000 ≠ 0) ∧
    guestFlagsOk v.guest.rflags = true ∧ s.guestCrOk v.guest = true ∧ s.guestActivityOk v.guest = true ∧
    v.guest.addressesOk (bit (guestCr4 s.cfg v.guest.cr4) 12) = true ∧ s.ctlOk v.ctl = true ∧ s.hostOk v.host = true ∧
    v.ctl.entryIntrInfo.getLsbD 31 = false ∧ v.ctl.launched = false ∧ (vmcs true).ctl.launched = true ∧ s.inSeam = true := by
  decide +kernel

theorem witness_VmEntryFails : (root false).vmx = .root (some (vmcs false)) ∧ (root false).cs.l = true ∧ (root false).ss.dpl = 0 ∧
    (vmcs false).ctl.launched = false ∧ (vmcs true).ctl.launched = true ∧
    ({ (vmcs false).ctl with hostAddressSpaceSize := false } : VmcsControls).hostAddressSpaceSize = false ∧
    (root false).ctlOk (vmcs false).ctl = true ∧ (root false).hostOk (vmcs false).host = true ∧
    (root false).fixedCrOk hostArea.cr0 0x20 = false ∧ zeroGuest.csAr.getLsbD 13 = false ∧ zeroGuest.csAr.getLsbD 14 = false ∧
    ({ guestArea with activity := 3 } : VmcsGuest).activity = 3 ∧ bit ({ guestArea with cr4 := 0x2000 } : VmcsGuest).cr4 5 = false ∧
    (root false).cfg.vmentryFixedCrFail = true ∧ (root false).fixedCrOk guestArea.cr0 0x20 = false := by decide +kernel

/-- VM entry injects #SS with the error code 0x18 into a guest whose gate of vector 12 leads to 0x5300. -/
theorem witness_EventInjection :
    let v := { vmcs false with
      guest := { guestArea with gdtrBase := 0x2000, gdtrLimit := 0x5F, idtrBase := 0x4000, idtrLimit := 0xFFF }
      ctl := { (vmcs false).ctl with entryIntrInfo := 0x80000B0C, entryErrorCode := 0x18 } }
    let s := { kernel (gateCells 12 0x8E 0) with vmx := .root (some v), cr4 := 0x2020 }
    let u := { guestLoaded s v.guest with vmx := .nonRoot { v with ctl := { v.ctl with launched := true } } }
    s.memWf = true ∧ s.ctlOk v.ctl = true ∧ s.hostOk v.host = true ∧ s.guestOk v.guest = true ∧ v.guest.activity = 0 ∧
    v.ctl.entryIntrInfo.getLsbD 31 = true ∧ v.ctl.entryIntrInfo.extractLsb' 8 3 = 3 ∧ v.ctl.launched = false ∧
    planned u ⟨12, .exception, true, some 0x18, 0x400⟩ = true ∧
    ran .vmlaunch s (fun t => (t.rip, quad 0x6FD0 t, quad 0x6FD8 t)) = some (0x5300, 0x18, 0x400) := by decide +kernel

/-- Software interrupts and exceptions that VM entry injects save the RIP after `length` bytes. -/
def injecting (info length : DWord) (gate : List Host.Cell) : State :=
  { kernel gate with cr4 := 0x2020, vmx := .root (some { vmcs false with
      guest := { guestArea with gdtrBase := 0x2000, gdtrLimit := 0x5F, idtrBase := 0x4000, idtrLimit := 0xFFF }
      ctl := { (vmcs false).ctl with entryIntrInfo := info, entryInstrLen := length } }) }

theorem witness_EventInjection_software :
    ran .vmlaunch (injecting 0x80000480 2 (gateCells 128 0xEE 0)) (fun t => (t.rip, quad 0x6FD8 t)) = some (0x5300, 0x402) ∧
    ran .vmlaunch (injecting 0x80000501 1 (gateCells 1 0x8E 0)) (fun t => (t.rip, quad 0x6FD8 t)) = some (0x5300, 0x401) ∧
    ran .vmlaunch (injecting 0x80000603 15 (gateCells 3 0xEE 0)) (fun t => (t.rip, quad 0x6FD8 t)) = some (0x5300, 0x40F) ∧
    ran .vmlaunch (injecting 0x80000202 0 (gateCells 2 0x8E 0)) (fun t => (t.rip, quad 0x6FD8 t)) = some (0x5300, 0x400) := by decide +kernel

/-- VMX non-root operation with CR4.SMXE. -/
def guest : State := { kernel [] with vmx := .nonRoot (vmcs true), cr4 := 0x6020, pending := { Pending.none with init := true } }

theorem witness_VmExits : guest.vmx = .nonRoot (vmcs true) ∧ bit guest.cr4 14 = true ∧ guest.due = some .init := by decide +kernel

theorem witness_Ports_free : portFree (kernel []) 0xFFFF 4 ∧ portFree guest 0x60 1 := by
  refine ⟨fun v h => ?_, fun v h => ?_⟩
  · cases h
  · cases h; decide +kernel

/-- The guest with a virtual APIC: the APIC-access page at 0x6000, the virtual-APIC page at 0x7000, RBX = `rbx`. -/
def apicGuest (shadow : Bool) (rbx : Word) : State :=
  { kernel (pageCells ++ [(0x7080, 0x50)]) with
    vmx := .nonRoot { vmcs true with ctl := { (vmcs true).ctl with
      virtualizeApicAccesses := true, useTprShadow := shadow, apicAccessAddr := 0x6000, virtualApicAddr := 0x7000 } }
    gpr := { Gprs.zero with rbx := rbx } }

/-- In VMX operation: VMXE, which a write of CR4 in root operation keeps; the TPR shadow of a guest, and a guest without it. -/
theorem witness_ControlRegisters_vmx :
    (root false).nonRoot = false ∧ (root false).ss.dpl = 0 ∧ (root false).vmx ≠ .off ∧ bit (0x2020 : Word) 13 = true ∧
    bit (0x20 : Word) 13 = false ∧ ran (.movCr4R .rax) ((root false).setReg .rax 0x2020) (·.cr4) = some 0x2020 ∧
    (∃ c, (apicGuest true 5).vmx = .nonRoot c ∧ c.ctl.useTprShadow = true) ∧ (apicGuest true 5).memWf = true ∧
    (apicGuest true 5).ss.dpl = 0 ∧ ((apicGuest true 5).setReg .rax 5).reg .rax = 5 ∧
    ran (.movCr8R .rax) ((apicGuest true 5).setReg .rax 5) (fun t => (t.byteAt 0x7080, t.cr8)) = some (0x50, 0) ∧
    (∃ c, (apicGuest false 5).vmx = .nonRoot c ∧ c.ctl.useTprShadow = false) :=
  ⟨by decide +kernel, by decide +kernel, by decide +kernel, by decide, by decide, by decide +kernel, ⟨_, rfl, by decide +kernel⟩,
    by decide +kernel, by decide +kernel, by decide +kernel, by decide +kernel, ⟨_, rfl, by decide +kernel⟩⟩

/-- A guest whose CR0.TS is masked with shadow 1, whose I/O exits and whose #GP, #BP, #OF and #DB exit. -/
def watched : State :=
  { kernel [] with
    cr4 := 0x2020, vmx := .nonRoot { vmcs true with ctl := { (vmcs true).ctl with
      cr0Mask := 8, cr0Shadow := 8, cr4Mask := 0x2000, cr4Shadow := 0x2000, ioExiting := true, exceptionBitmap := 0x201A } } }

/-- The reason and the interruption information of the exit that a step ended with. -/
def exitInfo (t : State) : Option (DWord × DWord) := match t.vmx with
  | .root (some v) => some (v.exit.reason, v.exit.intrInfo)
  | _ => none

theorem witness_GuestExits :
    watched.ss.dpl = 0 ∧ watched.nonRoot = true ∧
    ((0x80010023 : Word) ^^^ 8) &&& 8 ≠ 0 ∧ ((0x8001002B : Word) ^^^ 8) &&& 8 = 0 ∧ ((0x20 : Word) ^^^ 0x2000) &&& 0x2000 ≠ 0 ∧
    ((0x2820 : Word) ^^^ 0x2000) &&& 0x2000 = 0 ∧ ((0x80010033 : Word) &&& 0xA0000027 = 0x80000023) ∧
    watched.cr4WriteOk 0x2820 = true ∧ watched.cr4WriteOk 0x2822 = false ∧
    ran (.movCr0R .rax) (watched.setReg .rax 0x80010023) exitInfo = some (some (28, 0)) ∧
    ran (.movCr0R .rax) (watched.setReg .rax 0x8005002B) (·.cr0) = some 0x80050033 ∧
    ran (.movRCr 0 .rax) watched (·.reg .rax) = some 0x8001003B ∧
    ran (.inAlImm 0x60) watched exitInfo = some (some (30, 0)) ∧ ran .int3 watched exitInfo = some (some (0, 0x80000603)) ∧
    ran .int1 watched exitInfo = some (some (0, 0x80000501)) ∧ ran (.lgdt {} atRbx) ((watched).setSs ⟨0x23, 3, false⟩) exitInfo = some (some (0, 0x80000B0D)) ∧
    (13 : BitVec 8).toNat < 32 ∧ (0x201A : DWord).getLsbD 13 = true := by decide +kernel

/-- The same controls in ring 3, in compatibility mode with OF = 1 and in 64-bit mode: INTO, INT3, INT1, #GP and CPUID exit. -/
theorem witness_GuestExits_ring3 :
    (let s : State := { compat [] with vmx := watched.vmx, rflags := 0x802 }
     s.nonRoot = true ∧ s.ss.dpl = 3 ∧ s.cs.l = false ∧ bit s.rflags 11 = true ∧ s.legalMode = true ∧
     (0x201A : DWord).getLsbD 4 = true ∧ (0x201A : DWord).getLsbD 3 = true ∧ (0x201A : DWord).getLsbD 1 = true ∧
     ran .into s exitInfo = some (some (0, 0x80000604)) ∧ ran .cpuid s exitInfo = some (some (10, 0))) ∧
    (let s : State := { user [] with vmx := watched.vmx }
     s.ss.dpl = 3 ∧ s.legalMode = true ∧ ran .int3 s exitInfo = some (some (0, 0x80000603)) ∧
     ran .int1 s exitInfo = some (some (0, 0x80000501)) ∧ ran (.lgdt {} atRbx) s exitInfo = some (some (0, 0x80000B0D)) ∧
     ran .cpuid s exitInfo = some (some (10, 0))) := by decide +kernel

/-- R374: #GP for want of a gate, in the delivery of #PF, of #DF and of #UD, where the bitmap has #GP, only #DF, and nothing. -/
theorem witness_GuestExits_delivery :
    let s := fun (bitmap : DWord) (cells : List Host.Cell) => ({ kernel cells with vmx := .nonRoot { vmcs true with
      ctl := { (vmcs true).ctl with exceptionBitmap := bitmap } } } : State)
    let pf : Event := ⟨14, .exception, false, some 0, 0x10000⟩
    let df : Event := ⟨8, .exception, true, some 0, 0x10000⟩
    let ud : Event := ⟨6, .exception, false, none, 0x10000⟩
    bit (s 0 pageCells).cr4 32 = false ∧ (s 0 pageCells).plan pf = .error (.exc (excGp 114)) ∧ (s 0 pageCells).plan df = .error (.exc (excGp 67)) ∧
    (excGp 114).vector.toNat < 32 ∧ (0x2000 : DWord).getLsbD 13 = true ∧ (0x100 : DWord).getLsbD 13 = false ∧ (0x100 : DWord).getLsbD 14 = false ∧
    nextHas ((s 0x2000 pageCells).deliver pf true) (fun t => exitInfo t == some (0, 0x80000B0D)) = true ∧
    nextHas ((s 0x2000 pageCells).deliver df true) (fun t => exitInfo t == some (0, 0x80000B0D)) = true ∧
    nextHas ((s 0x100 pageCells).deliver pf true) (fun t => exitInfo t == some (0, 0x80000B08)) = true ∧
    nextHas ((s 0 pageCells).deliver df true) (fun t => exitInfo t == some (2, 0)) = true ∧
    (s 0 (gateCells 13 0x8E 0)).memWf = true ∧ (s 0 (gateCells 13 0x8E 0)).plan ud = .error (.exc (excGp 50)) ∧
    planned (s 0 (gateCells 13 0x8E 0)) ⟨13, .exception, true, some 50, 0x10000⟩ = true ∧
    nextHas ((s 0 (gateCells 13 0x8E 0)).deliver ud true) (fun t => t.rip == 0x5300) = true := by decide +kernel

theorem witness_VmExits_apic :
    (let s := apicGuest false 0x6FFF
     s.cs.l = true ∧ s.ss.dpl = 0 ∧ isCanonical (bit s.cr4 12) (s.linAddr {} atRbx) = true ∧
     s.translate s.dataAccess (s.linAddr {} atRbx) = .ok 0x6FFF ∧ apicVirtualized (vmcs true).ctl s.dataAccess 0xFFF = false ∧
     ran (.verr {} (.mem atRbx)) s exitInfo = some (some (44, 0))) ∧
    (let s := apicGuest true 0x6083
     s.translate s.dataAccess 0x6083 = .ok 0x6083 ∧ s.dataAccess.fetch = false ∧ 12 ≤ s.cfg.maxPA ∧
     (0x7000 : Word).toNat < 2 ^ s.cfg.maxPA ∧ s.linear s.dataAccess 0x6083 = .ok 0x7083 ∧
     ran (.movRCr 8 .rax) s (·.reg .rax) = some 5) ∧
    guest.cs.l = true ∧ (compat []).cs.l = false ∧
    ran .vmlaunch { compat (gateCells 6 0x8E 0) with vmx := .nonRoot (vmcs true) } (fun t => (t.rip, t.nonRoot)) = some (0x5300, true) := by
  decide +kernel

/-- I/O bitmaps at 0x8000 and 0x9000: ports 0x61 and 0x8007 exit. -/
def ioGuest : State :=
  { kernel (pageCells ++ [(0x800C, 2), (0x9000, 0x80)]) with vmx := .nonRoot { vmcs true with ctl := { (vmcs true).ctl with
      ioExiting := true, useIoBitmaps := true, ioBitmapA := 0x8000, ioBitmapB := 0x9000 } } }

theorem witness_GuestExits_ports :
    ran (.inAlImm 0x61) ioGuest exitInfo = some (some (30, 0)) ∧ ran (.inEaxImm {} 0x5E) ioGuest exitInfo = some (some (30, 0)) ∧
    ran (.inAlImm 0x60) ioGuest (·.rip) = some 0x10002 ∧ ran .outDxAl (ioGuest.setReg .rdx 0x8007) exitInfo = some (some (30, 0)) ∧
    ran .outDxAl (ioGuest.setReg .rdx 0xFFFF) (·.rip) = some 0x10002 ∧
    ran (.outDxEax {}) (ioGuest.setReg .rdx 0xFFFF) exitInfo = some (some (30, 0)) := by decide +kernel

/-- A processor that may launch a module of 0x400 bytes at 0x10000, whose state save area is at `ssa` * 64; the signature is the
byte 5 and zeros. -/
def launching (kind ssa : Byte) : State :=
  { kernel [(0x10000, kind), (0x1000A, 0x0A), (0x10020, ssa), (0x1002D, 0x02)] with
    cr4 := 0x4020
    txt := { State.reset.txt with present := true, keyMatches := true, signature := [5], computedSignature := [5, 0] }
    gpr := { Gprs.zero with rax := 2, rbx := 0x10000, rcx := 0x400 } }

theorem witness_GetsecChecks : bit State.reset.cr4 14 = false ∧ bit (launching 2 0x40).cr4 14 = true ∧ (launching 2 0x40).nonRoot = false ∧
    9 ∉ (launching 2 0x40).cfg.getsecLeaves ∧ 2 ∈ (launching 2 0x40).cfg.getsecLeaves ∧ 0 ∈ (launching 2 0x40).cfg.getsecLeaves ∧
    State.reset.txt.present = false ∧ ¬0x10001 % 4096 = 0 := by decide +kernel

theorem witness_EnterModule :
    let s := launching 2 0x40
    (s.reg .rbx &&& 0xFFFFFFFF).toNat = 0x10000 ∧ (s.reg .rcx &&& 0xFFFFFFFF).toNat = 0x400 ∧
    (s.reg .rax &&& 0xFFFFFFFF).toNat = 2 ∧ bit s.cr4 14 = true ∧ 2 ∈ s.cfg.getsecLeaves ∧
    ¬(s.vmx ≠ .off ∨ bit s.cr0 30 = true ∨ s.ss.dpl ≠ 0 ∨ bit s.plat.apicBase 8 = false ∨ s.txt.present = false ∨
      s.smx.acMode = true ∨ s.inSmm = true) ∧ s.machineCheckClear = true ∧
    (0x10000 % 4096 = 0 ∧ 0x400 % 64 = 0 ∧ s.cfg.acmMinSize ≤ 0x400 ∧ 0x400 ≤ s.cfg.acramCapacity ∧ 0x10000 + 0x400 ≤ 2 ^ 32 - 1) ∧
    s.txt.secondaryReady = true ∧ 0x10000 + 0x400 ≤ 2 ^ s.cfg.maxPA ∧ 48 ≤ s.cfg.acmScratch ∧
    moduleField s 8 4 = s.cfg.acmHeaderVersion.setWidth 64 ∧ moduleField s 0 2 = 2 ∧ s.txt.keyMatches = true ∧
    s.txt.signature.getD 0 0 = s.txt.computedSignature.getD 0 0 ∧ s.fitSignature s.txt.signature = s.fitSignature s.txt.computedSignature ∧
    moduleField s 32 4 = 0x40 ∧ moduleField s 40 4 &&& s.cfg.fredConfigReserved = 0 ∧
    s.cfg.ssaOffsets = [0, 8, 16, 24, 32, 40] ∧ s.memWf = true ∧ moduleField (launching 3 0x40) 0 2 ≠ 2 := by decide +kernel

/-- The module entered: the save area at 0x40 and the signatures in the scratch area; one whose key, signatures or save area are
wrong. -/
theorem witness_EnterModule_outcomes :
    ran .getsec (launching 2 0x40) (fun t => (t.rip, quad 0x40 t, t.byteAt 0xFEB00800, t.byteAt 0xFEB00980, t.byteAt 0xFEB00801)) =
      some (0x200, 0x10002, 5, 5, 0) ∧
    (launching 2 0x40).txt.keyMatches = true ∧ (5 : Byte) ≠ 6 ∧ moduleField (launching 2 0x41) 32 4 = 0x41 ∧ 0x41 % 64 ≠ 0 ∧
    ran .getsec { launching 2 0x40 with txt := { (launching 2 0x40).txt with keyMatches := false } } (·.activity) =
      some (.shutdown (.txt .authenticateFail)) ∧
    ran .getsec { launching 2 0x40 with txt := { (launching 2 0x40).txt with computedSignature := [6] } } (·.activity) =
      some (.shutdown (.txt .authenticateFail)) ∧
    ran .getsec (launching 2 0x41) (·.activity) = some (.shutdown (.txt .badACMFormat)) ∧
    ran .getsec (launching 3 0x40) (·.activity) = some (.shutdown (.txt .unsupportedACM)) := by decide +kernel

/-- In the module, with a state save area at 0x8000. -/
def inModule (rip : Byte) : State :=
  { kernel [(0x8001, rip), (0x8009, 0x70), (0x8010, 0x20), (0x8019, 0x10)] with
    cr4 := 0x100004020, smx := { State.reset.smx with acMode := true }
    gpr := { Gprs.zero with rax := 3, r8 := 0x8000 } }

theorem witness_ExitModule :
    let s := inModule 2
    s.reg .rax &&& 0xFFFFFFFF = 3 ∧ 3 ∈ s.cfg.getsecLeaves ∧ bit s.cr4 14 = true ∧ s.nonRoot = false ∧ (s.reg .r8).toNat = 0x8000 ∧
    State.reset.smx.acMode = false ∧ s.vmx = .off ∧ isCanonical (bit s.cr4 12) (s.reg .rbx) = true ∧ s.ss.dpl = 0 ∧
    s.smx.acMode = true ∧ s.inSmm = false ∧ s.reg .rdx &&& 0xFFFFFFFF = 0 ∧ s.cfg.ssaOffsets = [0, 8, 16, 24, 32, 40] ∧
    0x8000 % 64 = 0 ∧ 0x8000 < 2 ^ s.cfg.maxPA ∧ 0x8001 % 64 ≠ 0 ∧ 2 ^ s.cfg.maxPA ≤ 0x400000000000 ∧
    s.physRead8 0x8000 = .ok 0x200 ∧ s.physRead8 0x8008 = .ok 0x7000 ∧ s.physRead8 0x8010 = .ok 0x20 ∧
    s.physRead8 0x8018 = .ok 0x1000 ∧ s.physRead8 0x8020 = .ok 0 ∧ s.physRead8 0x8028 = .ok 0 ∧
    isCanonical (bit 0x20 12) 0x200 = true ∧ isCanonical (bit 0x20 12) 0x7000 = true ∧ 0x20 &&& s.cfg.cr4MaskConst = 0 ∧ s.cr4Reserved 0x20 = false ∧
    (0 : Word) &&& s.cfg.fredConfigReserved = 0 ∧ (0x20 : Word) &&& 0x22 = 0x20 := by decide +kernel

/-- EXITAC with a slot that is not canonical raises #GP(0); with PAE = 0 in the saved CR4 it is refused. -/
theorem witness_ExitModule_stops :
    let s := inModule 2
    let bad := { s with mem := [(0x8006, 1), (0x8010, 0x20)] }
    let pae := { s with mem := [(0x8001, 2)] }
    ran .getsec s (fun t => (t.rip, t.reg .rsp, t.cr3)) = some (0x200, 0x7000, 0x1000) ∧
    bad.physRead8 0x8000 = .ok 0x0001000000000000 ∧ isCanonical (bit (0x20 : Word) 12) 0x0001000000000000 = false ∧
    bad.physRead8 0x8010 = .ok 0x20 ∧ (0 : Word) &&& 0x22 ≠ 0x20 ∧ refusal (exec .getsec pae) = some .exitacFixedBits := by decide +kernel

theorem witness_ExitModule_forbidden :
    let s := inModule 2
    ({ s with vmx := .root none } : State).vmx ≠ .off ∧ ({ s with vmx := .root none } : State).nonRoot = false ∧
    isCanonical (bit s.cr4 12) ((s.setReg .rbx 0x0000800000000000).reg .rbx) = false ∧ (user []).ss.dpl ≠ 0 ∧ State.reset.smx.acMode = false ∧
    ({ s with inSmm := true } : State).inSmm = true ∧ (s.setReg .rdx 1).reg .rdx &&& 0xFFFFFFFF ≠ 0 := by decide +kernel

/-- In an environment that SENTER made. -/
def inSenterEnv (leaf rbx : Word) : State :=
  { kernel [] with
    cr4 := 0x4020, txt := { State.reset.txt with present := true }, smx := { State.reset.smx with senter := true, maskSmi := true }
    gpr := { Gprs.zero with rax := leaf, rbx := rbx } }

/-- A processor that sleeps in SENTER and is woken, with a JOIN structure at 0x8000 of which CR4 is `cr4`. -/
def sleeping (cr4 : Byte) : State :=
  { kernel ([(0x8001, 2), (0x8009, 0x10)] ++ (if cr4 = 0 then [] else [(0x8010, cr4)])) with
    activity := .senterSleep, pending := { Pending.none with wakeup := true }, txt := { State.reset.txt with mleJoin := 0x8000 } }

theorem witness_OtherSmxFlows :
    ((5 : Word) &&& 0xFFFFFFFF).toNat = 5 ∧ bit (inSenterEnv 5 0).cr4 14 = true ∧ (inSenterEnv 5 0).nonRoot = false ∧
    [5, 6, 7, 8].all (fun l => (inSenterEnv 5 0).cfg.getsecLeaves.contains l) = true ∧ (inSenterEnv 5 0).vmx = .off ∧
    (inSenterEnv 5 0).ss.dpl = 0 ∧ bit (inSenterEnv 5 0).plat.apicBase 8 = true ∧ (inSenterEnv 5 0).smx.acMode = false ∧
    (inSenterEnv 5 0).inSmm = false ∧ State.reset.smx.senter = false ∧ (inSenterEnv 7 1).reg .rbx &&& 0xFFFFFFFF ≠ 0 ∧
    ran .getsec (inSenterEnv 5 0) (fun t => (t.smx.senter, t.smx.maskSmi, t.txt.messages)) = some (false, false, [.sexit]) ∧
    ran .getsec (inSenterEnv 8 0) (fun t => t.txt.messages) = some [.wakeup] ∧
    ran .getsec (inSenterEnv 7 0) (fun t => (t.rip, t.smx.maskSmi)) = some (0x10002, false) ∧
    ran .getsec (inSenterEnv 6 0) (fun t => (t.rip, t.draws)) = some (0x10002, 3) := by decide +kernel

theorem witness_OtherSmxFlows_wakeup :
    (sleeping 0x20).due = some .wakeup ∧ 0x8000 = (sleeping 0x20).txt.mleJoin.toNat ∧
    bit (sleeping 0x20).plat.smmMonitorCtl 0 = (sleeping 0x20).txt.ilpSmmMonitorCtl0 ∧ (sleeping 0x20).physRead8 0x8000 = .ok 0x200 ∧
    (sleeping 0x20).physRead8 0x8008 = .ok 0x1000 ∧ (sleeping 0x20).physRead8 0x8010 = .ok 0x20 ∧
    0x20 &&& (sleeping 0x20).cfg.cr4ReservedBitMask = 0 ∧ (sleeping 0x20).cr4Reserved 0x20 = false ∧
    nextHas (step (sleeping 0x20)) (fun t => t.rip == 0x200 && t.cr3 == 0x1000 && t.smx.maskWakeup && decide (t.activity = .running)) = true ∧
    nextHas (step (sleeping 0)) (fun t => t.rip == 0x200 && t.cr4 == 0x20 && decide (t.activity = .running)) = true ∧
    (0 : Word) &&& (sleeping 0).cfg.cr4ReservedBitMask = 0 ∧ (0 ||| 0x20) &&& ~~~(2 : Word) = 0x20 ∧
    nextHas (step (sleeping 0x22)) (fun t => decide (t.activity = .shutdown (.txt .badJOINFormat))) = true ∧
    nextHas (step { sleeping 0x20 with txt := { (sleeping 0x20).txt with ilpSmmMonitorCtl0 := true } })
      (fun t => decide (t.activity = .shutdown (.txt .illegalEvent))) = true := by decide +kernel

theorem witness_OtherSmxFlows_stm :
    let s := { kernel [] with pending := { Pending.none with stm := true }, cr4 := 0x100000020 }
    s.due = some .stm ∧ nextHas (step s) (fun t => t.cs == ⟨8, true⟩ && t.ss == ⟨16, 0, false⟩ && t.ds == 16 && t.cr4 == 0x20) = true := by
  decide +kernel

/-! ### Masked EVEX instructions, an SMI in a shutdown, global translations -/

/-- The family's element counts: VPSUBSB 64 bytes and VPSHUFHW 32 words of 512 bits, VCMPPH 32, VCVTPS2PD 8, VCMPSH 1,
VEXTRACTF32X4 4, VPMADDWD 16 (it masks by double words). -/
theorem test_evexElems :
    (evexElems 1 1 0xE8 0 false).number 2 = 64 ∧ (evexElems 1 2 0x70 0 false).number 2 = 32 ∧ (evexElems 3 0 0xC2 0 false).number 2 = 32 ∧
    (evexElems 1 0 0x5A 0 false).number 2 = 8 ∧ (evexElems 3 2 0xC2 0 false).number 2 = 1 ∧ (evexElems 3 1 0x19 0 false).number 2 = 4 ∧
    (evexElems 1 1 0xF5 0 true).number 2 = 16 ∧ evexElems 1 0 0x13 0 false = .unmasked ∧ evexElems 1 1 0x59 0 false = .absent := by
  decide +kernel

/-- R460, D11: a processor that is shut down ignores an SMI, which stays pending. -/
theorem test_smi_in_shutdown :
    let s : State := { kernel [] with activity := .shutdown .tripleFault, pending := { Pending.none with smi := true } }
    s.due = none ∧ nextHas (step s) (fun t => t.pending.smi && decide (t.activity = .shutdown .tripleFault)) = true := by decide +kernel

/-- R272 (entry 3): with CR4.PGE = 1 MOV CR3 leaves the old table in the caches, flushed, in the next era. -/
theorem test_movCr3_global :
    let s : State := { kernel [] with cr4 := 0xA0 }
    ran (.movCr3R .rbx) (s.setReg .rbx 0x1000) (fun t => (t.tlb.era, t.tlb.roots)) = some (1, [⟨s.pageRoot, 0, 0, some 1⟩]) := by
  decide +kernel

/-- An entry stored first in era 1, after that MOV CR3, is no part of a translation made in era 0; the current walk uses it. -/
theorem test_entry_of_a_later_era :
    let s : State := { kernel [] with tlb := ⟨1, [⟨0x2000, 0, 1⟩], [⟨0, 0, 0, some 1⟩]⟩ }
    s.entryValue (s.erasOf 0 (some 1)) 0x5000 0x2000 0x101 = (0, 0) ∧ s.entryValue [1] 0x5000 0x2000 0x101 = (0x101, 1) := by
  decide +kernel

/-- R272: with bit 63 the PCID is not flushed, but an entry stored into the old top table after MOV CR3 was never walked from there; one
that the walk reads below it, in the same era or later, may be. -/
theorem test_walkPast_top :
    let s := { kernel [(0, 7), (1, 0x10), (0x1000, 0x87)] with cr4 := 0x20020, tlb := ⟨1, [⟨0, 0, 1⟩], [⟨0, 0, 0, none⟩]⟩ }
    s.erasOf 0 none = [1, 0] ∧ (s.walkPast {} 0x5000 ⟨0, 0, 0, none⟩).isOk = false ∧ s.walkRoot {} 0x5000 = .ok 0x5000 ∧
    ({ s with tlb := ⟨1, [⟨0x1000, 0, 1⟩], s.tlb.roots⟩ } : State).walkPast {} 0x5000 ⟨0, 0, 0, none⟩ = .ok 0x5000 := by decide +kernel

end Sys2Proof.Tests
end

/-! # What every step keeps of the registers (O8, O9, O10)

One relation, `State.Keeps`, holds what the three statements ask of a state and its next one; each instruction and each event is
shown to keep it once, and the three statements are read off `step_keeps`. -/

namespace Sys2Proof.Machine

/-! ## Parts of a meaning -/

/-- Where the part `r` of a meaning completes, its answer satisfies `Q`. -/
def Res.Ends {α : Type} (Q : α → Prop) (r : Res α) : Prop := ∀ v, r = .ok v → Q v

namespace Res.Ends
variable {α β : Type} {Q : β → Prop}

theorem ok {v : β} (h : Q v) : Res.Ends Q (.ok v) := by
  rintro _ ⟨⟩; exact h

theorem error (x : Stop) : Res.Ends Q (.error x) := by
  rintro _ ⟨⟩

theorem bind {first : Res α} {next : α → Res β} (h : ∀ v, first = .ok v → Res.Ends Q (next v)) : Res.Ends Q (first >>= next) := by
  intro out hout
  obtain ⟨v, hv, hfirst⟩ := (Res.then_ok first next out).1 hout
  exact h v hfirst out hv

theorem ite {c : Prop} [Decidable c] {a b : Res β} (ha : c → Res.Ends Q a) (hb : ¬ c → Res.Ends Q b) :
    Res.Ends Q (if c then a else b) := by
  split
  · exact ha ‹_›
  · exact hb ‹_›

end Res.Ends

/-! ## Words -/

theorem shiftRight32_eq_zero_iff (v : Word) : v >>> 32 = 0 ↔ v.toNat < 2 ^ 32 := by
  rw [← BitVec.toNat_inj, BitVec.toNat_ushiftRight, Nat.shiftRight_eq_div_pow, show (0 : Word).toNat = 0 from rfl,
    Nat.div_eq_zero_iff]
  omega

theorem low32_shiftRight32 (v : Word) : low32 v >>> 32 = 0 := by
  rw [shiftRight32_eq_zero_iff, low32, BitVec.toNat_and, show (0xFFFFFFFF : Word).toNat = 2 ^ 32 - 1 from rfl,
    Nat.and_two_pow_sub_one_eq_mod]
  omega

/-- The bits `F` of a merge, where the mask and the bits are both known. -/
theorem mergeBits_and (v m w F : Word) : mergeBits v m w &&& F = (v &&& F) &&& ~~~m ||| w &&& (m &&& F) := by
  unfold mergeBits
  ext i hi
  simp only [BitVec.getElem_and, BitVec.getElem_or, BitVec.getElem_not]
  grind

theorem and_or_self (v w : Word) : v &&& w ||| v = v := by
  ext i hi
  simp only [BitVec.getElem_and, BitVec.getElem_or]
  grind

/-! ## Legal flags (R26, R27) -/

/-- A value that RFLAGS may hold: bit 1 is set, IOPL, VM, VIF, VIP and the reserved bits are 0. -/
def flagsLegal (v : Word) : Prop := v &&& ~~~(0x254FD5 : Word) = 2

theorem State.legalRflags_iff (s : State) : s.legalRflags = true ↔ flagsLegal s.rflags := by
  simp [State.legalRflags, flagsLegal]

theorem flagsLegal_two : flagsLegal 2 := rfl

/-- A merge under a mask of flags that may be 1. -/
theorem flagsLegal.mergeBits {v : Word} (h : flagsLegal v) (m w : Word) (hm : m &&& ~~~(0x254FD5 : Word) = 0) :
    flagsLegal (mergeBits v m w) := by
  have h2 : (2 : Word) &&& ~~~m = 2 := by
    have hbit : (2 : Word) &&& m = 0 := by
      calc (2 : Word) &&& m = (2 &&& ~~~(0x254FD5 : Word)) &&& m := rfl
        _ = 2 &&& (m &&& ~~~(0x254FD5 : Word)) := by ac_rfl
        _ = 0 := by rw [hm]; rfl
    ext i hi
    have := congrArg (fun x : Word => x[i]) hbit
    simp only [BitVec.getElem_and, BitVec.getElem_not] at this ⊢
    grind
  unfold flagsLegal at *
  rw [mergeBits_and, h, hm, h2]
  simp

theorem flagsLegal.and_not {v : Word} (h : flagsLegal v) (m : Word) (hm : (2 : Word) &&& ~~~m = 2) : flagsLegal (v &&& ~~~m) := by
  unfold flagsLegal at *
  calc v &&& ~~~m &&& ~~~(0x254FD5 : Word) = (v &&& ~~~(0x254FD5 : Word)) &&& ~~~m := by ac_rfl
    _ = 2 := by rw [h, hm]

theorem flagsLegal.or {v : Word} (h : flagsLegal v) (m : Word) (hm : m &&& ~~~(0x254FD5 : Word) = 0) : flagsLegal (v ||| m) := by
  unfold flagsLegal at *
  rw [BitVec.and_or_distrib_right, h, hm]
  rfl

theorem flagsLegal.setBit {v : Word} (h : flagsLegal v) {n : Nat} (b : Bool)
    (hn : ((1 : Word) <<< n) &&& ~~~(0x254FD5 : Word) = 0) (h2 : (2 : Word) &&& ~~~((1 : Word) <<< n) = 2) :
    flagsLegal (setBit v n b) := by
  unfold Machine.setBit
  cases b
  · exact h.and_not _ h2
  · exact h.or _ hn

theorem flagsLegal.popf {v : Word} (h : flagsLegal v) (cpl0 : Bool) (image : Word) : flagsLegal (popfFlags cpl0 v image) := by
  refine flagsLegal.setBit (h.mergeBits _ _ ?_) _ rfl rfl
  cases cpl0 <;> rfl

theorem flagsLegal.popf16 {v : Word} (h : flagsLegal v) (cpl0 : Bool) (image : Word) : flagsLegal (popf16Flags cpl0 v image) :=
  h.mergeBits _ _ (by cases cpl0 <;> rfl)

theorem flagsLegal.iret {v : Word} (h : flagsLegal v) (cpl0 : Bool) (image : Word) : flagsLegal (iretFlags cpl0 v image) :=
  h.mergeBits _ _ (by cases cpl0 <;> rfl)

theorem flagsLegal.handler {v : Word} (h : flagsLegal v) (intGate : Bool) : flagsLegal (handlerFlags intGate v) := by
  cases intGate
  · exact h.and_not 0x14100 rfl
  · exact h.and_not 0x14300 rfl

/-- SYSCALL clears what IA32_FMASK names, but bit 1 is set again. -/
theorem flagsLegal.syscall {v : Word} (h : flagsLegal v) (fmask : Word) : flagsLegal (syscallFlags v fmask) := by
  have hlow : v &&& ~~~fmask &&& ~~~(0x254FD5 : Word) = 2 &&& ~~~fmask := by
    rw [← (h : v &&& ~~~(0x254FD5 : Word) = 2)]; ac_rfl
  show ((v &&& ~~~fmask) &&& ~~~(0x10000 : Word) ||| 2) &&& ~~~(0x254FD5 : Word) = 2
  calc ((v &&& ~~~fmask) &&& ~~~(0x10000 : Word) ||| 2) &&& ~~~(0x254FD5 : Word)
      = (v &&& ~~~fmask &&& ~~~(0x254FD5 : Word)) &&& ~~~(0x10000 : Word) ||| 2 := by
          rw [BitVec.and_or_distrib_right, show (2 : Word) &&& ~~~(0x254FD5 : Word) = 2 from rfl]; congr 1; ac_rfl
    _ = 2 &&& (~~~fmask &&& ~~~(0x10000 : Word)) ||| 2 := by rw [hlow]; ac_rfl
    _ = 2 := and_or_self _ _

/-- SYSRET takes no other flag than R26 defines, since R27 has tested IOPL, VIF and VIP. -/
theorem flagsLegal_sysret {r11 : Word} (h : ioplVifVip r11 = false) : flagsLegal (sysretFlags r11) := by
  have h0 : r11 &&& 0x183000 = 0 := by simpa [ioplVifVip] using h
  have hm : r11 &&& 0x3C7FD7 &&& ~~~(0x254FD5 : Word) = r11 &&& 0x183000 ||| r11 &&& 2 := by
    calc r11 &&& 0x3C7FD7 &&& ~~~(0x254FD5 : Word) = (0x183000 ||| 2) &&& r11 := by rw [BitVec.and_assoc, BitVec.and_comm]; rfl
      _ = _ := by rw [BitVec.and_or_distrib_right, BitVec.and_comm r11, BitVec.and_comm r11]
  show (r11 &&& 0x3C7FD7 ||| 2) &&& ~~~(0x254FD5 : Word) = 2
  rw [BitVec.and_or_distrib_right, hm, h0, show (0 : Word) ||| r11 &&& 2 = r11 &&& 2 from BitVec.zero_or, BitVec.and_comm r11]
  exact and_or_self _ _

theorem flagsLegal_legalFlags (image : Word) : flagsLegal (legalFlags image) := by
  show (image &&& definedFlags ||| 2) &&& ~~~(0x254FD5 : Word) = 2
  rw [BitVec.and_or_distrib_right, BitVec.and_assoc, BitVec.and_comm image]
  exact and_or_self _ _

/-- RFLAGS of a guest area that VM entry accepts (R368). -/
theorem flagsLegal_of_guestFlagsOk {v : Word} (h : guestFlagsOk v = true) : flagsLegal v := by
  obtain ⟨hres, hbit⟩ : v &&& ~~~definedFlags = 0 ∧ bit v 1 = true := by simpa [guestFlagsOk] using h
  have h2 : v &&& 2 = 2 := by
    have := BitVec.and_twoPow v 1
    rwa [show v.getLsbD 1 = true from hbit, if_pos rfl] at this
  calc v &&& ~~~(0x254FD5 : Word) = (~~~definedFlags ||| 2) &&& v := BitVec.and_comm _ _
    _ = 2 := by rw [BitVec.and_or_distrib_right, BitVec.and_comm _ v, hres, BitVec.and_comm _ v, h2]; rfl

end Sys2Proof.Machine

namespace Sys2Proof.Machine

/-! ## Fixed bits of control registers (R30, R33, R55, R272) -/

theorem cr0Of_fixed (v : Word) : cr0Of v &&& ~~~(0x40050008 : Word) = 0x80000033 := by
  unfold cr0Of
  rw [BitVec.and_or_distrib_right, BitVec.and_assoc, show cr0Flexible &&& ~~~(0x40050008 : Word) = 0#64 from rfl, BitVec.and_zero]
  rfl

theorem cr4Of_fixed (v : Word) : cr4Of v &&& 0x22 = 0x20 := by
  unfold cr4Of
  rw [BitVec.and_assoc, show ~~~(2 : Word) &&& 0x22 = 0x20 from rfl, BitVec.and_or_distrib_right, BitVec.and_comm v]
  exact and_or_self _ _

theorem cr4_setFred_fixed {v : Word} (h : v &&& 0x22 = 0x20) (b : Bool) : setBit v 32 b &&& 0x22 = 0x20 := by
  cases b
  · calc v &&& ~~~((1 : Word) <<< 32) &&& 0x22 = v &&& 0x22 := by rw [BitVec.and_assoc]; rfl
      _ = 0x20 := h
  · show (v ||| (1 : Word) <<< 32) &&& 0x22 = 0x20
    rw [BitVec.and_or_distrib_right, h]; rfl

theorem cr4FixedOk_iff (v : Word) : cr4FixedOk v = true ↔ v &&& 0x22 = 0x20 := by simp [cr4FixedOk]

/-- What WRMSR checks of IA32_APIC_BASE keeps the APIC enabled in x2APIC mode, whatever its BSP bit. -/
theorem apicBase_fixed {v : Word} (h10 : bit v 10 = true) (h11 : bit v 11 = true) (b : Bool) :
    setBit v 8 b &&& 0xC00 = 0xC00 := by
  have hv : v &&& 0xC00 = 0xC00 := by
    have e10 := BitVec.and_twoPow v 10
    have e11 := BitVec.and_twoPow v 11
    rw [show v.getLsbD 10 = true from h10, if_pos rfl] at e10
    rw [show v.getLsbD 11 = true from h11, if_pos rfl] at e11
    calc v &&& 0xC00 = (BitVec.twoPow 64 10 ||| BitVec.twoPow 64 11) &&& v := BitVec.and_comm _ _
      _ = BitVec.twoPow 64 10 ||| BitVec.twoPow 64 11 := by
        rw [BitVec.and_or_distrib_right, BitVec.and_comm _ v, BitVec.and_comm _ v, e10, e11]
      _ = 0xC00 := rfl
  cases b
  · show v &&& ~~~((1 : Word) <<< 8) &&& 0xC00 = 0xC00
    rw [BitVec.and_assoc]; exact hv
  · show (v ||| (1 : Word) <<< 8) &&& 0xC00 = 0xC00
    rw [BitVec.and_or_distrib_right, hv]; rfl

theorem cr8_fixed_of_shift {v : Word} (h : v >>> 4 = 0) : v &&& ~~~(0xF : Word) = 0 := by
  have := BitVec.shiftLeft_ushiftRight (x := v) (n := 4)
  rw [h] at this
  exact this.symm

theorem cr8_fixed_of_and (v : Word) : v &&& 0xF &&& ~~~(0xF : Word) = 0 := by
  rw [BitVec.and_assoc, show (0xF : Word) &&& ~~~(0xF : Word) = 0#64 from rfl]
  exact BitVec.and_zero

/-! ## What the three statements speak of -/

/-- The registers the statements speak of, but for RIP, and the address of the next instruction. -/
structure ControlState where
  cr0      : Word
  cr4      : Word
  cr8      : Word
  efer     : Word
  apicBase : Word
  rflags   : Word
  cs       : CsReg
  activity : Activity
  nextRip  : Word

def State.control (s : State) : ControlState where
  cr0 := s.cr0
  cr4 := s.cr4
  cr8 := s.cr8
  efer := s.efer
  apicBase := s.plat.apicBase
  rflags := s.rflags
  cs := s.cs
  activity := s.activity
  nextRip := s.nextRip

/-- The fixed bits (R30, R33, R36, R55, R272). -/
structure ControlState.Fixed (c : ControlState) : Prop where
  cr0 : c.cr0 &&& ~~~(0x40050008 : Word) = 0x80000033
  cr4 : c.cr4 &&& 0x22 = 0x20
  efer : c.efer = 0xD01
  apicBase : c.apicBase &&& 0xC00 = 0xC00
  cr8 : c.cr8 &&& ~~~(0xF : Word) = 0

/-- Flags, CS, the activity state and the next address are no part of it. -/
theorem ControlState.Fixed.congr {c d : ControlState} (h : c.Fixed)
    (hd : d = { c with rflags := d.rflags, cs := d.cs, activity := d.activity, nextRip := d.nextRip }) : d.Fixed := by
  rw [hd]
  exact ⟨h.cr0, h.cr4, h.efer, h.apicBase, h.cr8⟩

theorem State.fixedRegisters_iff (s : State) : s.fixedRegisters = true ↔ s.control.Fixed := by
  simp only [State.fixedRegisters, Bool.and_eq_true, beq_iff_eq]
  exact ⟨fun ⟨⟨⟨⟨h0, h4⟩, he⟩, ha⟩, h8⟩ => ⟨h0, h4, he, ha, h8⟩, fun h => ⟨⟨⟨⟨h.cr0, h.cr4⟩, h.efer⟩, h.apicBase⟩, h.cr8⟩⟩

/-- A value that RIP may hold in 64-bit mode, where `l`, or in compatibility mode (R24). -/
def ripAllowed (l : Bool) (v : Word) : Prop := l = true ∨ v >>> 32 = 0

/-- RIP is one that the mode allows (R24), or is `next`; and a processor that starts at a 64-bit address is in 64-bit mode. -/
def State.ripFits (next : Option Word) (s : State) : Prop :=
  s.cs.l = true ∨ (s.rip >>> 32 = 0 ∨ next = some s.rip) ∧ s.activity ≠ .senterSleep ∧ s.activity ≠ .waitForSipi

theorem State.legalRip_iff (s : State) : s.legalRip = true ↔ s.ripFits none := by
  simp only [State.legalRip, State.ripFits, Bool.or_eq_true, Bool.and_eq_true, beq_iff_eq, Bool.not_eq_true', decide_eq_false_iff_not,
    and_assoc, reduceCtorEq, or_false]

/-- `t` keeps of `s` what the three statements ask. An instruction may end at its next address, `next`, wherever that lies: a step
refuses that one where it lies beyond the address space. -/
structure State.Keeps (next : Option Word) (s t : State) : Prop where
  fixed : s.control.Fixed → t.control.Fixed
  flags : flagsLegal s.rflags → flagsLegal t.rflags
  rip : s.legalMode = true → s.ripFits none → t.ripFits next

/-- `t` keeps what the statements ask, whatever mode `s` is in and wherever its RIP may end: what a piece of an event does. -/
structure State.Carries (s t : State) : Prop where
  fixed : s.control.Fixed → t.control.Fixed
  flags : flagsLegal s.rflags → flagsLegal t.rflags
  rip : ∀ next, s.ripFits next → t.ripFits next

theorem State.Carries.refl (s : State) : s.Carries s := ⟨id, id, fun _ => id⟩

/-- An event that ends in 64-bit mode. -/
theorem State.Carries.of_mode64 {s t : State} (hl : t.cs.l = true) (fixed : s.control.Fixed → t.control.Fixed)
    (flags : flagsLegal s.rflags → flagsLegal t.rflags) : s.Carries t :=
  ⟨fixed, flags, fun _ _ => .inl hl⟩

namespace State.Keeps
variable {next : Option Word} {s t u : State}

theorem refl (next : Option Word) (s : State) : s.Keeps next s :=
  ⟨id, id, fun _ h => h.imp id fun ⟨hrip, hact⟩ => ⟨.inl (hrip.resolve_right nofun), hact⟩⟩

/-- What follows an end of an instruction may be an event. -/
theorem trans (h : s.Keeps next u) (h' : u.Carries t) : s.Keeps next t :=
  ⟨h'.fixed ∘ h.fixed, h'.flags ∘ h.flags, fun hm hs => h'.rip _ (h.rip hm hs)⟩

/-- A meaning that stays in its code segment and leaves a RIP that fits the mode. -/
theorem of_same_cs (hcs : t.cs = s.cs) (hact : t.activity = s.activity) (fixed : s.control.Fixed → t.control.Fixed)
    (flags : flagsLegal s.rflags → flagsLegal t.rflags) (hrip : s.cs.l = true ∨ t.rip >>> 32 = 0 ∨ next = some t.rip) :
    s.Keeps next t where
  fixed := fixed
  flags := flags
  rip _ hs := by
    rw [State.ripFits, hcs, hact]
    rcases hs with hl | ⟨-, ha⟩
    · exact .inl hl
    · exact hrip.imp id fun hr => ⟨hr, ha⟩

/-- A meaning that writes of `State.control` flags alone. -/
theorem of_flags {f : Word} (h : t.control = { s.control with rflags := f }) (hf : flagsLegal s.rflags → flagsLegal f)
    (hrip : s.cs.l = true ∨ t.rip >>> 32 = 0 ∨ next = some t.rip) : s.Keeps next t :=
  of_same_cs (congrArg ControlState.cs h) (congrArg ControlState.activity h)
    (fun hs => h ▸ ⟨hs.cr0, hs.cr4, hs.efer, hs.apicBase, hs.cr8⟩)
    (fun hs => by rw [show t.rflags = f from congrArg ControlState.rflags h]; exact hf hs) hrip

theorem of_control (h : t.control = s.control) (hrip : s.cs.l = true ∨ t.rip >>> 32 = 0 ∨ next = some t.rip) : s.Keeps next t :=
  of_flags (f := s.rflags) h id hrip

/-- An instruction that ends at its next address. -/
theorem toNext_flags {f : Word} (h : t.control = { s.control with rflags := f }) (hf : flagsLegal s.rflags → flagsLegal f) :
    s.Keeps (some s.nextRip) t.toNext :=
  of_flags (t := t.toNext) h hf (.inr (.inr (congrArg (some ∘ ControlState.nextRip) h).symm))

theorem toNext (h : t.control = s.control) : s.Keeps (some s.nextRip) t.toNext :=
  toNext_flags (f := s.rflags) h id

/-- A meaning that loads CS: RIP is one of the mode it enters. -/
theorem of_cs {f : Word} {cs : CsReg} (hrun : s.activity = .running) (h : t.control = { s.control with rflags := f, cs := cs })
    (hf : flagsLegal s.rflags → flagsLegal f) (hrip : ripAllowed cs.l t.rip) : s.Keeps next t where
  fixed hs := by rw [h]; exact ⟨hs.cr0, hs.cr4, hs.efer, hs.apicBase, hs.cr8⟩
  flags hs := by rw [show t.rflags = f from congrArg ControlState.rflags h]; exact hf hs
  rip _ _ := by
    have hcs : t.cs = cs := congrArg ControlState.cs h
    have hact : t.activity = s.activity := congrArg ControlState.activity h
    rw [State.ripFits, hcs, hact, hrun]
    exact hrip.imp id fun hr => ⟨.inl hr, nofun, nofun⟩

end State.Keeps

/-! ## VM exits and deliveries -/

/-- The host state has legal flags, fixed bits and 64-bit mode (R369, R372). -/
theorem State.loadHost_carries (s : State) (h : VmcsHost) : s.Carries (s.loadHost h) :=
  .of_mode64 rfl (fun hs => ⟨cr0Of_fixed _, cr4Of_fixed _, hs.efer, hs.apicBase, hs.cr8⟩) fun _ => flagsLegal_two

/-- A VM exit loads a host state, but for the VMX mode; in any other mode than non-root operation it is none. -/
theorem State.vmExit_cases (s : State) (r : DWord) (q : Word) (i c : DWord) :
    s.vmExit r q i c = s ∨ ∃ host vmx, s.vmExit r q i c = (s.loadHost host).setVmx vmx := by
  unfold State.vmExit State.exitFrom
  split
  · exact .inr ⟨_, _, rfl⟩
  · exact .inl rfl

theorem State.vmExit_carries (s : State) (r : DWord) (q : Word) (i c : DWord) : s.Carries (s.vmExit r q i c) := by
  rcases s.vmExit_cases r q i c with h | ⟨host, vmx, h⟩
  · rw [h]; exact .refl s
  · have hk := s.loadHost_carries host
    rw [h]; exact ⟨hk.fixed, hk.flags, hk.rip⟩

/-- A delivery that stops on its way is in 64-bit mode and has written no flag. -/
theorem State.landed_carries (s : State) (e : Event) (p : Plan) : s.Carries (s.landed e p) := by
  have h : s.landed e p = _ := (State.landed_eq s e p).trans (by rw [State.switch_eq])
  rw [h]
  exact .of_mode64 rfl (fun hs => ⟨hs.cr0, hs.cr4, hs.efer, hs.apicBase, hs.cr8⟩) id

theorem State.deliverOnce_carries (s : State) (e : Event) : s.Carries (onceState (s.deliverOnce e)) := by
  match h : s.deliverOnce e with
  | .ok t =>
    obtain ⟨p, -, -, ht⟩ := State.deliverOnce_ok h
    show s.Carries t
    rw [ht]
    exact .of_mode64 rfl (fun hs => ⟨hs.cr0, hs.cr4, hs.efer, hs.apicBase, hs.cr8⟩) fun hs => hs.handler _
  | .error (x, t) =>
    rcases State.deliverOnce_error h with rfl | ⟨p, -, rfl⟩
    · exact .refl _
    · exact s.landed_carries e p

/-- Taking an event keeps what the statements ask. -/
theorem State.keeps_closed (next : Option Word) (s : State) : EventClosed (s.Keeps next) where
  once u e hu := hu.trans (u.deliverOnce_carries e)
  exits u r q i c hu := hu.trans (u.vmExit_carries r q i c)
  cr2 _ _ hu := hu.trans ⟨id, id, fun _ => id⟩
  shut _ hu := hu.trans ⟨fun h => ⟨h.cr0, h.cr4, h.efer, h.apicBase, h.cr8⟩, id,
    fun _ h => h.imp id fun ⟨hrip, _⟩ => ⟨hrip, nofun, nofun⟩⟩

/-- A meaning keeps what the statements ask where its body does. -/
theorem finish_keeps {next : Option Word} {s t : State} {r : Res State} (h : finish s r = .next t)
    (hr : Res.Ends (s.Keeps next) r) : s.Keeps next t :=
  (s.keeps_closed next).finish (.refl next s) hr h

theorem State.deliver_keeps (next : Option Word) {s t : State} {e : Event} {b : Bool} (h : s.deliver e b = .next t) : s.Keeps next t :=
  (s.keeps_closed next).deliver (.refl next s) h

end Sys2Proof.Machine

namespace Sys2Proof.Machine

/-! ## What the shared operations leave of `State.control` -/

@[simp] theorem State.control_setReg (s : State) (r : Reg) (v : Word) : (s.setReg r v).control = s.control := rfl
@[simp] theorem State.control_toNext (s : State) : s.toNext.control = s.control := rfl
@[simp] theorem State.control_setRip (s : State) (v : Word) : (s.setRip v).control = s.control := rfl
@[simp] theorem State.control_popped (s : State) (sz : OpSize) (k n : Nat) : (s.popped sz k n).control = s.control := rfl
@[simp] theorem State.control_setMovSsBlocked (s : State) (b : Bool) : (s.setMovSsBlocked b).control = s.control := rfl
@[simp] theorem State.control_setDraws (s : State) (n : Nat) : (s.setDraws n).control = s.control := rfl
@[simp] theorem State.control_setTlb (s : State) (v : Tlb) : (s.setTlb v).control = s.control := rfl
@[simp] theorem State.control_setAcram (s : State) (v : List Host.Cell) : (s.setAcram v).control = s.control := rfl
@[simp] theorem State.control_setSmx (s : State) (v : SmxFlags) : (s.setSmx v).control = s.control := rfl
@[simp] theorem State.control_setCr3 (s : State) (v : Word) : (s.setCr3 v).control = s.control := rfl
@[simp] theorem State.control_signal (s : State) (m : TxtMsg) : (s.signal m).control = s.control := rfl
@[simp] theorem State.control_setCr4 (s : State) (v : Word) : (s.setCr4 v).control = { s.control with cr4 := v } := rfl
@[simp] theorem State.control_setPlat (s : State) (v : PlatformMsrs) :
    (s.setPlat v).control = { s.control with apicBase := v.apicBase } := rfl
@[simp] theorem State.control_setRflags (s : State) (v : Word) : (s.setRflags v).control = { s.control with rflags := v } := rfl

@[simp] theorem State.control_setRegSz (s : State) (sz : OpSize) (r : Reg) (v : Word) : (s.setRegSz sz r v).control = s.control := by
  cases sz <;> rfl

@[simp] theorem State.control_storeSreg (s : State) (r : Sreg) (sel : Half) (d : Word) : (s.storeSreg r sel d).control = s.control := by
  cases r <;> rfl

@[simp] theorem State.control_blockAfterSs (s : State) (r : Sreg) : (s.blockAfterSs r).control = s.control := by
  unfold State.blockAfterSs; split <;> rfl

theorem State.storedFrom.control_eq {s t : State} (h : s.storedFrom t) : t.control = s.control := by
  rw [State.storedFrom] at h; rw [h]; rfl

@[simp] theorem State.control_storeAt (s : State) (pas : List Nat) (bs : List Byte) : (s.storeAt pas bs).control = s.control :=
  (s.storedFrom_storeAt pas bs).control_eq

@[simp] theorem State.control_putBytes (s : State) (pas : List Nat) (bs : List Byte) : (s.putBytes pas bs).control = s.control := by
  rw [State.putBytes_eq]; rfl

theorem State.pushAll_control {s t : State} {sz : OpSize} {vs : List Word} (h : s.pushAll sz vs = .ok t) : t.control = s.control := by
  obtain ⟨pas, -, rfl⟩ := State.pushAll_spec h
  simp

theorem State.memWrite_control {s t : State} {la : Word} {n : Nat} {v : Word} (h : s.memWrite la n v = .ok t) : t.control = s.control :=
  (State.writeBytes_eq h).control_eq

theorem State.writeRMSel_control (s : State) (p : Pfx) (rm : RM) (v : Half) :
    Res.Ends (fun t => t.control = s.control) (s.writeRMSel p rm v) := by
  cases rm with
  | reg r => exact .ok (by simp)
  | mem m => exact .bind fun _ _ _ h => State.memWrite_control h

theorem State.writeRM16_control (s : State) (p : Pfx) (rm : RM) (v : Half) :
    Res.Ends (fun t => t.control = s.control) (s.writeRM16 p rm v) := by
  cases rm with
  | reg r => exact .ok (by simp)
  | mem m => exact .bind fun _ _ _ h => State.memWrite_control h

/-! ## Near branches, LEA, NOP -/

variable (s : State) (p : Pfx)

theorem State.nearTarget_fits (t : Word) : Res.Ends (ripAllowed s.cs.l) (s.nearTarget t) :=
  .ite (fun hl => .ite (fun _ => .ok (.inl hl)) fun _ => .error _) fun _ => .ok (.inr (low32_shiftRight32 t))

theorem State.nearOperand_fits (rm : RM) : Res.Ends (ripAllowed s.cs.l) (s.nearOperand p rm) :=
  .bind fun _ _ => .bind fun t _ => s.nearTarget_fits t

theorem State.branchRel_keeps {u : State} (h : u.control = s.control) (taken : Bool) (rel : Word) :
    Res.Ends (s.Keeps (some s.nextRip)) (u.branchRel taken rel) := by
  have hcs : u.cs = s.cs := congrArg ControlState.cs h
  refine .ite (fun _ => .bind fun v hv => .ok ?_) fun _ => .ok (.toNext h)
  exact .of_control h ((hcs ▸ u.nearTarget_fits _ v hv : ripAllowed s.cs.l v).imp id .inl)

theorem State.loopWhile_keeps (rel : BitVec 8) (c : Bool) : Res.Ends (s.Keeps (some s.nextRip)) (s.loopWhile p rel c) :=
  .bind fun _ _ => s.branchRel_keeps (by simp) _ _

theorem State.jumpIfZero_keeps (rel : BitVec 8) : Res.Ends (s.Keeps (some s.nextRip)) (s.jumpIfZero p rel) :=
  .bind fun _ _ => s.branchRel_keeps rfl _ _

theorem State.callTo_keeps {t : Word} (ht : ripAllowed s.cs.l t) : Res.Ends (s.Keeps (some s.nextRip)) (s.callTo p t) :=
  .bind fun u hu => .ok (.of_control (show u.control = s.control from State.pushAll_control hu) (ht.imp id .inl))

theorem State.nearReturn_keeps (n : Nat) : Res.Ends (s.Keeps (some s.nextRip)) (s.nearReturn p n) :=
  .bind fun _ _ => .bind fun t _ => .bind fun v hv => .ok (.of_control rfl ((s.nearTarget_fits t v hv).imp id .inl))

/-! ## Segment registers -/

theorem State.popSreg_keeps (r : Sreg) : Res.Ends (s.Keeps (some s.nextRip)) (s.popSreg p r) :=
  .bind fun _ _ => .bind fun _ _ => .ok (.toNext (by simp))

theorem State.loadFar_keeps (sr : Sreg) (r : Reg) (m : Mem) : Res.Ends (s.Keeps (some s.nextRip)) (s.loadFar p sr r m) :=
  .bind fun _ _ => .bind fun _ _ => .bind fun _ _ => .ok (.toNext (by simp))

theorem State.pushSreg_keeps (r : Sreg) : Res.Ends (s.Keeps (some s.nextRip)) (s.pushSreg p r) := by
  refine .bind fun t ht => .ok (.toNext ?_)
  have h := State.pushAll_control ht
  split <;> exact h

theorem State.movSreg_keeps (n : BitVec 3) (rm : RM) {t : State} (h : execMovSregRM p n rm s = .next t) :
    s.Keeps (some s.nextRip) t := by
  refine finish_keeps h ?_
  split
  · exact .error _
  · exact .bind fun _ _ => .bind fun _ _ => .bind fun _ _ => .ok (.toNext (by simp))

theorem State.storeSreg_keeps (n : BitVec 3) (rm : RM) {t : State} (h : execMovRMSreg p n rm s = .next t) :
    s.Keeps (some s.nextRip) t := by
  refine finish_keeps h ?_
  split
  · exact .error _
  · exact .bind fun u hu => .ok (.toNext (s.writeRMSel_control p rm _ u hu))

/-! ## Table registers and bases -/

theorem State.storeTable_keeps (m : Mem) (r : TableReg) : Res.Ends (s.Keeps (some s.nextRip)) (s.storeTable p m r) :=
  .bind fun _ _ => .bind fun _ _ => .bind fun _ hu => .ok (.toNext (State.writeBytes_eq hu).control_eq)

theorem State.storeSel_keeps (rm : RM) (sel : Half) : Res.Ends (s.Keeps (some s.nextRip)) (s.storeSel p rm sel) :=
  .bind fun _ _ => .bind fun u hu => .ok (.toNext (s.writeRMSel_control p rm sel u hu))

/-! ## Queries -/

theorem flagsLegal.setZf {v : Word} (h : flagsLegal v) (z : Bool) : flagsLegal (Machine.setBit v 6 z) := h.setBit z rfl rfl

theorem State.queryValue_keeps (r : Reg) (rm : RM) (f : Word → Word) : Res.Ends (s.Keeps (some s.nextRip)) (s.queryValue p r rm f) := by
  refine .bind fun _ _ => .bind fun d _ => ?_
  cases d with
  | none => exact .ok (.toNext_flags rfl fun h => h.setZf _)
  | some d =>
    have hc := s.control_setRegSz (s.opSize p) r (f d)
    have hf : (s.setRegSz (s.opSize p) r (f d)).rflags = s.rflags := congrArg ControlState.rflags hc
    refine .ok (.toNext_flags (f := Machine.setBit s.rflags 6 true) ?_ fun h => h.setZf _)
    rw [State.setZf, State.control_setRflags, hc, hf]

theorem State.queryOk_keeps (rm : RM) : Res.Ends (s.Keeps (some s.nextRip)) (s.queryOk p rm) :=
  .bind fun _ _ => .bind fun _ _ => .ok (.toNext_flags rfl fun h => h.setZf _)

theorem arpl_keeps (rm : RM) (r : Reg) {t : State} (h : execArpl p rm r s = .next t) : s.Keeps (some s.nextRip) t := by
  refine finish_keeps h (.bind fun _ _ => .bind fun dest _ => .ite (fun _ => .bind fun u hu => .ok ?_) fun _ => .ok ?_)
  · have hc := s.writeRM16_control p rm _ u hu
    have hf : u.rflags = s.rflags := congrArg ControlState.rflags hc
    refine .toNext_flags (f := Machine.setBit s.rflags 6 true) ?_ fun h => h.setZf _
    rw [State.setZf, State.control_setRflags, hc, hf]
  · exact .toNext_flags rfl fun h => h.setZf _

end Sys2Proof.Machine

namespace Sys2Proof.Machine

variable {s : State} {next : Option Word}

/-! ## Far transfers and returns from events -/

/-- A return takes all of `v` or its low half, by the mode it enters. -/
theorem ripAllowed_ite (l : Bool) (v : Word) : ripAllowed l (if l then v else low32 v) := by
  cases l
  · exact .inr (low32_shiftRight32 v)
  · exact .inl rfl

theorem State.returnRip_fits (s : State) (l : Bool) (rip : Word) :
    Res.Ends (ripAllowed l) (s.returnRip l rip) :=
  .ite (fun _ => .ok (ripAllowed_ite l rip)) fun _ => .error _

theorem State.farCall_keeps (hrun : s.activity = .running) (sz : OpSize) (sel : Half) (off : Word) :
    Res.Ends (s.Keeps next) (s.farCall sz sel off) := by
  refine .bind fun d _ => .bind fun rip hrip => .bind fun u hu => .ok ?_
  have hc : (u.loadTarget sel d rip).control = { u.control with cs := ⟨sel, descL d⟩ } := rfl
  rw [State.pushAll_control hu] at hc
  exact .of_cs hrun hc id (s.returnRip_fits (descL d) off rip hrip)

theorem State.farJmp_keeps (hrun : s.activity = .running) (sel : Half) (off : Word) :
    Res.Ends (s.Keeps next) (s.farJmp sel off) :=
  .bind fun d _ => .bind fun rip hrip =>
    .ok (.of_cs (f := s.rflags) (cs := ⟨sel, descL d⟩) hrun rfl id (s.returnRip_fits (descL d) off rip hrip))

theorem State.farRet_keeps (hrun : s.activity = .running) (p : Pfx) (n : Nat) : Res.Ends (s.Keeps next) (s.farRet p n) :=
  .bind fun _ _ => .bind fun off _ => .bind fun item _ => .bind fun d _ => .bind fun rip hrip =>
    .ok (.of_cs (f := s.rflags) (cs := ⟨item.setWidth 16, descL d⟩) hrun rfl id (s.returnRip_fits (descL d) off rip hrip))

theorem State.iretSame_keeps (hrun : s.activity = .running) (sz : OpSize) (h : IretHead) :
    Res.Ends (s.Keeps next) (s.iretSame sz h) :=
  .bind fun rip hrip => .ok (.of_cs (f := iretFlags s.cpl0 s.rflags h.flags) (cs := ⟨h.cs, descL h.d⟩) hrun rfl
    (fun hf => hf.iret _ _) (s.returnRip_fits _ _ rip hrip))

theorem State.iretFull_keeps (hrun : s.activity = .running) (sz : OpSize) (h : IretHead) :
    Res.Ends (s.Keeps next) (s.iretFull sz h) :=
  .bind fun _ _ => .bind fun rip hrip => .ok (.of_cs (f := iretFlags s.cpl0 s.rflags h.flags) (cs := ⟨h.cs, descL h.d⟩) hrun rfl
    (fun hf => hf.iret _ _) (s.returnRip_fits _ _ rip hrip))

theorem State.returnFromEvent_keeps (hrun : s.activity = .running) (sz : OpSize) :
    Res.Ends (s.Keeps next) (s.returnFromEvent sz) :=
  .bind fun h _ => .ite
    (fun _ => .ite (fun _ => .error _) fun _ => s.iretFull_keeps hrun sz h)
    fun _ => .ite (fun _ => .error _) fun _ => .ite (fun _ => s.iretFull_keeps hrun sz h) fun _ => s.iretSame_keeps hrun sz h

/-! ## Fast system calls and FRED returns -/

theorem syscall_keeps (hrun : s.activity = .running) {t : State} (h : execSyscall s = .next t) : s.Keeps next t :=
  finish_keeps h (.bind fun _ _ => .ok (.of_cs (f := syscallFlags s.rflags s.sys.fmask)
    (cs := ⟨starKernel s.sys.star &&& 0xFFFC, true⟩) hrun rfl (fun hf => hf.syscall _) (.inl rfl)))

theorem sysenter_keeps (hrun : s.activity = .running) {t : State} (h : execSysenter s = .next t) : s.Keeps next t :=
  finish_keeps h (.bind fun _ _ => .bind fun _ _ => .ok (.of_cs (f := setBit (setBit s.rflags 9 false) 16 false)
    (cs := ⟨s.sys.sysenterCs.setWidth 16 &&& 0xFFFC, true⟩) hrun rfl
    (fun hf => (hf.setBit false rfl rfl).setBit false rfl rfl) (.inl rfl)))

theorem sysret_keeps (hrun : s.activity = .running) (p : Pfx) {t : State} (h : execSysret p s = .next t) : s.Keeps next t := by
  refine finish_keeps h (.bind fun _ _ => .bind fun _ _ => .bind fun _ hiopl => .bind fun _ _ => .ok ?_)
  exact .of_cs (f := sysretFlags (s.reg .r11)) (cs := ⟨(starUser s.sys.star + (if p.w then 16 else 0)) ||| 3, p.w⟩) hrun rfl
    (fun _ => flagsLegal_sysret (raiseIf_ok.1 hiopl)) (ripAllowed_ite p.w _)

theorem sysexit_keeps (hrun : s.activity = .running) (p : Pfx) {t : State} (h : execSysexit p s = .next t) : s.Keeps next t := by
  refine finish_keeps h (.bind fun _ _ => .bind fun _ _ => .ok ?_)
  exact .of_cs (f := s.rflags) (cs := ⟨(s.sys.sysenterCs.setWidth 16 + (if p.w then 32 else 16)) ||| 3, p.w⟩) hrun rfl id
    (ripAllowed_ite p.w (s.reg .rdx))

theorem eretu_keeps (hrun : s.activity = .running) {t : State} (h : execEretu s = .next t) : s.Keeps next t := by
  refine finish_keeps h (.bind fun _ _ => .bind fun _ _ => .bind fun f _ => ?_)
  split
  · exact .error _
  · next l _ =>
    exact .bind fun _ _ => .bind fun rip hrip => .ok (.of_cs (f := legalFlags f.flags) (cs := ⟨f.cs.setWidth 16 ||| 3, l⟩) hrun rfl
      (fun _ => flagsLegal_legalFlags _) (s.returnRip_fits l f.rip rip hrip))

/-- ERETU and ERETS run in 64-bit mode. -/
theorem State.requireFred_mode64 (s : State) : Res.Ends (fun _ => s.cs.l = true) s.requireFred :=
  .bind fun _ h _ _ => by
    have hc : s.compat = false := (Bool.or_eq_false_iff.1 (raiseIf_ok.1 h)).1
    simpa [State.compat] using hc

theorem erets_keeps {t : State} (h : execErets s = .next t) : s.Keeps next t :=
  finish_keeps h (.bind fun u hu => .bind fun f _ => .bind fun _ _ => .bind fun _ _ => .bind fun _ _ =>
    .ok (.of_flags (f := legalFlags f.flags) rfl (fun _ => flagsLegal_legalFlags _) (.inl (s.requireFred_mode64 u hu))))

/-- RSM forces the saved image legal (R353). -/
theorem State.restoreSmm_keeps (hrun : s.activity = .running) (m : SmmSave) : s.Keeps next (s.restoreSmm m) where
  fixed hs := ⟨cr0Of_fixed _, cr4Of_fixed _, hs.efer, hs.apicBase, hs.cr8⟩
  flags _ := flagsLegal_legalFlags _
  rip _ _ := by
    rw [State.ripFits, show (s.restoreSmm m).activity = .running from hrun]
    exact (ripAllowed_ite (legalCs m.cs m.ss).l m.rip).imp id fun h => ⟨.inl h, nofun, nofun⟩

/-! ## Flags -/

theorem popf_keeps (p : Pfx) {t : State} (h : execPopf p s = .next t) : s.Keeps (some s.nextRip) t :=
  finish_keeps h (.bind fun image _ => .ok (.toNext_flags (f := popfFlags s.cpl0 s.rflags image) rfl fun hf => hf.popf _ _))

theorem popf16_keeps (p : Pfx) {t : State} (h : execPopf16 p s = .next t) : s.Keeps (some s.nextRip) t :=
  finish_keeps h (.bind fun image _ => .ok (.toNext_flags (f := popf16Flags s.cpl0 s.rflags image) rfl fun hf => hf.popf16 _ _))

theorem cli_keeps {t : State} (h : execCli s = .next t) : s.Keeps (some s.nextRip) t :=
  finish_keeps h (.bind fun _ _ => .ok (.toNext_flags (f := setBit s.rflags 9 false) rfl fun hf => hf.setBit false rfl rfl))

theorem sti_keeps {t : State} (h : execSti s = .next t) : s.Keeps (some s.nextRip) t :=
  finish_keeps h (.bind fun _ _ => .ok (.toNext_flags (f := setBit s.rflags 9 true) rfl fun hf => hf.setBit true rfl rfl))

/-! ## Control registers -/

theorem flagsLegal.status {v : Word} (h : flagsLegal v) (w : Word) : flagsLegal (Machine.mergeBits v statusMask w) := h.mergeBits _ _ rfl

/-- The flags a MOV to or from a control register leaves (U7). -/
theorem State.freeStatus_legal (s : State) (h : flagsLegal s.rflags) : flagsLegal s.freeStatus.rflags :=
  h.status _

theorem movRCr_keeps (n : BitVec 4) (r : Reg) {t : State} (h : execMovRCr n r s = .next t) : s.Keeps (some s.nextRip) t := by
  refine finish_keeps h (.bind fun _ _ => ?_)
  split
  · exact .error _
  · exact .ok (.toNext_flags rfl s.freeStatus_legal)

theorem movCr0_keeps (r : Reg) {t : State} (h : execMovCr0R r s = .next t) : s.Keeps (some s.nextRip) t := by
  refine finish_keeps h (.bind fun _ _ => .bind fun v _ => .bind fun _ _ => .ok ?_)
  have hk : s.Keeps (some s.nextRip) s.freeStatus.toNext := .toNext_flags rfl s.freeStatus_legal
  exact hk.trans ⟨fun hs => ⟨cr0Of_fixed v, hs.cr4, hs.efer, hs.apicBase, hs.cr8⟩, id, fun _ => id⟩

theorem movCr4_keeps (r : Reg) {t : State} (h : execMovCr4R r s = .next t) : s.Keeps (some s.nextRip) t := by
  refine finish_keeps h (.bind fun _ _ => .bind fun v _ => .bind fun _ hok => .ok ?_)
  have hv : cr4FixedOk v = true := by
    have := raiseIf_ok.1 hok
    simp only [State.cr4WriteOk, Bool.not_eq_false', Bool.and_eq_true] at this
    obtain ⟨⟨⟨⟨⟨hv, -⟩, -⟩, -⟩, -⟩, -⟩ := this
    exact hv
  have hk : s.Keeps (some s.nextRip) s.freeStatus.toNext := .toNext_flags rfl s.freeStatus_legal
  exact hk.trans ⟨fun hs => ⟨hs.cr0, (cr4FixedOk_iff v).1 hv, hs.efer, hs.apicBase, hs.cr8⟩, id, fun _ => id⟩

/-- A write of CR8 is one of its register, or of memory where the TPR shadow stands for it (R380). -/
theorem State.writeCr8_control (s : State) (v : Word) :
    (s.writeCr8 v).control = s.control ∨ (s.writeCr8 v).control = { s.control with cr8 := v } := by
  unfold State.writeCr8
  split
  · exact .inl (by simp)
  · exact .inr rfl

theorem movCr8_keeps (r : Reg) {t : State} (h : execMovCr8R r s = .next t) : s.Keeps (some s.nextRip) t := by
  refine finish_keeps h (.bind fun _ _ => .bind fun _ hok => .ok ?_)
  have hv : s.reg r >>> 4 = 0 := by simpa using raiseIf_ok.1 hok
  have hk : s.Keeps (some s.nextRip) s.freeStatus.toNext := .toNext_flags rfl s.freeStatus_legal
  rcases s.freeStatus.writeCr8_control (s.reg r) with hc | hc
  · exact .toNext_flags hc s.freeStatus_legal
  · refine .of_same_cs (congrArg ControlState.cs hc) (congrArg ControlState.activity hc) (fun hs => ?_) ?_
      (.inr (.inr (congrArg (some ∘ ControlState.nextRip) hc).symm))
    · rw [State.control_toNext, hc]
      exact ⟨hs.cr0, hs.cr4, hs.efer, hs.apicBase, cr8_fixed_of_shift hv⟩
    · intro hf
      rw [show (s.freeStatus.writeCr8 (s.reg r)).toNext.rflags = s.freeStatus.rflags from congrArg ControlState.rflags hc]
      exact s.freeStatus_legal hf

/-! ## Model-specific registers -/

/-- What WRMSR writes of `State.control`: IA32_APIC_BASE and, as the task-priority register, CR8; with their fixed bits. -/
structure State.WritesMsr (s t : State) : Prop where
  control : t.control = { s.control with apicBase := t.plat.apicBase, cr8 := t.cr8 }
  fixed : s.control.Fixed → t.control.Fixed

theorem State.WritesMsr.of_control {t : State} (h : t.control = s.control) : s.WritesMsr t where
  control := by
    rw [h, show t.plat.apicBase = s.plat.apicBase from congrArg ControlState.apicBase h, show t.cr8 = s.cr8 from congrArg ControlState.cr8 h]
    rfl
  fixed hs := h ▸ hs

theorem forall_mem_ite {α : Type} {Q : α → Prop} {c : Prop} [Decidable c] {a b : Option α} (ha : ∀ t ∈ a, Q t) (hb : ∀ t ∈ b, Q t) :
    ∀ t ∈ (if c then a else b), Q t := by
  split
  · exact ha
  · exact hb

/-- IA32_APIC_BASE aside, the plain MSRs are none of `State.control`: IA32_EFER is not written. -/
theorem State.writePlainMsr_control {i : Nat} (hi : i ≠ 0x1B) (v : Word) : ∀ t ∈ s.writePlainMsr i v, t.control = s.control := by
  rw [State.writePlainMsr, if_neg hi]
  repeat' refine forall_mem_ite (by rintro _ ⟨⟩; rfl) ?_
  rintro _ ⟨⟩

theorem PlatformMsrs.mcWrite_apicBase (m : PlatformMsrs) (i : Nat) (v : Word) : ∀ n ∈ m.mcWrite i v, n.apicBase = m.apicBase := by
  unfold PlatformMsrs.mcWrite
  refine forall_mem_ite (by rintro _ ⟨⟩) ?_
  repeat' refine forall_mem_ite (by rintro _ ⟨⟩; rfl) ?_
  rintro _ ⟨⟩; rfl

/-- No bank register is one of `State.control`. -/
theorem State.writeBankMsr_control (i : Nat) (v : Word) : ∀ t ∈ s.writeBankMsr i v, t.control = s.control := by
  unfold State.writeBankMsr
  refine forall_mem_ite (Option.forall_mem_map.2 fun _ _ => rfl) ?_
  refine forall_mem_ite (Option.forall_mem_map.2 fun _ _ => rfl) ?_
  refine forall_mem_ite (forall_mem_ite (by rintro _ ⟨⟩; rfl) (by rintro _ ⟨⟩; rfl)) ?_
  refine forall_mem_ite (Option.forall_mem_map.2 fun _ _ => rfl) ?_
  refine forall_mem_ite (fun t ht => ?machineCheck) ?_
  case machineCheck =>
    obtain ⟨m, hm, rfl⟩ := Option.map_eq_some_iff.1 ht
    exact congrArg (fun a => { s.control with apicBase := a }) (s.plat.mcWrite_apicBase i v m hm)
  repeat' refine forall_mem_ite (Option.forall_mem_map.2 fun _ _ => rfl) ?_
  rintro _ ⟨⟩

theorem State.writeMsr_writes (i : Nat) (v : Word) : Res.Ends s.WritesMsr (s.writeMsr i v) := by
  refine .ite (fun hok => ?_) fun _ => .error _
  split
  · next t ht =>
    by_cases hi : i = 0x1B
    · subst hi
      cases (Option.some.inj ht : _ = t)
      simp only [State.msrWriteOk, Nat.reduceEqDiff, if_false, if_true, Bool.and_eq_true] at hok
      obtain ⟨⟨⟨h10, h11⟩, -⟩, -⟩ := hok
      exact .ok ⟨rfl, fun hs => ⟨hs.cr0, hs.cr4, hs.efer, apicBase_fixed h10 h11 _, hs.cr8⟩⟩
    · exact .ok (.of_control (State.writePlainMsr_control hi v t ht))
  · split
    · next t ht => exact .ok (.of_control (State.writeBankMsr_control i v t ht))
    · refine .ite (fun _ => .ok ?_) fun _ => .error _
      unfold State.writeApic
      dsimp only
      split
      · refine ⟨rfl, fun hs => ⟨hs.cr0, hs.cr4, hs.efer, hs.apicBase, ?_⟩⟩
        exact cr8_fixed_of_and (v >>> 4)
      · exact .of_control rfl

theorem wrmsr_keeps {t : State} (h : execWrmsr s = .next t) : s.Keeps (some s.nextRip) t := by
  refine finish_keeps h (.bind fun _ _ => .bind fun u hu => .ok ?_)
  have hs : (if enablesCounters s.msrIndex then s.settleCounters else s).control = s.control := by split <;> rfl
  have hw := State.writeMsr_writes _ _ u hu
  have hc := hw.control
  rw [hs] at hc
  exact .of_same_cs (congrArg ControlState.cs hc) (congrArg ControlState.activity hc) (fun h => hw.fixed (hs ▸ h))
    (fun hf => by rwa [show u.toNext.rflags = s.rflags from congrArg ControlState.rflags hc]) (.inr (.inr (congrArg (some ∘ ControlState.nextRip) hc).symm))

theorem rdmsr_keeps {t : State} (h : execRdmsr s = .next t) : s.Keeps (some s.nextRip) t := by
  refine finish_keeps h (.bind fun _ _ => .bind fun ⟨v, u⟩ hu => .ok (.toNext ?_))
  have hc : u.control = s.control := by
    unfold State.readMsr at hu
    repeat' split at hu
    all_goals cases hu <;> rfl
  exact hc

end Sys2Proof.Machine

namespace Sys2Proof.Machine

variable {s : State} {next : Option Word}

/-! ## Changes of the activity state -/

/-- In an activity state other than the two that start at a 64-bit address any RIP of the mode fits. -/
theorem State.setActivity_carries (s : State) {a : Activity} (hsenter : a ≠ .senterSleep) (hsipi : a ≠ .waitForSipi) :
    s.Carries (s.setActivity a) :=
  ⟨fun h => ⟨h.cr0, h.cr4, h.efer, h.apicBase, h.cr8⟩, id, fun _ h => h.imp id fun ⟨hrip, _⟩ => ⟨hrip, hsenter, hsipi⟩⟩

theorem State.shutdown_keeps (s : State) (kind : ShutdownKind) : s.Keeps next (s.setActivity (.shutdown kind)) :=
  (State.Keeps.refl next s).trans (s.setActivity_carries nofun nofun)

theorem halt_keeps {t : State} (h : s.halt = .next t) : s.Keeps (some s.nextRip) t :=
  finish_keeps h (.bind fun _ _ => .ok ((State.Keeps.toNext rfl).trans (s.toNext.setActivity_carries (a := .halted) nofun nofun)))

/-! ## GETSEC -/

theorem State.mode64_of_cpl0 (hmode : s.legalMode = true) (h0 : s.cpl0 = true) : s.cs.l = true := by
  have hdpl : s.ss.dpl = 0 := by simpa [State.cpl0] using h0
  simpa [State.legalMode, hdpl] using hmode

/-- What GETSEC leaves in ring 0: the code segment, the fixed bits and legal flags. -/
structure State.StaysInCode (s t : State) : Prop where
  cs : t.cs = s.cs
  fixed : s.control.Fixed → t.control.Fixed
  flags : flagsLegal s.rflags → flagsLegal t.rflags

/-- Ring 0 is 64-bit mode, where any RIP fits. -/
theorem State.StaysInCode.keeps {t : State} (h : s.StaysInCode t) (h0 : s.cpl0 = true) : s.Keeps next t :=
  ⟨h.fixed, h.flags, fun hm _ => .inl (h.cs ▸ State.mode64_of_cpl0 hm h0)⟩

theorem State.StaysInCode.of_control {t : State} (h : t.control = s.control) : s.StaysInCode t :=
  ⟨congrArg ControlState.cs h, fun hs => h ▸ hs, fun hf => by rwa [show t.rflags = s.rflags from congrArg ControlState.rflags h]⟩

theorem State.StaysInCode.trans {t u : State} (h : s.StaysInCode u) (h' : u.StaysInCode t) : s.StaysInCode t :=
  ⟨h'.cs.trans h.cs, h'.fixed ∘ h.fixed, h'.flags ∘ h.flags⟩

theorem State.txtShutdown_stays (s : State) (code : TxtError) : s.StaysInCode (s.txtShutdown code) :=
  ⟨rfl, (s.shutdown_keeps (next := none) _).fixed, id⟩

theorem State.physWrite8_control {t : State} {pa : Nat} {v : Word} (h : s.physWrite8 pa v = .ok t) : t.control = s.control := by
  have hends : Res.Ends (fun t => t.control = s.control) (s.physWrite8 pa v) := .bind fun _ _ => .ok (s.control_putBytes _ _)
  exact hends t h

theorem State.saveSsa_control (s : State) (base : Nat) : Res.Ends (fun t => t.control = s.control) (s.saveSsa base) :=
  .bind fun _ h1 => .bind fun _ h2 => .bind fun _ h3 => .bind fun _ h4 => .bind fun _ h5 => fun _ h6 => by
    rw [State.physWrite8_control h6, State.physWrite8_control h5, State.physWrite8_control h4, State.physWrite8_control h3,
      State.physWrite8_control h2, State.physWrite8_control h1]

/-- The module's environment has the fixed bits of CR0 and CR4 and no flag set (R394, R396). -/
theorem State.enterAcm_stays (s : State) : s.StaysInCode s.enterAcm :=
  ⟨rfl, fun hs => ⟨cr0Of_fixed _, show acmCr4 &&& 0x22 = 0x20 from rfl, hs.efer, hs.apicBase, hs.cr8⟩, fun _ => flagsLegal_two⟩

theorem State.runAcm_stays (s : State) : Res.Ends s.StaysInCode s.runAcm := by
  unfold State.runAcm
  split
  · exact .ok (s.txtShutdown_stays _)
  · refine .bind fun u hu => .ok ?_
    exact ((State.StaysInCode.of_control (s.saveSsa_control _ u hu)).trans u.enterAcm_stays).trans (.of_control rfl)

theorem State.enterChecks_cpl0 (s : State) : Res.Ends (fun _ => s.cpl0 = true) s.enterChecks :=
  .bind fun _ h _ _ => by
    have h := raiseIf_ok.1 h
    simp only [Bool.or_eq_false_iff, Bool.not_eq_false'] at h
    obtain ⟨⟨⟨⟨⟨-, h0⟩, -⟩, -⟩, -⟩, -⟩ := h
    exact h0

theorem State.loadAcm_control (s : State) : s.loadAcm.control = s.control := by
  simp [State.loadAcm]
  rfl

theorem State.enterAccs_keeps (s : State) : Res.Ends (s.Keeps next) s.enterAccs := by
  refine .bind fun u hu => .bind fun _ _ => ?_
  have h0 := s.enterChecks_cpl0 u hu
  have hload : s.StaysInCode s.loadAcm := .of_control s.loadAcm_control
  split
  · exact .ok ((hload.trans (s.loadAcm.txtShutdown_stays _)).keeps h0)
  · intro t ht
    have hcopy : s.loadAcm.StaysInCode s.loadAcm.copySignatures := .of_control (s.loadAcm.control_setAcram _)
    exact ((hload.trans hcopy).trans (s.loadAcm.copySignatures.runAcm_stays t ht)).keeps h0

theorem State.exitAc_keeps (s : State) : Res.Ends (s.Keeps next) s.exitAc := by
  refine .bind fun _ hguard => .bind fun _ _ => .bind fun rip _ => .bind fun rsp _ => .bind fun cr4 _ => .bind fun cr3 _ =>
    .bind fun config _ => .bind fun levels _ => .bind fun _ _ => .ite (fun _ => .error _) fun hcr4 => .ok ?_
  have h0 : s.cpl0 = true := by
    have h := raiseIf_ok.1 hguard
    simp only [Bool.or_eq_false_iff, Bool.not_eq_false'] at h
    obtain ⟨⟨⟨⟨-, h0⟩, -⟩, -⟩, -⟩ := h
    exact h0
  have h4 := (cr4FixedOk_iff cr4).1 (by simpa using hcr4)
  dsimp only
  generalize ht : State.setRip _ _ = t
  have hc : t.control = { s.control with cr4 := cr4 } := by rw [← ht]; simp; rfl
  refine State.StaysInCode.keeps ⟨congrArg ControlState.cs hc, fun hs => ?_, fun hf => ?_⟩ h0
  · rw [hc]; exact ⟨hs.cr0, h4, hs.efer, hs.apicBase, hs.cr8⟩
  · rwa [show t.rflags = s.rflags from congrArg ControlState.rflags hc]

theorem getsec_keeps {t : State} (h : execGetsec s = .next t) : s.Keeps (some s.nextRip) t := by
  refine finish_keeps h ?_
  refine .ite (fun _ => .error _) fun _ => .ite (fun _ => .error _) fun _ => .ite (fun _ => .error _) fun _ => ?_
  refine .ite (fun _ => .ok (.toNext rfl)) fun _ => ?_
  refine .ite (fun _ => s.enterAccs_keeps) fun _ => .ite (fun _ => s.exitAc_keeps) fun _ => ?_
  refine .ite (fun _ => .bind fun u hu => .ok ((s.enterAccs_keeps u hu).trans ⟨id, id, fun _ => id⟩)) fun _ => ?_
  refine .ite (fun _ => .bind fun _ _ => .ok (.toNext rfl)) fun _ => .ite (fun _ => .ok (.toNext rfl)) fun _ => ?_
  refine .ite (fun _ => .bind fun _ _ => .bind fun _ _ => .ok (.toNext rfl)) fun _ => ?_
  exact .ite (fun _ => .bind fun _ _ => .ok (.toNext rfl)) fun _ => .error _

/-! ## VM entry -/

/-- The RIP of a guest area that VM entry accepts fits the guest's mode (R367). -/
theorem VmcsGuest.addressesOk_rip {g : VmcsGuest} {la57 : Bool} (h : g.addressesOk la57 = true) : ripAllowed (arL g.csAr) g.rip := by
  simp only [VmcsGuest.addressesOk, Bool.and_eq_true] at h
  obtain ⟨-, h⟩ := h
  split at h
  · next hl => exact .inl hl
  · exact .inr (by simpa using h)

theorem loadedActivity_ne (code : DWord) : loadedActivity code ≠ .senterSleep ∧ loadedActivity code ≠ .waitForSipi := by
  unfold loadedActivity
  split
  · exact ⟨nofun, nofun⟩
  · split <;> exact ⟨nofun, nofun⟩

/-- A guest area that VM entry accepts has legal flags and a RIP of its mode; CR0 and CR4 are loaded with their fixed bits (R366 to R369). -/
theorem State.loadGuest_keeps {g : VmcsGuest} (h : s.guestOk g = true) : s.Keeps next (s.loadGuest g) := by
  simp only [State.guestOk, Bool.and_eq_true] at h
  obtain ⟨⟨⟨⟨-, hflags⟩, -⟩, -⟩, haddr⟩ := h
  refine ⟨fun hs => ⟨cr0Of_fixed _, cr4Of_fixed _, hs.efer, hs.apicBase, hs.cr8⟩, fun _ => flagsLegal_of_guestFlagsOk hflags,
    fun _ _ => (VmcsGuest.addressesOk_rip haddr).imp id fun hr => ⟨.inl hr, loadedActivity_ne g.activity⟩⟩

theorem State.entryFailure_keeps (s : State) (v : Vmcs) : s.Keeps next (s.entryFailure v) :=
  ((State.Keeps.refl next s).trans (s.loadHost_carries v.host)).trans ⟨id, id, fun _ => id⟩

theorem State.vmFailInvalid_keeps (s : State) : s.Keeps (some s.nextRip) s.vmFailInvalid :=
  .toNext_flags rfl fun hf => hf.status _

theorem State.vmFailValid_keeps (s : State) (v : Vmcs) (n : DWord) : s.Keeps (some s.nextRip) (s.vmFailValid v n) :=
  .toNext_flags (f := mergeBits s.rflags statusMask 0x40) rfl fun hf => hf.status _

theorem State.enterGuest_keeps {v : Vmcs} (hok : s.guestOk v.guest = true) {t : State} (h : s.enterGuest v = .next t) :
    s.Keeps next t := by
  have hk : s.Keeps next ((s.loadGuest v.guest).setVmx (.nonRoot { v with ctl := { v.ctl with launched := true } })) :=
    (State.loadGuest_keeps hok).trans ⟨id, id, fun _ => id⟩
  unfold State.enterGuest at h
  dsimp only at h
  split at h
  · exact (s.keeps_closed next).deliver hk h
  · cases h; exact hk

theorem State.vmEntry_keeps {launch : Bool} {t : State} (h : s.vmEntry launch = .next t) : s.Keeps (some s.nextRip) t := by
  have hraise : ∀ {e : Exc}, finish s (raise e) = .next t → s.Keeps (some s.nextRip) t :=
    fun h => finish_keeps h (.error _)
  unfold State.vmEntry at h
  split at h
  · exact hraise h
  · split at h
    · exact hraise h
    · cases h; exact (State.Keeps.refl _ s).trans (s.vmExit_carries _ _ _ _)
  · split at h
    · exact hraise h
    split at h
    · exact hraise h
    split at h
    · cases h; exact s.vmFailInvalid_keeps
    split at h
    · cases h; exact s.vmFailValid_keeps _ _
    split at h
    · cases h; exact s.vmFailValid_keeps _ _
    split at h
    · cases h; exact s.vmFailValid_keeps _ _
    split at h
    · cases h; exact s.vmFailValid_keeps _ _
    split at h
    · cases h; exact s.entryFailure_keeps _
    next hok =>
      simp only [Bool.not_eq_true', Bool.not_eq_false, Bool.and_eq_true] at hok
      exact State.enterGuest_keeps hok.1 h

theorem seamret_keeps {t : State} (h : execSeamret s = .next t) : s.Keeps (some s.nextRip) t := by
  unfold execSeamret at h
  split at h
  · exact finish_keeps h (.error _)
  split at h
  · exact finish_keeps h (.error _)
  split at h
  · split at h
    · next hok => cases h; exact (State.loadGuest_keeps hok).trans ⟨id, id, fun _ => id⟩
    · cases h; exact s.entryFailure_keeps _
  · cases h; exact s.vmFailInvalid_keeps

end Sys2Proof.Machine

namespace Sys2Proof.Machine

variable {s : State}

/-! ## Instructions -/

theorem State.inAl_keeps (imm : Bool) (port : Half) : Res.Ends (s.Keeps (some s.nextRip)) (s.inAl imm port) :=
  .bind fun _ _ => .ok (.toNext rfl)

theorem State.inEax_keeps (p : Pfx) (imm : Bool) (port : Half) : Res.Ends (s.Keeps (some s.nextRip)) (s.inEax p imm port) :=
  .bind fun _ _ => .ok (.toNext (by simp))

theorem State.outAl_keeps (imm : Bool) (port : Half) : Res.Ends (s.Keeps (some s.nextRip)) (s.outAl imm port) :=
  .bind fun _ _ => .ok (.toNext rfl)

theorem State.outEax_keeps (p : Pfx) (imm : Bool) (port : Half) : Res.Ends (s.Keeps (some s.nextRip)) (s.outEax p imm port) :=
  .bind fun _ _ => .ok (.toNext rfl)

theorem cpuid_keeps {t : State} (h : execCpuid s = .next t) : s.Keeps (some s.nextRip) t :=
  finish_keeps h (.ite (fun _ => .error _) fun _ => .ok (.toNext rfl))

theorem lea_keeps (p : Pfx) (r : Reg) (m : Mem) {t : State} (h : execLea p r m s = .next t) : s.Keeps (some s.nextRip) t :=
  finish_keeps h (.ok (.toNext (by simp)))

theorem nop_keeps {t : State} (h : execNop s = .next t) : s.Keeps (some s.nextRip) t :=
  finish_keeps h (.ok (.toNext rfl))

/-- The removed instructions. -/
theorem ud_keeps {next : Option Word} {t : State} (h : finish s raiseUd = .next t) : s.Keeps next t :=
  finish_keeps h (.error _)

theorem rsm_keeps (hrun : s.activity = .running) {next : Option Word} {t : State} (h : execRsm s = .next t) : s.Keeps next t :=
  finish_keeps h (.ite (fun _ => .ok (s.restoreSmm_keeps hrun _)) fun _ => .error _)

theorem into_keeps {t : State} (h : execInto s = .next t) : s.Keeps (some s.nextRip) t := by
  unfold execInto at h
  split at h
  · exact finish_keeps h (.error _)
  split at h
  · exact s.deliver_keeps _ h
  · exact finish_keeps h (.ok (.toNext rfl))

/-- Every instruction that a running processor executes keeps what the statements ask. -/
theorem exec_keeps {i : Instr} {t : State} (hrun : s.activity = .running) (h : exec i s = .next t) : s.Keeps (some s.nextRip) t := by
  cases i with
  | jccRel8 p cc rel => exact finish_keeps h (.bind fun _ _ => s.branchRel_keeps rfl _ _)
  | jccRel32 p cc rel => exact finish_keeps h (.bind fun _ _ => s.branchRel_keeps rfl _ _)
  | loopneRel8 p rel => exact finish_keeps h (s.loopWhile_keeps p rel _)
  | loopeRel8 p rel => exact finish_keeps h (s.loopWhile_keeps p rel _)
  | loopRel8 p rel => exact finish_keeps h (s.loopWhile_keeps p rel _)
  | jecxzRel8 p rel => exact finish_keeps h (s.jumpIfZero_keeps p rel)
  | jrcxzRel8 p rel => exact finish_keeps h (s.jumpIfZero_keeps p rel)
  | jmpRel8 p rel => exact finish_keeps h (.bind fun _ _ => s.branchRel_keeps rfl _ _)
  | jmpRel32 p rel => exact finish_keeps h (.bind fun _ _ => s.branchRel_keeps rfl _ _)
  | callRel32 p rel => exact finish_keeps h (.bind fun _ _ => .bind fun v hv => s.callTo_keeps p (s.nearTarget_fits _ v hv))
  | jmpRM p rm => exact finish_keeps h (.bind fun v hv => .ok (.of_control rfl ((s.nearOperand_fits p rm v hv).imp id .inl)))
  | callRM p rm => exact finish_keeps h (.bind fun v hv => s.callTo_keeps p (s.nearOperand_fits p rm v hv))
  | ret p => exact finish_keeps h (s.nearReturn_keeps p 0)
  | retImm16 p imm => exact finish_keeps h (s.nearReturn_keeps p _)
  | lea p r m => exact lea_keeps p r m h
  | nop => exact nop_keeps h
  | nopRM p rm => exact nop_keeps h
  | callPtr p off sel => exact finish_keeps h (.bind fun _ _ => .bind fun _ _ => s.farCall_keeps hrun _ _ _)
  | callFarM p m => exact finish_keeps h (.bind fun _ _ => .bind fun _ _ => s.farCall_keeps hrun _ _ _)
  | jmpPtr p off sel => exact finish_keeps h (.bind fun _ _ => .bind fun _ _ => .bind fun _ _ => s.farJmp_keeps hrun _ _)
  | jmpFarM p m => exact finish_keeps h (.bind fun _ _ => .bind fun _ _ => s.farJmp_keeps hrun _ _)
  | retFar p => exact finish_keeps h (s.farRet_keeps hrun p 0)
  | retFarImm16 p imm => exact finish_keeps h (s.farRet_keeps hrun p _)
  | iret p => exact finish_keeps h (.bind fun _ _ => .bind fun _ _ => s.returnFromEvent_keeps hrun _)
  | intImm8 imm => exact s.deliver_keeps _ h
  | int3 => exact s.deliver_keeps _ h
  | into => exact into_keeps h
  | int1 => exact s.deliver_keeps _ h
  | syscall => exact syscall_keeps hrun h
  | sysenter => exact sysenter_keeps hrun h
  | sysret p => exact sysret_keeps hrun p h
  | sysexit p => exact sysexit_keeps hrun p h
  | eretu => exact eretu_keeps hrun h
  | erets => exact erets_keeps h
  | rsm => exact rsm_keeps hrun h
  | movSregRM p sr rm => exact s.movSreg_keeps p sr rm h
  | popEs p => exact finish_keeps h (.bind fun _ _ => s.popSreg_keeps p _)
  | popSs p => exact finish_keeps h (.bind fun _ _ => s.popSreg_keeps p _)
  | popDs p => exact finish_keeps h (.bind fun _ _ => s.popSreg_keeps p _)
  | popFs p => exact finish_keeps h (s.popSreg_keeps p _)
  | popGs p => exact finish_keeps h (s.popSreg_keeps p _)
  | lds p r m => exact finish_keeps h (.bind fun _ _ => s.loadFar_keeps p _ r m)
  | les p r m => exact finish_keeps h (.bind fun _ _ => s.loadFar_keeps p _ r m)
  | lss p r m => exact finish_keeps h (s.loadFar_keeps p _ r m)
  | lfs p r m => exact finish_keeps h (s.loadFar_keeps p _ r m)
  | lgs p r m => exact finish_keeps h (s.loadFar_keeps p _ r m)
  | lkgs p rm => exact finish_keeps h (.bind fun _ _ => .bind fun _ _ => .bind fun _ _ => .ok (.toNext rfl))
  | movRMSreg p sr rm => exact s.storeSreg_keeps p sr rm h
  | pushEs p => exact finish_keeps h (.bind fun _ _ => s.pushSreg_keeps p _)
  | pushCs p => exact finish_keeps h (.bind fun _ _ => s.pushSreg_keeps p _)
  | pushSs p => exact finish_keeps h (.bind fun _ _ => s.pushSreg_keeps p _)
  | pushDs p => exact finish_keeps h (.bind fun _ _ => s.pushSreg_keeps p _)
  | pushFs p => exact finish_keeps h (s.pushSreg_keeps p _)
  | pushGs p => exact finish_keeps h (s.pushSreg_keeps p _)
  | sgdt p m => exact finish_keeps h (s.storeTable_keeps p m _)
  | sidt p m => exact finish_keeps h (s.storeTable_keeps p m _)
  | lgdt p m => exact finish_keeps h (.bind fun _ _ => .ok (.toNext rfl))
  | lidt p m => exact finish_keeps h (.bind fun _ _ => .ok (.toNext rfl))
  | sldt p rm => exact finish_keeps h (s.storeSel_keeps p rm _)
  | str p rm => exact finish_keeps h (s.storeSel_keeps p rm _)
  | lldt p rm =>
    exact finish_keeps h (.bind fun _ _ => .bind fun _ _ => .ite (fun _ => .ok (.toNext rfl)) fun _ => .bind fun _ _ => .ok (.toNext rfl))
  | ltr p rm => exact finish_keeps h (.bind fun _ _ => .bind fun _ _ => .bind fun _ _ => .bind fun _ _ => .ok (.toNext rfl))
  | verr p rm => exact finish_keeps h (s.queryOk_keeps p rm)
  | verw p rm => exact finish_keeps h (s.queryOk_keeps p rm)
  | lar p r rm => exact finish_keeps h (s.queryValue_keeps p r rm _)
  | lsl p r rm => exact finish_keeps h (s.queryValue_keeps p r rm _)
  | arpl p rm r => exact arpl_keeps s p rm r h
  | swapgs => exact finish_keeps h (.bind fun _ _ => .bind fun _ _ => .bind fun _ _ => .ok (.toNext rfl))
  | rdfsbase p r => exact finish_keeps h (.bind fun _ _ => .ok (.toNext (by simp)))
  | rdgsbase p r => exact finish_keeps h (.bind fun _ _ => .ok (.toNext (by simp)))
  | wrfsbase p r => exact finish_keeps h (.bind fun _ _ => .ok (.toNext rfl))
  | wrgsbase p r => exact finish_keeps h (.bind fun _ _ => .ok (.toNext rfl))
  | movRCr crn r => exact movRCr_keeps crn r h
  | movCr0R r => exact movCr0_keeps r h
  | movCr2R r => exact finish_keeps h (.bind fun _ _ => .ok (.toNext_flags rfl s.freeStatus_legal))
  | movCr3R r => exact finish_keeps h (.bind fun _ _ => .bind fun _ _ => .ok (.toNext_flags rfl s.freeStatus_legal))
  | movCr4R r => exact movCr4_keeps r h
  | movCr8R r => exact movCr8_keeps r h
  | lmsw p rm => exact ud_keeps h
  | rdmsr => exact rdmsr_keeps h
  | wrmsr => exact wrmsr_keeps h
  | cpuid => exact cpuid_keeps h
  | popf p => exact popf_keeps p h
  | popf16 p => exact popf16_keeps p h
  | pushf p => exact finish_keeps h (.bind fun _ hu => .ok (.toNext (State.pushAll_control hu)))
  | cli => exact cli_keeps h
  | sti => exact sti_keeps h
  | inAlImm imm => exact finish_keeps h (s.inAl_keeps _ _)
  | inEaxImm p imm => exact finish_keeps h (s.inEax_keeps p _ _)
  | outImmAl imm => exact finish_keeps h (s.outAl_keeps _ _)
  | outImmEax p imm => exact finish_keeps h (s.outEax_keeps p _ _)
  | inAlDx => exact finish_keeps h (s.inAl_keeps _ _)
  | inEaxDx p => exact finish_keeps h (s.inEax_keeps p _ _)
  | outDxAl => exact finish_keeps h (s.outAl_keeps _ _)
  | outDxEax p => exact finish_keeps h (s.outEax_keeps p _ _)
  | insb => exact ud_keeps h
  | insd => exact ud_keeps h
  | outsb => exact ud_keeps h
  | outsd => exact ud_keeps h
  | vmlaunch => exact s.vmEntry_keeps h
  | vmresume => exact s.vmEntry_keeps h
  | seamret => exact seamret_keeps h
  | getsec => exact getsec_keeps h

end Sys2Proof.Machine

namespace Sys2Proof.Machine

variable {s : State}

/-! ## Events -/

/-- The list of pending events is none of what the statements speak of. -/
theorem State.Keeps.of_setPending {next : Option Word} {p : Pending} {t : State} (h : (s.setPending p).Keeps next t) : s.Keeps next t :=
  ⟨h.fixed, h.flags, h.rip⟩

theorem State.Carries.keeps {next : Option Word} {t : State} (h : s.Carries t) : s.Keeps next t := (State.Keeps.refl next s).trans h

/-- An update that writes nothing the statements speak of, and then a delivery. -/
theorem State.Carries.deliver_keeps {next : Option Word} {u t : State} {e : Event} {b : Bool} (h : u.deliver e b = .next t)
    (hu : s.Carries u) : s.Keeps next t :=
  (s.keeps_closed next).deliver hu.keeps h

theorem State.resetOf_fixed (c : Config) : (State.resetOf c).control.Fixed where
  cr0 := show (0x80000033 : Word) &&& ~~~(0x40050008 : Word) = 0x80000033 from rfl
  cr4 := show (0x20 : Word) &&& 0x22 = 0x20 from rfl
  efer := rfl
  apicBase := by
    show (if c.isBsp then (0xFEE00D00 : Word) else 0xFEE00C00) &&& 0xC00 = 0xC00
    cases c.isBsp <;> rfl
  cr8 := show (0 : Word) &&& ~~~(0xF : Word) = 0 from rfl

theorem State.platformReset_carries (s : State) : s.Carries s.platformReset :=
  .of_mode64 rfl (fun _ => State.resetOf_fixed s.cfg) fun _ => flagsLegal_two

theorem State.machineCheck_keeps {next : Option Word} {t : State} (h : s.machineCheck = .next t) : s.Keeps next t := by
  unfold State.machineCheck at h
  split at h
  · cases h; exact s.shutdown_keeps _
  · exact State.Carries.deliver_keeps h ⟨fun hs => ⟨hs.cr0, hs.cr4, hs.efer, hs.apicBase, hs.cr8⟩, id, fun _ => id⟩

theorem State.initRegisters_fixed (hs : s.control.Fixed) : s.initRegisters.control.Fixed :=
  ⟨cr0Of_fixed _, show (0x20 : Word) &&& 0x22 = 0x20 from rfl, hs.efer, hs.apicBase, hs.cr8⟩

theorem State.initEvent_carries (s : State) : s.Carries s.initEvent := by
  unfold State.initEvent
  have h : s.Carries s.initRegisters := .of_mode64 rfl State.initRegisters_fixed fun _ => flagsLegal_two
  split
  · exact s.vmExit_carries _ _ _ _
  · split
    · exact ⟨fun hs => (h.fixed hs).congr rfl, h.flags, fun _ _ => .inl rfl⟩
    · exact ⟨fun hs => (h.fixed hs).congr rfl, h.flags, fun _ _ => .inl rfl⟩

/-- A processor that waits for SIPI is in 64-bit mode, and stays there (R452). -/
theorem State.sipiEvent_keeps {next : Option Word} (hwait : s.activity = .waitForSipi) (v : BitVec 8) :
    Res.Ends (s.Keeps next) (s.sipiEvent v) := by
  refine .ite (fun _ => .ok (s.shutdown_keeps _)) fun _ => .ite (fun _ => .ok (s.shutdown_keeps _)) fun _ => ?_
  refine .bind fun _ _ => .ite (fun _ => .ok (s.shutdown_keeps _)) fun _ => ?_
  refine .bind fun cr4 _ => .bind fun _ _ => .bind fun cr0 _ => .bind fun _ _ => .ite (fun hok => .ok ?_) fun _ => .ok (s.shutdown_keeps _)
  simp only [Bool.and_eq_true, State.sipiCr4Ok] at hok
  obtain ⟨⟨⟨⟨⟨⟨h4, -⟩, -⟩, -⟩, -⟩, -⟩, -⟩ := hok
  refine ⟨fun hs => ⟨cr0Of_fixed cr0, (cr4FixedOk_iff cr4).1 h4, hs.efer, hs.apicBase, hs.cr8⟩, id, fun _ hs => .inl ?_⟩
  exact hs.resolve_right fun ⟨_, _, h⟩ => h hwait

/-- So is one that sleeps in SENTER (R399). -/
theorem State.rlpWake_keeps {next : Option Word} (hsleep : s.activity = .senterSleep) : Res.Ends (s.Keeps next) s.rlpWake := by
  refine .ite (fun _ => .ok (s.shutdown_keeps _)) fun _ => .bind fun rip _ => .bind fun cr3 _ => .bind fun cr4 _ => ?_
  have hmasked : s.StaysInCode ((s.setSmx s.wakeMasks).setTlb Tlb.empty) := .of_control (by simp)
  generalize (s.setSmx s.wakeMasks).setTlb Tlb.empty = u at hmasked ⊢
  have hkeeps : ∀ {t : State}, s.StaysInCode t → s.Keeps next t := fun h =>
    ⟨h.fixed, h.flags, fun _ hs => .inl (h.cs ▸ hs.resolve_right fun ⟨_, hne, _⟩ => hne hsleep)⟩
  refine .ite (fun _ => .ok (hkeeps (hmasked.trans (u.txtShutdown_stays _)))) fun _ => .ok (hkeeps (hmasked.trans ?_))
  exact ⟨rfl, fun hs => ⟨hs.cr0, cr4Of_fixed cr4, hs.efer, hs.apicBase, hs.cr8⟩, id⟩

theorem State.stmActivate_carries (s : State) : s.Carries s.stmActivate :=
  .of_mode64 rfl (fun hs => ⟨hs.cr0, cr4_setFred_fixed hs.cr4 false, hs.efer, hs.apicBase, hs.cr8⟩) id

theorem State.takeDb_keeps {next : Option Word} {causes : Word} {t : State} (h : s.takeDb causes = .next t) : s.Keeps next t := by
  unfold State.takeDb at h
  dsimp only at h
  split at h
  · cases h; exact (s.vmExit_carries _ _ _ _).keeps
  · exact State.Carries.deliver_keeps h ⟨fun hs => ⟨hs.cr0, hs.cr4, hs.efer, hs.apicBase, hs.cr8⟩, id, fun _ => id⟩

theorem State.senterSleep_of_due (h : s.due = some .wakeup) : s.activity = .senterSleep := by
  unfold State.due at h
  repeat' split at h
  all_goals simp_all

theorem State.takeDue_keeps {d : Due} {t : State} (hd : s.due = some d) (h : s.takeDue d = .next t) : s.Keeps none t := by
  cases d with
  | reset => cases h; exact s.platformReset_carries.keeps
  | machineCheck => exact .of_setPending (State.machineCheck_keeps h)
  | smi => cases h
  | init => cases h; exact .of_setPending (State.initEvent_carries _).keeps
  | sipi v =>
    refine .of_setPending (p := s.pending.without (.sipi v)) ?_
    unfold State.takeDue at h
    dsimp only at h
    split at h
    · next hwait => exact finish_keeps h (State.sipiEvent_keeps hwait v)
    · cases h; exact .refl _ _
  | wakeup => exact .of_setPending (finish_keeps h (State.rlpWake_keeps (show s.activity = _ from State.senterSleep_of_due hd)))
  | stm => cases h; exact .of_setPending (State.stmActivate_carries _).keeps
  | trap =>
    have hk : State.Keeps none _ t := State.takeDb_keeps h
    exact ⟨hk.fixed, hk.flags, hk.rip⟩
  | nmi => exact .of_setPending (State.deliver_keeps none h)
  | intr v => exact .of_setPending (State.deliver_keeps none h)
  | codeBreak => exact .of_setPending (State.takeDb_keeps h)

/-! ## Steps -/

theorem State.retire_carries (b u : State) (k r : Bool) : u.Carries (b.retire u k r) := by
  have hrf : u.Carries (if k then u else u.setRflags (setBit u.rflags 16 false)) := by
    split
    · exact .refl u
    · exact ⟨fun hs => ⟨hs.cr0, hs.cr4, hs.efer, hs.apicBase, hs.cr8⟩, fun hf => hf.setBit false rfl rfl, fun _ => id⟩
  unfold State.retire
  dsimp only
  generalize (if k then u else u.setRflags (setBit u.rflags 16 false)) = v at hrf ⊢
  split
  · exact ⟨hrf.fixed, hrf.flags, hrf.rip⟩
  · exact hrf

/-- An instruction that ends at its next address, and is not refused there, ends at an address of its mode. -/
theorem State.ripFits_of_not_wrapped {b u : State} {g : Bool} (h : u.ripFits (some b.nextRip)) (hw : State.wrapped b u g = false) :
    u.ripFits none := by
  refine h.elim .inl fun ⟨hrip, hact⟩ => ?_
  rcases Bool.eq_false_or_eq_true u.cs.l with hl | hl
  · exact .inl hl
  · refine .inr ⟨.inl (hrip.elim id fun heq => ?_), hact⟩
    rw [shiftRight32_eq_zero_iff]
    have heq : u.rip = b.nextRip := (Option.some.inj heq).symm
    have hlow : b.nextRip.toNat < 2 ^ 32 ∧ (b.nextRip.toNat < b.rip.toNat → g = false) := by
      simpa [State.wrapped, heq, State.compat, hl] using hw
    rw [heq]; exact hlow.1

/-- What an instruction keeps that began in `b`, the step keeps that began in `s`. -/
theorem State.keeps_of_begun {b u : State} {g : Bool} (hfixed : s.control.Fixed → b.control.Fixed) (hflags : b.rflags = s.rflags)
    (hmode : b.legalMode = s.legalMode) (hrip : b.ripFits none ↔ s.ripFits none) (h : b.Keeps (some b.nextRip) u)
    (hw : State.wrapped b u g = false) : s.Keeps none u where
  fixed := h.fixed ∘ hfixed
  flags hs := h.flags (hflags ▸ hs)
  rip hm hs := State.ripFits_of_not_wrapped (h.rip (hmode ▸ hm) (hrip.2 hs)) hw

theorem step_keeps {t : State} (h : step s = .next t) : s.Keeps none t := by
  by_cases hrun : s.activity = .running
  · have hfixed : s.control.Fixed → ∀ n, (s.beginBytes n).control.Fixed := fun hs _ => ⟨hs.cr0, hs.cr4, hs.efer, hs.apicBase, hs.cr8⟩
    refine (s.keeps_closed none).step (.refl none s) h (fun d hd ht => State.takeDue_keeps hd ht)
      (fun n => ⟨fun hs => hfixed hs n, id, fun _ => id⟩) (fun i n => ⟨fun hs => hfixed hs n, id, fun _ => id⟩)
      (fun i n u g _ hu hw => ?_) (fun n u g _ hu hw => ?_) (fun b u k r hu => hu.trans (b.retire_carries u k r))
    · exact State.keeps_of_begun (b := s.beginInstr i n) (fun hs => hfixed hs n) rfl rfl Iff.rfl (exec_keeps hrun hu) hw
    · exact State.keeps_of_begun (fun hs => hfixed hs n) rfl rfl Iff.rfl (halt_keeps hu) hw
  · unfold step at h
    split at h
    · next d hd => exact State.takeDue_keeps hd h
    · rw [if_neg hrun] at h; cases h; exact .refl none s

/-! ## The statements -/

/-- Settles O8: `step_keeps`, of which the fixed bits are one part. -/
theorem stepKeepsFixedRegisters : Obligations.StepKeepsFixedRegisters := by
  intro s t hs ht
  rw [State.fixedRegisters_iff] at hs ⊢
  exact (step_keeps ht).fixed hs

/-- Settles O9: `step_keeps`, of which the flags are one part. -/
theorem stepKeepsFlags : Obligations.StepKeepsFlags := by
  intro s t hs ht
  rw [State.legalRflags_iff] at hs ⊢
  exact (step_keeps ht).flags hs

/-- Settles O10: `step_keeps`, of which RIP is one part; the legal mode is what makes ring 0, where EXITAC loads a whole RIP, 64-bit
mode. -/
theorem stepKeepsCompatRip : Obligations.StepKeepsCompatRip := by
  intro s t hmode hs ht
  rw [State.legalRip_iff] at hs ⊢
  exact (step_keeps ht).rip hmode hs

end Sys2Proof.Machine

/-! # The state after reset (O4, O5) -/

namespace Sys2Proof.Machine

theorem State.due_of_reset {s : State} (h : s.pending.reset = true) : s.due = some .reset := by
  rw [State.due, if_pos h]

theorem Gprs.get_reset (c : Config) (r : Reg) (hax : r ≠ .rax) (hdx : r ≠ .rdx) : (Gprs.reset c).get r = 0 := by
  cases r
  case rax => contradiction
  case rdx => contradiction
  all_goals rfl

/-- Settles O4: reset is due first, and every register of `State.resetOf` stands in its definition. -/
theorem resetRegisters : Obligations.ResetRegisters := by
  refine ⟨fun s h => ?_, fun c => ?_⟩
  · rw [step, State.due_of_reset h]
    rfl
  · have hmtrr : bit (0 : Word) 11 = false := rfl
    have hbank : ∀ (n : Nat), ∀ v ∈ List.replicate n (0 : Word), v = 0 := fun _ _ => List.eq_of_mem_replicate
    refine ⟨rfl, rfl, rfl, rfl, rfl, rfl, rfl, rfl, rfl, rfl, rfl, rfl, rfl, rfl, rfl, rfl, rfl, rfl, rfl, Gprs.get_reset c, rfl,
      fun h => ?_, rfl, rfl, rfl, rfl, rfl, rfl, rfl, rfl, fun _ => List.eq_of_mem_replicate,
      fun _ => List.eq_of_mem_replicate, hbank 8, rfl, rfl, rfl, rfl, rfl, rfl, hmtrr, rfl, rfl, rfl, rfl, rfl, rfl,
      hbank 8, hbank 8, hbank 3⟩
    show (if c.bistPassed then 0 else c.bistFailRax) = 0
    rw [if_pos h]

/-- The reset state has every property of `State.inv`, whatever the parameters. -/
theorem State.resetOf_inv (c : Config) : (State.resetOf c).inv = true := by
  obtain ⟨hmem, hacram⟩ := reset_mem_wf c
  have hmemWf : (State.resetOf c).memWf = true := by rw [State.memWf, hmem, hacram]; rfl
  have hfixed := (State.fixedRegisters_iff _).2 (State.resetOf_fixed c)
  have hflags : (State.resetOf c).legalRflags = true := (State.legalRflags_iff _).2 flagsLegal_two
  have hrip : (State.resetOf c).legalRip = true := (State.legalRip_iff _).2 (.inl rfl)
  rw [State.inv, hmemWf, hfixed, hflags, hrip]
  rfl

/-- Settles O5: the default parameters are one case. -/
theorem resetInvariant : Obligations.ResetInvariant := State.resetOf_inv Config.default

end Sys2Proof.Machine

/-! # Memory stays in canonical form (O6)

Memory changes by stores, which keep the form (`State.memOk_storeAt`, `State.memOk_putBytes`), and ACRAM also where GETSEC fills and
empties it. `State.memOk` of a state that differs in other fields is the same proposition. -/

namespace Sys2Proof.Machine

theorem State.memWf_iff (s : State) : s.memWf = true ↔ s.memOk := Bool.and_eq_true_iff

/-- Where the first part of a meaning answers what satisfies `R`, and the rest goes on from there. -/
theorem Res.Ends.andThen {α β : Type} {R : α → Prop} {Q : β → Prop} {first : Res α} {next : α → Res β} (h : Res.Ends R first)
    (hnext : ∀ v, R v → Res.Ends Q (next v)) : Res.Ends Q (first >>= next) :=
  .bind fun v hv => hnext v (h v hv)

/-! ## The copy of a module into ACRAM -/

theorem copyCells_above (mem : List Host.Cell) (n src dst : Nat) : ∀ c ∈ copyCells mem src dst n, dst ≤ c.1 := by
  induction n generalizing src dst with
  | zero => intro c hc; cases hc
  | succ n ih =>
    intro c hc
    rw [copyCells] at hc
    split at hc
    · exact Nat.le_of_succ_le (ih _ _ c hc)
    · rcases List.mem_cons.1 hc with rfl | hc
      · exact Nat.le_refl _
      · exact Nat.le_of_succ_le (ih _ _ c hc)

/-- Zero bytes are not listed, and the addresses rise, whatever memory is copied. -/
theorem copyCells_wf (mem : List Host.Cell) (n src dst : Nat) : Memory.wf (copyCells mem src dst n) = true := by
  induction n generalizing src dst with
  | zero => rfl
  | succ n ih =>
    rw [copyCells]
    split
    · exact ih _ _
    · exact (Memory.wf_cons _ _ _).2 ⟨‹_›, copyCells_above mem n (src + 1) (dst + 1), ih _ _⟩

namespace State.memOk
variable {s : State} (hs : s.memOk)
include hs

/-! ## What writes memory or CR8 -/

theorem writeBytes {a : Access} {la : Word} {bs : List Byte} {align : Nat} : Res.Ends State.memOk (s.writeBytes a la bs align) :=
  .bind fun pas _ => .ok (State.memOk_storeAt s pas bs hs)

theorem memWrite {la : Word} {n : Nat} {v : Word} : Res.Ends State.memOk (s.memWrite la n v) := hs.writeBytes

theorem shadowWrite {la : Word} {n : Nat} {v : Word} : Res.Ends State.memOk (s.shadowWrite la n v) := hs.writeBytes

theorem pushAll {sz : OpSize} {vs : List Word} : Res.Ends State.memOk (s.pushAll sz vs) :=
  .bind fun pas _ => .ok (State.memOk_storeAt s pas _ hs)

theorem physWrite8 {pa : Nat} {v : Word} : Res.Ends State.memOk (s.physWrite8 pa v) :=
  .bind fun _ _ => .ok (State.memOk_putBytes s _ _ hs)

theorem writeCr8 (v : Word) : (s.writeCr8 v).memOk := by
  unfold State.writeCr8
  split
  · exact State.memOk_storeAt s _ _ hs
  · exact hs

/-! ## What writes registers alone -/

theorem setRegSz (sz : OpSize) (r : Reg) (v : Word) : (s.setRegSz sz r v).memOk := by
  rw [State.setRegSz_eq]; exact hs

theorem storeSreg (r : Sreg) (sel : Half) (d : Word) : (s.storeSreg r sel d).memOk := by
  cases r <;> exact hs

theorem blockAfterSs (r : Sreg) : (s.blockAfterSs r).memOk := by
  unfold State.blockAfterSs; split <;> exact hs

theorem trackEndbranch : s.trackEndbranch.memOk := by
  rw [State.trackEndbranch_eq]; exact hs

theorem vmExit (r : DWord) (q : Word) (i c : DWord) : (s.vmExit r q i c).memOk := by
  rcases s.vmExit_cases r q i c with h | ⟨host, vmx, h⟩
  · rw [h]; exact hs
  · rw [h]; exact hs

/-! ## Taking an event -/

theorem takeToken {ssp : Word} : Res.Ends State.memOk (s.takeToken ssp) :=
  .bind fun _ _ => .bind fun _ _ => .bind fun _ _ => hs.shadowWrite

theorem cetInter : Res.Ends State.memOk s.cetInter :=
  .ite (fun _ => hs.takeToken) fun _ => .ok hs

/-- The four writes of an intra-privilege delivery to the shadow stack (R437). -/
theorem shadowFrame (a b c d cs rip ssp : Word) : Res.Ends State.memOk (do
    let s1 ← s.shadowWrite a 4 0
    let s2 ← s1.shadowWrite b 8 cs
    let s3 ← s2.shadowWrite c 8 rip
    let s4 ← s3.shadowWrite d 8 ssp
    return s4.setSsp d) :=
  .andThen hs.shadowWrite fun _ h1 => .andThen h1.shadowWrite fun _ h2 => .andThen h2.shadowWrite fun _ h3 =>
    .andThen h3.shadowWrite fun _ h4 => .ok h4

theorem cetIntra (ist : Nat) (sel : Half) (rip : Word) : Res.Ends State.memOk (s.cetIntra ist sel rip) := by
  refine .ite (fun _ => ?_) fun _ => .ok hs
  dsimp only
  split
  · exact .bind fun _ _ => .andThen hs.takeToken fun _ hu => hu.shadowFrame _ _ _ _ _ _ _
  · exact hs.shadowFrame _ _ _ _ _ _ _

theorem landed (e : Event) (p : Plan) : (s.landed e p).memOk := by
  rw [State.landed_eq]; exact State.memOk_storeAt s p.pas _ hs

theorem cetSteps (e : Event) (p : Plan) : Res.Ends State.memOk (s.cetSteps e p) :=
  .ite (fun _ => (hs.landed e p).cetInter) fun _ => (hs.landed e p).cetIntra _ _ _

theorem deliverOnce (e : Event) : (onceState (s.deliverOnce e)).memOk := by
  unfold State.deliverOnce
  split
  · exact hs
  · split
    · exact hs
    · next p _ =>
      split
      · exact hs.landed e p
      · next t ht => exact (hs.cetSteps e p t ht).trackEndbranch

end State.memOk

theorem memOk_eventClosed : EventClosed State.memOk where
  once _ e hs := hs.deliverOnce e
  exits _ r q i c hs := hs.vmExit r q i c
  cr2 _ _ hs := hs
  shut _ hs := hs

namespace State.memOk
variable {s t : State} (hs : s.memOk)
include hs

theorem finish {r : Res State} (h : finish s r = .next t) (hr : Res.Ends State.memOk r) : t.memOk :=
  memOk_eventClosed.finish hs hr h

theorem takeException {x : Exc} (h : s.takeException x = .next t) : t.memOk := memOk_eventClosed.takeException hs h

theorem deliver {e : Event} {b : Bool} (h : s.deliver e b = .next t) : t.memOk := memOk_eventClosed.deliver hs h

/-! ## Operations that several instructions share -/

theorem branchRel (taken : Bool) (rel : Word) : Res.Ends State.memOk (s.branchRel taken rel) :=
  .ite (fun _ => .bind fun _ _ => .ok hs) fun _ => .ok hs

theorem loopWhile (p : Pfx) (rel : BitVec 8) (c : Bool) : Res.Ends State.memOk (s.loopWhile p rel c) :=
  .bind fun _ _ => (hs.setRegSz _ _ _).branchRel _ _

theorem jumpIfZero (p : Pfx) (rel : BitVec 8) : Res.Ends State.memOk (s.jumpIfZero p rel) :=
  .bind fun _ _ => hs.branchRel _ _

theorem callTo (p : Pfx) (a : Word) : Res.Ends State.memOk (s.callTo p a) :=
  .andThen hs.pushAll fun _ hu => .ok hu

theorem nearReturn (p : Pfx) (n : Nat) : Res.Ends State.memOk (s.nearReturn p n) :=
  .bind fun _ _ => .bind fun _ _ => .bind fun _ _ => .ok hs

theorem farCall (sz : OpSize) (sel : Half) (off : Word) : Res.Ends State.memOk (s.farCall sz sel off) :=
  .bind fun _ _ => .bind fun _ _ => .andThen hs.pushAll fun _ hu => .ok hu

theorem farJmp (sel : Half) (off : Word) : Res.Ends State.memOk (s.farJmp sel off) :=
  .bind fun _ _ => .bind fun _ _ => .ok hs

theorem farRet (p : Pfx) (n : Nat) : Res.Ends State.memOk (s.farRet p n) :=
  .bind fun _ _ => .bind fun _ _ => .bind fun _ _ => .bind fun _ _ => .bind fun _ _ => .ok hs

theorem iretSame (sz : OpSize) (h : IretHead) : Res.Ends State.memOk (s.iretSame sz h) :=
  .bind fun _ _ => .ok hs

theorem iretFull (sz : OpSize) (h : IretHead) : Res.Ends State.memOk (s.iretFull sz h) :=
  .bind fun _ _ => .bind fun _ _ => .ok hs

theorem returnFromEvent (sz : OpSize) : Res.Ends State.memOk (s.returnFromEvent sz) :=
  .bind fun h _ => .ite
    (fun _ => .ite (fun _ => .error _) fun _ => hs.iretFull sz h)
    fun _ => .ite (fun _ => .error _) fun _ => .ite (fun _ => hs.iretFull sz h) fun _ => hs.iretSame sz h

theorem popSreg (p : Pfx) (r : Sreg) : Res.Ends State.memOk (s.popSreg p r) :=
  .bind fun _ _ => .bind fun _ _ =>
    .ok ((storeSreg (s := s.popped (s.stackSize p) 1 0) hs r _ _).blockAfterSs r)

theorem pushSreg (p : Pfx) (r : Sreg) : Res.Ends State.memOk (s.pushSreg p r) := by
  refine .andThen hs.pushAll fun u hu => .ok ?_
  split
  · exact hu
  · exact hu

theorem loadFar (p : Pfx) (sr : Sreg) (r : Reg) (m : Mem) : Res.Ends State.memOk (s.loadFar p sr r m) :=
  .bind fun _ _ => .bind fun _ _ => .bind fun _ _ => .ok ((hs.storeSreg sr _ _).setRegSz _ r _)

theorem writeRMSel (p : Pfx) (rm : RM) (v : Half) : Res.Ends State.memOk (s.writeRMSel p rm v) := by
  cases rm with
  | reg r => exact .ok (hs.setRegSz _ r _)
  | mem m => exact .bind fun _ _ => hs.memWrite

theorem writeRM16 (p : Pfx) (rm : RM) (v : Half) : Res.Ends State.memOk (s.writeRM16 p rm v) := by
  cases rm with
  | reg r => exact .ok (hs.setRegSz _ r _)
  | mem m => exact .bind fun _ _ => hs.memWrite

theorem storeTable (p : Pfx) (m : Mem) (r : TableReg) : Res.Ends State.memOk (s.storeTable p m r) :=
  .bind fun _ _ => .bind fun _ _ => .andThen hs.writeBytes fun _ hu => .ok hu

theorem storeSel (p : Pfx) (rm : RM) (sel : Half) : Res.Ends State.memOk (s.storeSel p rm sel) :=
  .bind fun _ _ => .andThen (hs.writeRMSel p rm sel) fun _ hu => .ok hu

theorem queryValue (p : Pfx) (r : Reg) (rm : RM) (f : Word → Word) : Res.Ends State.memOk (s.queryValue p r rm f) := by
  refine .bind fun _ _ => .bind fun d _ => ?_
  cases d with
  | none => exact .ok hs
  | some d => exact .ok (hs.setRegSz (s.opSize p) r (f d))

theorem queryOk (p : Pfx) (rm : RM) : Res.Ends State.memOk (s.queryOk p rm) :=
  .bind fun _ _ => .bind fun _ _ => .ok hs

theorem inAl (imm : Bool) (port : Half) : Res.Ends State.memOk (s.inAl imm port) :=
  .bind fun _ _ => .ok hs

theorem inEax (p : Pfx) (imm : Bool) (port : Half) : Res.Ends State.memOk (s.inEax p imm port) :=
  .bind fun _ _ => .ok (setRegSz (s := s.setDraws (s.draws + 1)) hs _ _ _)

theorem outAl (imm : Bool) (port : Half) : Res.Ends State.memOk (s.outAl imm port) :=
  .bind fun _ _ => .ok hs

theorem outEax (p : Pfx) (imm : Bool) (port : Half) : Res.Ends State.memOk (s.outEax p imm port) :=
  .bind fun _ _ => .ok hs

/-! ## Model-specific registers -/

theorem readMsr (i : Nat) : Res.Ends (fun a => a.2.memOk) (s.readMsr i) := by
  unfold State.readMsr
  split
  · exact .ok hs
  · split
    · exact .ok hs
    · exact .ite (fun _ => .ok hs) fun _ => .error _

theorem writePlainMsr (i : Nat) (v : Word) : ∀ t ∈ s.writePlainMsr i v, t.memOk := by
  unfold State.writePlainMsr
  repeat' refine forall_mem_ite (by rintro _ ⟨⟩; exact hs) ?_
  rintro _ ⟨⟩

theorem writeBankMsr (i : Nat) (v : Word) : ∀ t ∈ s.writeBankMsr i v, t.memOk := by
  unfold State.writeBankMsr
  iterate 2 refine forall_mem_ite (Option.forall_mem_map.2 fun _ _ => hs) ?_
  refine forall_mem_ite (forall_mem_ite (by rintro _ ⟨⟩; exact hs) (by rintro _ ⟨⟩; exact hs)) ?_
  repeat' refine forall_mem_ite (Option.forall_mem_map.2 fun _ _ => hs) ?_
  rintro _ ⟨⟩

theorem writeApic (i : Nat) (v : Word) : (s.writeApic i v).memOk := by
  unfold State.writeApic
  dsimp only
  split
  · exact hs
  · exact hs

theorem writeMsr (i : Nat) (v : Word) : Res.Ends State.memOk (s.writeMsr i v) := by
  refine .ite (fun _ => ?_) fun _ => .error _
  split
  · next t ht => exact .ok (hs.writePlainMsr i v t ht)
  · split
    · next t ht => exact .ok (hs.writeBankMsr i v t ht)
    · exact .ite (fun _ => .ok (hs.writeApic i v)) fun _ => .error _

/-! ## GETSEC -/

theorem loadAcm : s.loadAcm.memOk := by
  simpa [State.memOk, State.loadAcm, State.signal] using And.intro hs.1 (copyCells_wf s.mem s.ecx s.ebx acramBase)

theorem copySignatures : s.copySignatures.memOk := 
  ⟨hs.1, Memory.wf_writeFrom _ _ _ (Memory.wf_writeFrom _ _ _ hs.2)⟩

theorem saveSsa (base : Nat) : Res.Ends State.memOk (s.saveSsa base) :=
  .andThen hs.physWrite8 fun _ h1 => .andThen h1.physWrite8 fun _ h2 => .andThen h2.physWrite8 fun _ h3 =>
    .andThen h3.physWrite8 fun _ h4 => .andThen h4.physWrite8 fun _ h5 => h5.physWrite8

theorem runAcm : Res.Ends State.memOk s.runAcm := by
  unfold State.runAcm
  split
  · exact .ok hs
  · exact .andThen (hs.saveSsa _) fun _ hu => .ok hu

theorem enterAccs : Res.Ends State.memOk s.enterAccs := by
  refine .bind fun _ _ => .bind fun _ _ => ?_
  split
  · exact .ok hs.loadAcm
  · exact hs.loadAcm.copySignatures.runAcm

/-- EXITAC leaves ACRAM empty (R398). -/
theorem exitAc : Res.Ends State.memOk s.exitAc := by
  refine .bind fun _ _ => .bind fun _ _ => .bind fun _ _ => .bind fun _ _ => .bind fun _ _ => .bind fun _ _ =>
    .bind fun _ _ => .bind fun _ _ => .bind fun _ _ => .ite (fun _ => .error _) fun _ => .ok ?_
  simpa [State.memOk, State.signal, State.setReg] using hs.1

theorem getsec (h : execGetsec s = .next t) : t.memOk := by
  refine hs.finish h ?_
  refine .ite (fun _ => .error _) fun _ => .ite (fun _ => .error _) fun _ => .ite (fun _ => .error _) fun _ => ?_
  refine .ite (fun _ => .ok hs) fun _ => .ite (fun _ => hs.enterAccs) fun _ => .ite (fun _ => hs.exitAc) fun _ => ?_
  refine .ite (fun _ => .andThen hs.enterAccs fun _ hu => .ok hu) fun _ => .ite (fun _ => .bind fun _ _ => .ok hs) fun _ => ?_
  refine .ite (fun _ => .ok hs) fun _ => .ite (fun _ => .bind fun _ _ => .bind fun _ _ => .ok hs) fun _ => ?_
  exact .ite (fun _ => .bind fun _ _ => .ok hs) fun _ => .error _

/-! ## VM entry -/

theorem enterGuest {v : Vmcs} (h : s.enterGuest v = .next t) : t.memOk := by
  unfold State.enterGuest at h
  dsimp only at h
  split at h
  · refine deliver ?_ h
    exact hs
  · cases h; exact hs

theorem vmEntry {launch : Bool} (h : s.vmEntry launch = .next t) : t.memOk := by
  have hraise : ∀ {e : Exc}, Machine.finish s (raise e) = .next t → t.memOk := fun h => hs.finish h (.error _)
  unfold State.vmEntry at h
  split at h
  · exact hraise h
  · split at h
    · exact hraise h
    · cases h; exact hs.vmExit _ _ _ _
  · split at h
    · exact hraise h
    split at h
    · exact hraise h
    split at h
    · cases h; exact hs
    iterate 5
      split at h
      · cases h; exact hs
    exact hs.enterGuest h

theorem seamret (h : execSeamret s = .next t) : t.memOk := by
  unfold execSeamret at h
  split at h
  · exact hs.finish h (.error _)
  split at h
  · exact hs.finish h (.error _)
  split at h
  · split at h
    · cases h; exact hs
    · cases h; exact hs
  · cases h; exact hs

/-! ## Instructions -/

theorem movSreg {p : Pfx} {n : BitVec 3} {rm : RM} (h : execMovSregRM p n rm s = .next t) : t.memOk := by
  refine hs.finish h ?_
  split
  · exact .error _
  · exact .bind fun _ _ => .bind fun _ _ => .bind fun _ _ => .ok ((hs.storeSreg _ _ _).blockAfterSs _)

theorem movFromSreg {p : Pfx} {n : BitVec 3} {rm : RM} (h : execMovRMSreg p n rm s = .next t) : t.memOk := by
  refine hs.finish h ?_
  split
  · exact .error _
  · exact .andThen (hs.writeRMSel p rm _) fun _ hu => .ok hu

theorem arpl {p : Pfx} {rm : RM} {r : Reg} (h : execArpl p rm r s = .next t) : t.memOk :=
  hs.finish h (.bind fun _ _ => .bind fun _ _ =>
    .ite (fun _ => .andThen (hs.writeRM16 p rm _) fun _ hu => .ok hu) fun _ => .ok hs)

theorem into (h : execInto s = .next t) : t.memOk := by
  unfold execInto at h
  split at h
  · exact hs.finish h (.error _)
  split at h
  · exact hs.deliver h
  · exact hs.finish h (.ok hs)

theorem eretu (h : execEretu s = .next t) : t.memOk := by
  refine hs.finish h (.bind fun _ _ => .bind fun _ _ => .bind fun _ _ => ?_)
  split
  · exact .error _
  · exact .bind fun _ _ => .bind fun _ _ => .ok hs

theorem movRCr {n : BitVec 4} {r : Reg} (h : execMovRCr n r s = .next t) : t.memOk := by
  refine hs.finish h (.bind fun _ _ => ?_)
  split
  · exact .error _
  · exact .ok hs

theorem wrmsr (h : execWrmsr s = .next t) : t.memOk := by
  refine hs.finish h (.bind fun _ _ => .andThen ?_ fun _ hu => .ok hu)
  split
  · exact writeMsr (s := s.settleCounters) hs _ _
  · exact hs.writeMsr _ _

theorem halt (h : s.halt = .next t) : t.memOk := hs.finish h (.bind fun _ _ => .ok hs)

/-- Every instruction keeps the canonical form. -/
theorem exec {i : Instr} (h : exec i s = .next t) : t.memOk := by
  cases i with
  | jccRel8 | jccRel32 | jmpRel8 | jmpRel32 => exact hs.finish h (.bind fun _ _ => hs.branchRel _ _)
  | loopneRel8 | loopeRel8 | loopRel8 => exact hs.finish h (hs.loopWhile _ _ _)
  | jecxzRel8 | jrcxzRel8 => exact hs.finish h (hs.jumpIfZero _ _)
  | callRel32 => exact hs.finish h (.bind fun _ _ => .bind fun _ _ => hs.callTo _ _)
  | jmpRM => exact hs.finish h (.bind fun _ _ => .ok hs)
  | callRM => exact hs.finish h (.bind fun _ _ => hs.callTo _ _)
  | ret | retImm16 => exact hs.finish h (hs.nearReturn _ _)
  | lea => cases h; exact hs.setRegSz _ _ _
  | nop | nopRM => cases h; exact hs
  | callPtr | callFarM => exact hs.finish h (.bind fun _ _ => .bind fun _ _ => hs.farCall _ _ _)
  | jmpPtr => exact hs.finish h (.bind fun _ _ => .bind fun _ _ => .bind fun _ _ => hs.farJmp _ _)
  | jmpFarM => exact hs.finish h (.bind fun _ _ => .bind fun _ _ => hs.farJmp _ _)
  | retFar | retFarImm16 => exact hs.finish h (hs.farRet _ _)
  | iret => exact hs.finish h (.bind fun _ _ => .bind fun _ _ => hs.returnFromEvent _)
  | intImm8 | int3 | int1 => exact hs.deliver h
  | into => exact hs.into h
  | syscall => exact hs.finish h (.bind fun _ _ => .ok hs)
  | sysenter | sysexit => exact hs.finish h (.bind fun _ _ => .bind fun _ _ => .ok hs)
  | sysret => exact hs.finish h (.bind fun _ _ => .bind fun _ _ => .bind fun _ _ => .bind fun _ _ => .ok hs)
  | eretu => exact hs.eretu h
  | erets => exact hs.finish h (.bind fun _ _ => .bind fun _ _ => .bind fun _ _ => .bind fun _ _ => .bind fun _ _ => .ok hs)
  | rsm => exact hs.finish h (.ite (fun _ => .ok hs) fun _ => .error _)
  | movSregRM => exact hs.movSreg h
  | popEs | popSs | popDs => exact hs.finish h (.bind fun _ _ => hs.popSreg _ _)
  | popFs | popGs => exact hs.finish h (hs.popSreg _ _)
  | lds | les => exact hs.finish h (.bind fun _ _ => hs.loadFar _ _ _ _)
  | lss | lfs | lgs => exact hs.finish h (hs.loadFar _ _ _ _)
  | lkgs => exact hs.finish h (.bind fun _ _ => .bind fun _ _ => .bind fun _ _ => .ok hs)
  | movRMSreg => exact hs.movFromSreg h
  | pushEs | pushCs | pushSs | pushDs => exact hs.finish h (.bind fun _ _ => hs.pushSreg _ _)
  | pushFs | pushGs => exact hs.finish h (hs.pushSreg _ _)
  | sgdt | sidt => exact hs.finish h (hs.storeTable _ _ _)
  | lgdt | lidt => exact hs.finish h (.bind fun _ _ => .ok hs)
  | sldt | str => exact hs.finish h (hs.storeSel _ _ _)
  | lldt => exact hs.finish h (.bind fun _ _ => .bind fun _ _ => .ite (fun _ => .ok hs) fun _ => .bind fun _ _ => .ok hs)
  | ltr => exact hs.finish h (.bind fun _ _ => .bind fun _ _ => .bind fun _ _ => .bind fun _ _ => .ok hs)
  | verr | verw => exact hs.finish h (hs.queryOk _ _)
  | lar | lsl => exact hs.finish h (hs.queryValue _ _ _ _)
  | arpl => exact hs.arpl h
  | swapgs => exact hs.finish h (.bind fun _ _ => .bind fun _ _ => .bind fun _ _ => .ok hs)
  | rdfsbase | rdgsbase => exact hs.finish h (.bind fun _ _ => .ok (hs.setRegSz _ _ _))
  | wrfsbase | wrgsbase => exact hs.finish h (.bind fun _ _ => .ok hs)
  | movRCr => exact hs.movRCr h
  | movCr0R | movCr4R => exact hs.finish h (.bind fun _ _ => .bind fun _ _ => .bind fun _ _ => .ok hs)
  | movCr2R => exact hs.finish h (.bind fun _ _ => .ok hs)
  | movCr3R => exact hs.finish h (.bind fun _ _ => .bind fun _ _ => .ok hs)
  | movCr8R r => exact hs.finish h (.bind fun _ _ => .bind fun _ _ => .ok (writeCr8 (s := s.freeStatus) hs (s.reg r)))
  | lmsw | insb | insd | outsb | outsd => exact hs.takeException h
  | rdmsr => exact hs.finish h (.bind fun _ _ => .andThen (hs.readMsr _) fun _ hu => .ok hu)
  | wrmsr => exact hs.wrmsr h
  | cpuid => exact hs.finish h (.ite (fun _ => .error _) fun _ => .ok hs)
  | popf | popf16 | cli | sti => exact hs.finish h (.bind fun _ _ => .ok hs)
  | pushf => exact hs.finish h (.andThen hs.pushAll fun _ hu => .ok hu)
  | inAlImm | inAlDx => exact hs.finish h (hs.inAl _ _)
  | inEaxImm | inEaxDx => exact hs.finish h (hs.inEax _ _ _)
  | outImmAl | outDxAl => exact hs.finish h (hs.outAl _ _)
  | outImmEax | outDxEax => exact hs.finish h (hs.outEax _ _ _)
  | vmlaunch | vmresume => exact hs.vmEntry h
  | seamret => exact hs.seamret h
  | getsec => exact hs.getsec h

/-! ## Events -/

theorem machineCheck (h : s.machineCheck = .next t) : t.memOk := by
  unfold State.machineCheck at h
  split at h
  · cases h; exact hs
  · refine deliver ?_ h
    exact hs

theorem initEvent : s.initEvent.memOk := by
  unfold State.initEvent
  split
  · exact hs.vmExit _ _ _ _
  · split
    · exact hs
    · exact hs

theorem sipiEvent (v : BitVec 8) : Res.Ends State.memOk (s.sipiEvent v) :=
  .ite (fun _ => .ok hs) fun _ => .ite (fun _ => .ok hs) fun _ => .bind fun _ _ => .ite (fun _ => .ok hs) fun _ =>
    .bind fun _ _ => .bind fun _ _ => .bind fun _ _ => .bind fun _ _ => .ite (fun _ => .ok hs) fun _ => .ok hs

theorem rlpWake : Res.Ends State.memOk s.rlpWake := by
  refine .ite (fun _ => .ok hs) fun _ => .bind fun _ _ => .bind fun _ _ => .bind fun _ _ => .ite (fun _ => .ok ?_) fun _ => .ok ?_
  · simpa [State.memOk, State.txtShutdown] using hs
  · simpa [State.memOk] using hs

theorem takeDb {causes : Word} (h : s.takeDb causes = .next t) : t.memOk := by
  unfold State.takeDb at h
  dsimp only at h
  split at h
  · cases h; exact hs.vmExit _ _ _ _
  · refine deliver ?_ h
    exact hs

/-- Every event keeps the canonical form; a platform reset keeps memory and empties ACRAM. -/
theorem takeDue {d : Due} (h : s.takeDue d = .next t) : t.memOk := by
  have hp : (s.setPending (s.pending.without d)).memOk := hs
  cases d with
  | reset => cases h; exact ⟨hs.1, Memory.wf_nil⟩
  | machineCheck => exact hp.machineCheck h
  | smi => cases h
  | init => cases h; exact hp.initEvent
  | sipi v =>
    unfold State.takeDue at h
    dsimp only at h
    split at h
    · exact hp.finish h (hp.sipiEvent v)
    · cases h; exact hs
  | wakeup => exact hp.finish h hp.rlpWake
  | stm => cases h; exact hs
  | trap => exact takeDb (s := (s.setDbPending false).setBpHits 0) hs h
  | nmi | intr => exact hp.deliver h
  | codeBreak => exact hp.takeDb h

/-! ## Steps -/

theorem retire (b : State) (k r : Bool) : (b.retire s k r).memOk := by
  have hrf : (if k then s else s.setRflags (setBit s.rflags 16 false)).memOk := by
    split
    · exact hs
    · exact hs
  unfold State.retire
  dsimp only
  generalize (if k then s else s.setRflags (setBit s.rflags 16 false)) = u at hrf ⊢
  split
  · exact hrf
  · exact hrf

theorem step (h : step s = .next t) : t.memOk :=
  memOk_eventClosed.step hs h (fun _ _ hd => hs.takeDue hd) (fun _ => hs) (fun _ _ => hs)
    (fun _ _ _ _ hb hu _ => hb.exec hu) (fun _ _ _ hb hu _ => hb.halt hu) fun b _ k r hu => hu.retire b k r

end State.memOk

/-- Settles O6: `State.memOk` says of the two memories what `State.memWf` computes. -/
theorem stepKeepsMemoryForm : Obligations.StepKeepsMemoryForm := by
  intro s t hs ht
  rw [State.memWf_iff] at hs ⊢
  exact hs.step ht

end Sys2Proof.Machine

/-! # Alignment checks (O31) -/

namespace Sys2Proof.Machine

/-- Every exception that the part `r` of a meaning raises satisfies `Q`. -/
def Res.RaisesOnly {α : Type} (Q : Exc → Prop) (r : Res α) : Prop := ∀ x, r = .error (.exc x) → Q x

namespace Res.RaisesOnly
variable {α β : Type} {Q : Exc → Prop}

theorem ok (v : α) : Res.RaisesOnly Q (.ok v) := by
  rintro _ ⟨⟩

theorem raise {e : Exc} (h : Q e) : Res.RaisesOnly Q (raise e : Res α) := by
  rintro _ ⟨⟩; exact h

theorem fault (f : Fault) : Res.RaisesOnly Q (.error (.fault f) : Res α) := by
  rintro _ ⟨⟩

theorem vmExit (r : DWord) (q : Word) : Res.RaisesOnly Q (.error (.vmExit r q) : Res α) := by
  rintro _ ⟨⟩

theorem bind {first : Res α} {next : α → Res β} (h : Res.RaisesOnly Q first) (hnext : ∀ v, Res.RaisesOnly Q (next v)) :
    Res.RaisesOnly Q (first >>= next) := by
  intro x hx
  cases first with
  | error y => cases hx; exact h x rfl
  | ok v => exact hnext v x hx

theorem ite {c : Prop} [Decidable c] {a b : Res α} (ha : Res.RaisesOnly Q a) (hb : Res.RaisesOnly Q b) :
    Res.RaisesOnly Q (if c then a else b) := by
  split
  · exact ha
  · exact hb

theorem raiseIf {b : Bool} {e : Exc} (h : Q e) : Res.RaisesOnly Q (raiseIf b e) := .ite (.raise h) (.ok ())

end Res.RaisesOnly

/-! ## Which exceptions an access raises -/

/-- The exceptions of an access that its alignment has no part in: #GP and #PF. -/
def Exc.OfAddress (x : Exc) : Prop := x.vector = 13 ∨ x.vector = 14

theorem Exc.OfAddress.ne_ac {x : Exc} (h : x.OfAddress) : x.vector ≠ 17 := by
  rcases h with h | h <;> rw [h] <;> decide

theorem excGp_ofAddress (code : DWord) : (excGp code).OfAddress := .inl rfl

theorem excPf_ofAddress (la : Word) (code : DWord) : (excPf la code).OfAddress := .inr rfl

namespace State
variable (s : State) (a : Access) (la : Word)

theorem checkPa_excOfAddress (pa : Nat) : Res.RaisesOnly Exc.OfAddress (s.checkPa pa) := .ite (.ok _) (.fault _)

theorem physRead_excOfAddress (pa n : Nat) : Res.RaisesOnly Exc.OfAddress (s.physRead pa n) := by
  induction n generalizing pa with
  | zero => exact .ok _
  | succ n ih => exact .bind (.bind (s.checkPa_excOfAddress pa) fun _ => .ok _) fun _ => .bind (ih _) fun _ => .ok _

theorem physRead8_excOfAddress (pa : Nat) : Res.RaisesOnly Exc.OfAddress (s.physRead8 pa) :=
  .bind (s.physRead_excOfAddress pa 8) fun _ => .ok _

theorem leaf_excOfAddress (up : Rights) (e : Word) (size : Nat) : Res.RaisesOnly Exc.OfAddress (s.leaf a la up e size) :=
  .ite (.ok _) (.raise (excPf_ofAddress _ _))

theorem walk_excOfAddress (table : Nat) (up : Rights) (n : Nat) : Res.RaisesOnly Exc.OfAddress (s.walk a la table up n) := by
  have pf : ∀ code, Res.RaisesOnly Exc.OfAddress (raise (excPf la code) : Res Nat) := fun _ => .raise (excPf_ofAddress _ _)
  induction n generalizing table up with
  | zero => exact .bind (s.physRead8_excOfAddress _) fun _ => .ite (pf _) (.ite (pf _) (s.leaf_excOfAddress a la _ _ _))
  | succ n ih =>
    exact .bind (s.physRead8_excOfAddress _) fun _ =>
      .ite (pf _) (.ite (pf _) (.ite (.ite (pf _) (s.leaf_excOfAddress a la _ _ _)) (ih _ _)))

theorem translate_excOfAddress : Res.RaisesOnly Exc.OfAddress (s.translate a la) := by
  have hroot : Res.RaisesOnly Exc.OfAddress (s.walkRoot a la) := s.walk_excOfAddress a la _ _ _
  unfold State.translate
  split
  · exact hroot
  · split
    · exact .ok _
    · exact hroot

theorem apicRedirect_excOfAddress (pa : Nat) : Res.RaisesOnly Exc.OfAddress (s.apicRedirect a pa) := by
  unfold State.apicRedirect
  split
  · exact .ok _
  · exact .ite (.ite (.ok _) (.vmExit _ _)) (.ok _)

theorem linear_excOfAddress : Res.RaisesOnly Exc.OfAddress (s.linear a la) :=
  .bind (.raiseIf (excGp_ofAddress 0)) fun _ => .bind (s.translate_excOfAddress a la) fun t =>
    .bind (s.apicRedirect_excOfAddress a t) fun pa => .bind (s.checkPa_excOfAddress pa) fun _ => .ok _

theorem linears_excOfAddress (n : Nat) : Res.RaisesOnly Exc.OfAddress (s.linears a la n) := by
  induction n generalizing la with
  | zero => exact .ok _
  | succ n ih => exact .bind (s.linear_excOfAddress a la) fun _ => .bind (ih _) fun _ => .ok _

variable {s a la} {align : Nat}

/-- An access that passes the alignment check raises no #AC. -/
theorem accessPas_excOfAddress (h : s.alignOk a la align = true) (n : Nat) : Res.RaisesOnly Exc.OfAddress (s.accessPas a la n align) := by
  unfold State.accessPas
  rw [h]
  exact .bind (.raiseIf (excGp_ofAddress 0)) fun _ => .bind (.ok ()) fun _ => s.linears_excOfAddress a la n

/-- One that fails it raises #AC before anything is translated. -/
theorem accessPas_misaligned (hla : s.canonical la = true) (h : s.alignOk a la align = false) (n : Nat) :
    s.accessPas a la n align = .error (.exc excAc) := by
  unfold State.accessPas
  rw [hla, h]
  rfl

theorem readBytes_excOfAddress (h : s.alignOk a la align = true) (n : Nat) : Res.RaisesOnly Exc.OfAddress (s.readBytes a la n align) :=
  .bind (accessPas_excOfAddress h n) fun _ => .ok _

theorem writeBytes_excOfAddress (h : s.alignOk a la align = true) (bs : List Byte) :
    Res.RaisesOnly Exc.OfAddress (s.writeBytes a la bs align) :=
  .bind (accessPas_excOfAddress (a := { a with write := true }) h _) fun _ => .ok _

/-! ## Explicit operands -/

/-- The processor checks alignment (R97): CPL 3, CR0.AM and RFLAGS.AC. -/
def alignChecked (s : State) : Prop := s.ss.dpl = 3 ∧ bit s.cr0 18 = true ∧ bit s.rflags 18 = true

theorem alignOk_dataAccess (s : State) (la : Word) (n : Nat) :
    s.alignOk s.dataAccess la n = false ↔ s.alignChecked ∧ la.toNat % n ≠ 0 := by
  simp [State.alignOk, State.dataAccess, State.cpl3, State.am, State.ac, State.alignChecked, and_assoc]

theorem alignOk_dataAccess_of_unchecked (h : ¬ s.alignChecked) (la : Word) (n : Nat) : s.alignOk s.dataAccess la n = true := by
  rw [← Bool.not_eq_false, alignOk_dataAccess]
  exact fun hm => h hm.1

theorem memRead_misaligned (hc : s.alignChecked) (hla : s.canonical la = true) {n : Nat} (hn : la.toNat % n ≠ 0) :
    s.memRead la n = .error (.exc excAc) := by
  have hbad : s.alignOk s.dataAccess la n = false := (alignOk_dataAccess s la n).2 ⟨hc, hn⟩
  rw [State.memRead, State.readBytes, accessPas_misaligned hla hbad]
  rfl

theorem memWrite_misaligned (hc : s.alignChecked) (hla : s.canonical la = true) {n : Nat} (hn : la.toNat % n ≠ 0) (v : Word) :
    s.memWrite la n v = .error (.exc excAc) := by
  have hbad : s.alignOk { s.dataAccess with write := true } la n = false := (alignOk_dataAccess s la n).2 ⟨hc, hn⟩
  rw [State.memWrite, State.writeBytes, accessPas_misaligned hla hbad]
  rfl

/-- Without 16-bit addressing a memory operand lies at its linear address (R174). -/
theorem memOperand_eq {p : Pfx} (h : s.cs.l = true ∨ p.asz = false) (m : Mem) : s.memOperand p m = .ok (s.linAddr p m) := by
  have h16 : s.addrSize16 p = false := by
    rcases h with h | h <;> simp [State.addrSize16, State.compat, h]
  rw [State.memOperand, h16]
  rfl

/-- A near return from a misaligned stack in 64-bit mode. -/
theorem exec_ret_misaligned (hc : s.alignChecked) (hl : s.cs.l = true) (hla : s.canonical (s.reg .rsp) = true)
    (hsp : (s.reg .rsp).toNat % 8 ≠ 0) (p : Pfx) : exec (.ret p) s = s.takeException excAc := by
  have hpop : s.popAt .w64 0 = .error (.exc excAc) := by
    have hup : s.spUp 0 = s.reg .rsp := by simp [State.spUp, State.sp, State.mode64, hl]
    show s.memRead (s.spUp 0) 8 = _
    rw [hup]
    exact memRead_misaligned hc hla hsp
  have hsize : s.nearSize p = .w64 := by simp [State.nearSize, State.mode64, hl]
  show finish s (s.nearReturn p 0) = _
  rw [State.nearReturn, State.rejectNear16, hsize, hpop]
  rfl

variable {p : Pfx} {m : Mem} (hc : s.alignChecked) (hp : s.cs.l = true ∨ p.asz = false)
  (hla : s.canonical (s.linAddr p m) = true) (hodd : (s.linAddr p m).toNat % 2 ≠ 0)
include hc hp hla hodd

theorem readRM16_misaligned : s.readRM16 p (.mem m) = .error (.exc excAc) := by
  rw [State.readRM16, State.readRM, memOperand_eq hp]
  show (s.memRead (s.linAddr p m) 2 >>= fun v => _) = _
  rw [memRead_misaligned hc hla hodd]
  rfl

theorem writeRMSel_misaligned (v : Half) : s.writeRMSel p (.mem m) v = .error (.exc excAc) := by
  rw [State.writeRMSel, memOperand_eq hp]
  exact memWrite_misaligned hc hla hodd _

/-- A query, a load of DS and a store of DS with a misaligned operand. -/
theorem exec_misaligned_operand :
    exec (.verr p (.mem m)) s = s.takeException excAc ∧ exec (.movSregRM p 3 (.mem m)) s = s.takeException excAc ∧
      exec (.movRMSreg p 3 (.mem m)) s = s.takeException excAc := by
  have hread := readRM16_misaligned hc hp hla hodd
  have hwrite := writeRMSel_misaligned hc hp hla hodd s.ds
  refine ⟨?_, ?_, ?_⟩
  · show finish s (s.readRM16 p (.mem m) >>= _) = _
    rw [hread]; rfl
  · show finish s (s.readRM16 p (.mem m) >>= _) = _
    rw [hread]; rfl
  · show finish s (s.writeRMSel p (.mem m) s.ds >>= _) = _
    rw [hwrite]; rfl

end State

/-- Settles O31: an access raises #AC exactly where its alignment check fails (`accessPas_misaligned`, `accessPas_excOfAddress`), and the
operand and the stack of the sample forms are such accesses. -/
theorem alignmentCheck : Obligations.AlignmentCheck := by
  intro s la v n p m x checked
  refine ⟨fun hc hla hn => ⟨State.memRead_misaligned hc hla hn, State.memWrite_misaligned hc hla hn v⟩,
    fun hc hp hla hodd => State.exec_misaligned_operand hc hp hla hodd,
    fun hc hl hla hsp => State.exec_ret_misaligned hc hl hla hsp p, fun hc hx => ?_, fun hx => ?_⟩
  · have hok := State.alignOk_dataAccess_of_unchecked hc la n
    refine Exc.OfAddress.ne_ac (hx.elim (fun h => ?_) fun h => State.writeBytes_excOfAddress hok _ x h)
    exact Res.RaisesOnly.bind (State.readBytes_excOfAddress hok n) (fun _ => .ok _) x h
  · have hok : s.alignOk { implicit := true } la 1 = true := rfl
    exact Exc.OfAddress.ne_ac (hx.elim (State.readBytes_excOfAddress hok n x) (State.writeBytes_excOfAddress hok _ x))

end Sys2Proof.Machine

/-! # Decoding and encoding (O1, O2)

The decoder reads an encoding in the order in which the encoder wrote it: the legacy prefixes, REX, the opcode, the ModRM operand, the
immediate. For each part one lemma says that what was written is read back and nothing after it is touched; the parts are put together
by `decode_encoding`, and each opcode needs only what it makes of its operand. -/

namespace Sys2Proof

/-- What is taken off the head of the bytes goes on to the rest of the decoding. -/
theorem DRes.bind_of_ok {α β : Type} {x : DRes α} {a : α} (h : x = .ok a) (next : α → DRes β) : x >>= next = next a := by
  rw [h]; rfl

/-! ## Prefixes and REX -/

/-- The legacy prefixes of R131. -/
def legacyBytes : List Byte := [0x66, 0x67, 0xF2, 0xF3, 0xF0, 0x64, 0x65, 0x2E, 0x36, 0x3E, 0x26]

/-- A byte that neither the legacy prefixes nor REX take away from the opcode. -/
abbrev OpcodeByte (b : Byte) : Prop := b ∉ legacyBytes ∧ b.extractLsb' 4 4 ≠ 4

theorem legacyPrefix_of_notMem (c : DCtx) {b : Byte} (h : b ∉ legacyBytes) : legacyPrefix c b = none := by
  simp only [legacyBytes, List.mem_cons, List.not_mem_nil, or_false, not_or] at h
  simp only [legacyPrefix, h, if_false, or_self]

theorem takePrefixes_cons {c c' : DCtx} {b : Byte} (h : legacyPrefix c b = some c') (bs : List Byte) :
    takePrefixes c (b :: bs) = takePrefixes c' bs := by rw [takePrefixes, h]

theorem takePrefixes_of_head {c : DCtx} {bs : List Byte} (h : ∀ b ∈ bs.head?, b ∉ legacyBytes) :
    takePrefixes c bs = (c, bs) := by
  cases bs with
  | nil => rfl
  | cons b bs => rw [takePrefixes, legacyPrefix_of_notMem c (h b rfl)]

/-- The byte of a repeat code, which is the mandatory one of some encodings (R131, R142, R144). -/
def Rep.bytes : Rep → List Byte
  | .none => []
  | .f2 => [0xF2]
  | .f3 => [0xF3]

/-- What the decoder knows after the bytes of these prefixes and of a REX with these bits. -/
def DCtx.ofPfx (l : Bool) (rep : Rep) (p : Pfx) (w r x b : Bool) : DCtx :=
  { l := l, osz := p.osz, asz := p.asz, seg := p.seg, rep := rep, w := w, r := r, x := x, b := b }

theorem takePrefixes_encPfx (l : Bool) (rep : Rep) (p : Pfx) (bs : List Byte) :
    takePrefixes { l := l } (encPfx rep.bytes p ++ bs) = takePrefixes (.ofPfx l rep p false false false false) bs := by
  obtain ⟨osz, asz, seg, w⟩ := p
  have hrep : ∀ t, takePrefixes { l := l } (rep.bytes ++ t) = takePrefixes { l := l, rep := rep } t := fun t => by
    cases rep <;> rfl
  have hosz : ∀ t, takePrefixes { l := l, rep := rep } ((if osz then [0x66] else []) ++ t) =
      takePrefixes { l := l, rep := rep, osz := osz } t := fun t => by cases osz <;> rfl
  have hasz : ∀ t, takePrefixes { l := l, rep := rep, osz := osz } ((if asz then [0x67] else []) ++ t) =
      takePrefixes { l := l, rep := rep, osz := osz, asz := asz } t := fun t => by cases asz <;> rfl
  simp only [encPfx, List.append_assoc, hrep, hosz, hasz]
  cases seg <;> rfl

theorem rex_fields : ∀ w r x b : Bool,
    let v : Byte := (4 : BitVec 4) ++ BitVec.ofBool w ++ BitVec.ofBool r ++ BitVec.ofBool x ++ BitVec.ofBool b
    v.extractLsb' 4 4 = 4 ∧ v.getLsbD 3 = w ∧ v.getLsbD 2 = r ∧ v.getLsbD 1 = x ∧ v.getLsbD 0 = b := by decide

theorem notMem_legacyBytes_of_rex {b : Byte} (h : b.extractLsb' 4 4 = 4) : b ∉ legacyBytes := fun hb =>
  absurd h ((by decide : ∀ v ∈ legacyBytes, v.extractLsb' 4 4 ≠ 4) b hb)

theorem encRex_head {w r x b : Bool} {op : Byte} (hop : OpcodeByte op) (bs : List Byte) :
    ∀ v ∈ (encRex w r x b ++ op :: bs).head?, v ∉ legacyBytes := by
  unfold encRex
  split
  · rintro _ ⟨⟩
    exact notMem_legacyBytes_of_rex (rex_fields w r x b).1
  · rintro _ ⟨⟩
    exact hop.1

/-- REX exists in 64-bit mode alone. -/
theorem takeRex_encRex {l : Bool} {w r x b : Bool} {op : Byte} (hop : OpcodeByte op) (hl : l = false → (w || r || x || b) = false)
    (rep : Rep) (p : Pfx) (bs : List Byte) :
    takeRex (.ofPfx l rep p false false false false) (encRex w r x b ++ op :: bs) = (.ofPfx l rep p w r x b, op :: bs) := by
  unfold encRex
  split
  · next hbits =>
    obtain ⟨h4, hw, hr, hx, hb⟩ := rex_fields w r x b
    have hl : l = true := by
      cases l
      · exact absurd hbits (by simp [hl rfl])
      · rfl
    rw [List.singleton_append, takeRex, if_pos ⟨hl, h4⟩, hw, hr, hx, hb]
    rfl
  · next hbits =>
    simp only [Bool.or_eq_true, not_or, Bool.not_eq_true] at hbits
    obtain ⟨⟨⟨rfl, rfl⟩, rfl⟩, rfl⟩ := hbits
    rw [List.nil_append, takeRex, if_neg fun h => hop.2 h.2]

/-! ## The whole decoder -/

/-- Where the opcode gives an instruction, `decode` does, but for LOCK. -/
theorem decode_of_decodeOne {l : Bool} {bs bs1 bs2 rest : List Byte} {c c' : DCtx} {i : Instr} (hp : takePrefixes { l := l } bs = (c, bs1))
    (hr : takeRex c bs1 = (c', bs2)) (ho : decodeOne c' bs2 = .ok (i, rest)) :
    decode l bs = if c'.lock = true then .error (if udAtDecode l i then .invalid else .lockMisuse)
      else .ok (i, bs.length - rest.length) := by
  simp only [decode, hp, hr, ho]
  rfl

/-- Bytes that decode to an instruction are one whose opcode gives it. -/
theorem decodeOne_of_decode {l : Bool} {bs bs1 bs2 : List Byte} {c c' : DCtx} {i : Instr} {n : Nat}
    (hp : takePrefixes { l := l } bs = (c, bs1)) (hr : takeRex c bs1 = (c', bs2)) (h : decode l bs = .ok (i, n)) :
    ∃ rest, decodeOne c' bs2 = .ok (i, rest) := by
  cases ho : decodeOne c' bs2 with
  | error e =>
    simp only [decode, hp, hr, ho] at h
    cases h
  | ok answer =>
    obtain ⟨j, rest⟩ := answer
    rw [decode_of_decodeOne hp hr ho] at h
    split at h
    · cases h
    · cases h; exact ⟨rest, rfl⟩

/-- LOCK before bytes that decode to an instruction makes no instruction of them (R415, R422). -/
theorem decode_lock {l : Bool} {bs : List Byte} {i : Instr} {n : Nat} (h : decode l bs = .ok (i, n)) :
    decode l (0xF0 :: bs) = .error (if udAtDecode l i then .invalid else .lockMisuse) := by
  rcases hp : takePrefixes { l := l } bs with ⟨c, bs1⟩
  rcases hr : takeRex c bs1 with ⟨c', bs2⟩
  obtain ⟨rest, ho⟩ := decodeOne_of_decode hp hr h
  have hp' : takePrefixes { l := l } (0xF0 :: bs) = (c.withLock, bs1) := by
    rw [takePrefixes_cons (c' := DCtx.withLock { l := l }) rfl, takePrefixes_lock, hp]
  have hr' : takeRex c.withLock bs1 = (c'.withLock, bs2) := by rw [takeRex_lock, hr]
  rw [decode_of_decodeOne hp' hr' (decodeOne_lock c' bs2 _ ho)]
  rfl

/-- Settles O2: the words are evaluated, and LOCK is `decode_lock`. -/
theorem decodeWords : Obligations.DecodeWords :=
  ⟨rfl, rfl, rfl, rfl, rfl, rfl, rfl, rfl, fun _ _ _ _ => decode_lock⟩

/-- The decoder takes the prefixes and REX of an encoding apart again: what its opcode gives is what it decodes to. -/
theorem decode_encoding {l : Bool} {rep : Rep} {p : Pfx} {w r x b : Bool} {op : Byte} {body rest : List Byte} {i : Instr}
    (hop : OpcodeByte op) (hl : l = false → (w || r || x || b) = false)
    (h : decodeOne (.ofPfx l rep p w r x b) (op :: body ++ rest) = .ok (i, rest)) :
    decode l (encPfx rep.bytes p ++ encRex w r x b ++ (op :: body) ++ rest) =
      .ok (i, (encPfx rep.bytes p ++ encRex w r x b ++ (op :: body)).length) := by
  have hp := takePrefixes_encPfx l rep p (encRex w r x b ++ op :: (body ++ rest))
  rw [takePrefixes_of_head (encRex_head hop _)] at hp
  rw [List.append_assoc, List.append_assoc, List.append_assoc, List.cons_append,
    decode_of_decodeOne hp (takeRex_encRex hop hl rep p (body ++ rest)) h, if_neg (by simp [DCtx.ofPfx])]
  simp only [List.length_append, List.length_cons]
  congr 2
  omega

/-! ## The ModRM byte and its operand -/

theorem modrmByte_mod (mod : BitVec 2) (reg rm : BitVec 3) : (modrmByte mod reg rm).extractLsb' 6 2 = mod := by
  rw [modrmByte, BitVec.extractLsb'_append_eq_of_le (by decide)]
  exact BitVec.extractLsb'_append_eq_left

theorem modrmByte_reg (mod : BitVec 2) (reg rm : BitVec 3) : (modrmByte mod reg rm).extractLsb' 3 3 = reg := by
  rw [modrmByte, BitVec.extractLsb'_append_eq_of_le (by decide)]
  exact BitVec.extractLsb'_append_eq_right

theorem modrmByte_rm (mod : BitVec 2) (reg rm : BitVec 3) : (modrmByte mod reg rm).extractLsb' 0 3 = rm :=
  BitVec.extractLsb'_append_eq_right

theorem regOf_hi_lo (r : Reg) : regOf r.hi r.lo = r := by cases r <;> rfl

theorem Reg.hi_of_wf {r : Reg} (h : r.wf false = true) : r.hi = false := by
  simpa [Reg.wf, Reg.hi] using h

/-- The encoding number that stands for no index is RSP's alone (R133). -/
theorem Reg.lo_ne_four_of_ne_rsp {r : Reg} (h : r ≠ .rsp) : ¬ (r.lo = 4 ∧ r.hi = false) := by
  rintro ⟨hlo, hhi⟩
  have hr := regOf_hi_lo r
  rw [hlo, hhi] at hr
  exact h hr.symm

/-- The encoding number that cannot go without a displacement is RBP's and R13's (R133). -/
theorem Reg.lo_ne_five {r : Reg} (hrbp : r ≠ .rbp) (hr13 : r ≠ .r13) : r.lo ≠ 5 := by
  intro hlo
  have hr := regOf_hi_lo r
  rw [hlo] at hr
  cases hhi : r.hi with
  | false => rw [hhi] at hr; exact hrbp hr.symm
  | true => rw [hhi] at hr; exact hr13 hr.symm

theorem take16_bytes16 (v : BitVec 16) (bs : List Byte) : take16 (bytes16 v ++ bs) = .ok (v, bs) := by
  have h : v.extractLsb' 8 8 ++ v.extractLsb' 0 8 = v :=
    (BitVec.extractLsb'_append_extractLsb'_eq_extractLsb' rfl).trans BitVec.extractLsb'_eq_self
  show Except.ok (v.extractLsb' 8 8 ++ v.extractLsb' 0 8, bs) = _
  rw [h]

theorem take32_bytes32 (v : BitVec 32) (bs : List Byte) : take32 (bytes32 v ++ bs) = .ok (v, bs) := by
  have h : v.extractLsb' 24 8 ++ v.extractLsb' 16 8 ++ v.extractLsb' 8 8 ++ v.extractLsb' 0 8 = v := by
    have join (start n : Nat) : v.extractLsb' (start + 8) n ++ v.extractLsb' start 8 = v.extractLsb' start (n + 8) :=
      BitVec.extractLsb'_append_extractLsb'_eq_extractLsb' rfl
    rw [join 16 8, join 8 16, join 0 24]
    exact BitVec.extractLsb'_eq_self
  show Except.ok (v.extractLsb' 24 8 ++ v.extractLsb' 16 8 ++ v.extractLsb' 8 8 ++ v.extractLsb' 0 8, bs) = _
  rw [h]

theorem takeDisp_bytes {d : Disp} (h : d.isD16 = false) (bs : List Byte) : takeDisp d.mod (d.bytes ++ bs) = .ok (d, bs) := by
  cases d with
  | none => rfl
  | d8 v => rfl
  | d16 v => cases h
  | d32 v => exact DRes.bind_of_ok (take32_bytes32 v bs) fun t => .ok (Disp.d32 t.1, t.2)

/-- The index field of the SIB byte. -/
def sibIndex : Option Reg → BitVec 3
  | none => 4
  | some i => i.lo

section
variable {c : DCtx} {index : Option Reg} {scale : BitVec 2}

/-- What the decoder makes of the index field is the index, and its scale where it has one. -/
theorem sibIndex_decodes (hx : c.x = optHi index) (hrsp : index ≠ some .rsp) (hscale : index = none → scale = 0) :
    (if sibIndex index = 4 ∧ c.x = false then none else some (regOf c.x (sibIndex index))) = index ∧
    (if sibIndex index = 4 ∧ c.x = false then 0 else scale) = scale := by
  cases index with
  | none => exact ⟨if_pos ⟨rfl, hx⟩, by rw [if_pos ⟨rfl, hx⟩, hscale rfl]⟩
  | some i =>
    have hne : ¬ (i.lo = 4 ∧ c.x = false) := hx ▸ Reg.lo_ne_four_of_ne_rsp fun h => hrsp (h ▸ rfl)
    refine ⟨(if_neg hne).trans ?_, if_neg hne⟩
    rw [hx]
    exact congrArg some (regOf_hi_lo i)

theorem takeSib_base {b : Reg} {d : Disp} (hx : c.x = optHi index) (hb : c.b = b.hi) (hrsp : index ≠ some .rsp)
    (hscale : index = none → scale = 0) (hd : d.isD16 = false) (hnone : ¬ (b.lo = 5 ∧ d.mod = 0)) (bs : List Byte) :
    takeSib c d.mod (modrmByte scale (sibIndex index) b.lo) (d.bytes ++ bs) =
      .ok ({ base := some b, index := index, scale := scale, disp := d }, bs) := by
  obtain ⟨hindex, hscale⟩ := sibIndex_decodes hx hrsp hscale
  simp only [takeSib, modrmByte_mod, modrmByte_reg, modrmByte_rm, hindex, hscale, if_neg hnone, takeDisp_bytes hd, hb, regOf_hi_lo]
  rfl

theorem takeSib_noBase (hx : c.x = optHi index) (hrsp : index ≠ some .rsp) (hscale : index = none → scale = 0)
    (v : BitVec 32) (bs : List Byte) :
    takeSib c 0 (modrmByte scale (sibIndex index) 5) (bytes32 v ++ bs) =
      .ok ({ index := index, scale := scale, disp := .d32 v }, bs) := by
  obtain ⟨hindex, hscale⟩ := sibIndex_decodes hx hrsp hscale
  simp only [takeSib, modrmByte_mod, modrmByte_reg, modrmByte_rm, hindex, hscale, and_self, if_true, take32_bytes32]
  rfl

end

section
variable {c : DCtx} {reg : BitVec 3} {m : Mem} {bs rest : List Byte}

theorem takeModRM_reg (b : Reg) (hb : c.b = b.hi) : takeModRM c (modrmByte 3 reg b.lo :: rest) = .ok (reg, .reg b, rest) := by
  simp only [takeModRM, take8, bind, Except.bind, modrmByte_mod, modrmByte_reg, modrmByte_rm, hb, regOf_hi_lo]
  rfl

theorem takeModRM_short {mod : BitVec 2} {rm : BitVec 3} (hmod : mod ≠ 3) (hshort : c.l = false ∧ c.asz = true)
    (h : takeMemShort mod rm bs = .ok (m, rest)) : takeModRM c (modrmByte mod reg rm :: bs) = .ok (reg, .mem m, rest) := by
  simp only [takeModRM, take8, bind, Except.bind, modrmByte_mod, modrmByte_reg, modrmByte_rm, if_neg hmod, if_pos hshort, h]
  rfl

theorem takeModRM_long {mod : BitVec 2} {rm : BitVec 3} (hmod : mod ≠ 3) (hlong : ¬ (c.l = false ∧ c.asz = true))
    (h : takeMemLong c mod rm bs = .ok (m, rest)) : takeModRM c (modrmByte mod reg rm :: bs) = .ok (reg, .mem m, rest) := by
  simp only [takeModRM, take8, bind, Except.bind, modrmByte_mod, modrmByte_reg, modrmByte_rm, if_neg hmod, if_neg hlong, h]
  rfl

end

/-! ## 16-bit addressing -/

theorem Disp.mod_ne_three (d : Disp) : d.mod ≠ 3 :=
  match d with
  | .none => (by decide : (0 : BitVec 2) ≠ 3)
  | .d8 _ => (by decide : (1 : BitVec 2) ≠ 3)
  | .d16 _ | .d32 _ => (by decide : (2 : BitVec 2) ≠ 3)

/-- A displacement of 16-bit addressing, which RM = 6 cannot go without. -/
theorem takeMemShort_pair {rm : BitVec 3} {d : Disp} (hd : d.isD32 = false) (hrm : rm = 6 → d.isNone = false) (bs : List Byte) :
    takeMemShort d.mod rm (d.bytes ++ bs) = .ok ({ base := (shortPair rm).1, index := (shortPair rm).2, disp := d }, bs) := by
  cases d with
  | none => exact if_neg fun h => nomatch hrm h
  | d8 v => rfl
  | d16 v =>
    exact DRes.bind_of_ok (take16_bytes16 v bs) fun t =>
      .ok (({ base := (shortPair rm).1, index := (shortPair rm).2, disp := .d16 t.1 } : Mem), t.2)
  | d32 v => cases hd

/-- The base and index pairs of R189, by the RM field that stands for them. -/
theorem encMemShort_eq {m : Mem} (h : m.wfShort = true) (reg : BitVec 3) :
    m = { disp := m.disp } ∧ m.disp.isD16 = true ∧ encMemShort reg m = modrmByte 0 reg 6 :: m.disp.bytes ∨
    ∃ rm, m = { base := (shortPair rm).1, index := (shortPair rm).2, disp := m.disp } ∧ (rm = 6 → m.disp.isNone = false) ∧
      m.disp.isD32 = false ∧ encMemShort reg m = modrmByte m.disp.mod reg rm :: m.disp.bytes := by
  obtain ⟨base, index, scale, disp, rip⟩ := m
  simp only [Mem.wfShort, Bool.and_eq_true, Bool.not_eq_true', beq_iff_eq] at h
  obtain ⟨⟨⟨rfl, rfl⟩, hd⟩, hpair⟩ := h
  split at hpair
  · exact .inr ⟨0, rfl, nofun, hd, rfl⟩
  · exact .inr ⟨1, rfl, nofun, hd, rfl⟩
  · exact .inr ⟨2, rfl, nofun, hd, rfl⟩
  · exact .inr ⟨3, rfl, nofun, hd, rfl⟩
  · exact .inr ⟨4, rfl, nofun, hd, rfl⟩
  · exact .inr ⟨5, rfl, nofun, hd, rfl⟩
  · exact .inr ⟨6, rfl, fun _ => by simpa using hpair, hd, rfl⟩
  · exact .inr ⟨7, rfl, nofun, hd, rfl⟩
  · exact .inl ⟨rfl, hpair, rfl⟩
  · cases hpair

theorem takeModRM_encMemShort {c : DCtx} {m : Mem} (hwf : m.wfShort = true) (hshort : c.l = false ∧ c.asz = true) (reg : BitVec 3)
    (rest : List Byte) : takeModRM c (encMemShort reg m ++ rest) = .ok (reg, .mem m, rest) := by
  rcases encMemShort_eq hwf reg with ⟨hm, hd, he⟩ | ⟨rm, hm, h6, hd, he⟩
  · rw [he, hm]
    cases hdisp : m.disp with
    | d16 v =>
      exact takeModRM_short (by decide) hshort
        (DRes.bind_of_ok (take16_bytes16 v rest) fun t => .ok (({ disp := .d16 t.1 } : Mem), t.2))
    | none | d8 _ | d32 _ => rw [hdisp] at hd; cases hd
  · rw [he, List.cons_append]
    refine takeModRM_short m.disp.mod_ne_three hshort ?_
    rw [takeMemShort_pair hd h6, ← hm]

/-! ## 32- and 64-bit addressing -/

theorem takeModRM_sib {c : DCtx} {mod : BitVec 2} {reg : BitVec 3} {sib : Byte} {m : Mem} {bs rest : List Byte} (hmod : mod ≠ 3)
    (hlong : ¬ (c.l = false ∧ c.asz = true)) (h : takeSib c mod sib bs = .ok (m, rest)) :
    takeModRM c (modrmByte mod reg 4 :: sib :: bs) = .ok (reg, .mem m, rest) :=
  takeModRM_long hmod hlong h

theorem takeMemLong_base {c : DCtx} {b : Reg} {d : Disp} (hb : c.b = b.hi) (hd : d.isD16 = false) (h4 : b.lo ≠ 4)
    (hnone : ¬ (b.lo = 5 ∧ d.mod = 0)) (bs : List Byte) :
    takeMemLong c d.mod b.lo (d.bytes ++ bs) = .ok ({ base := some b, disp := d }, bs) := by
  simp only [takeMemLong, if_neg h4, if_neg hnone, takeDisp_bytes hd, hb, regOf_hi_lo]
  rfl

theorem takeMemLong_disp32 (c : DCtx) (v : BitVec 32) (bs : List Byte) :
    takeMemLong c 0 5 (bytes32 v ++ bs) = .ok ({ disp := .d32 v, rip := c.l }, bs) :=
  DRes.bind_of_ok (take32_bytes32 v bs) fun t => .ok (({ disp := .d32 t.1, rip := c.l } : Mem), t.2)

/-- What the memory forms of R133 are: RIP-relative or displacement alone, an index alone, or a base. -/
theorem Mem.wfLong_cases {l : Bool} {m : Mem} (h : m.wfLong l = true) :
    m.index ≠ some .rsp ∧ (m.index = none → m.scale = 0) ∧
    ((∃ v, l = true ∧ m = { disp := .d32 v, rip := true }) ∨
     (∃ v, m = { index := m.index, scale := m.scale, disp := .d32 v }) ∨
     (∃ b, m = { base := some b, index := m.index, scale := m.scale, disp := m.disp } ∧ m.disp.isD16 = false ∧
       ¬ (b.lo = 5 ∧ m.disp.mod = 0))) := by
  obtain ⟨base, index, scale, disp, rip⟩ := m
  simp only [Mem.wfLong, Bool.and_eq_true, Bool.not_eq_true', bne_iff_ne] at h
  obtain ⟨⟨⟨⟨-, hd⟩, hrsp⟩, hscale⟩, hform⟩ := h
  have hs : index = none → scale = 0 := by rintro rfl; simpa using hscale
  refine ⟨hrsp, hs, ?_⟩
  cases rip with
  | true =>
    simp only [if_true, Bool.and_eq_true, Option.isNone_iff_eq_none] at hform
    obtain ⟨⟨⟨rfl, rfl⟩, rfl⟩, h32⟩ := hform
    cases disp with
    | d32 v => exact .inl ⟨v, rfl, by rw [hs rfl]⟩
    | none | d8 _ | d16 _ => cases h32
  | false =>
    cases base with
    | none =>
      cases disp with
      | d32 v => exact .inr (.inl ⟨v, rfl⟩)
      | none | d8 _ | d16 _ => cases hform
    | some b =>
      refine .inr (.inr ⟨b, rfl, hd, fun ⟨h5, hmod⟩ => ?_⟩)
      cases disp with
      | none =>
        obtain ⟨hrbp, hr13⟩ : b ≠ .rbp ∧ b ≠ .r13 := by simpa [Disp.isNone] using hform
        exact Reg.lo_ne_five hrbp hr13 h5
      | d8 _ | d16 _ | d32 _ => cases hmod

theorem takeModRM_encMemLong {c : DCtx} {m : Mem} (hwf : m.wfLong c.l = true) (hlong : ¬ (c.l = false ∧ c.asz = true))
    (hx : c.x = optHi m.index) (hb : c.b = optHi m.base) (reg : BitVec 3) (rest : List Byte) :
    takeModRM c (encMemLong c.l reg m ++ rest) = .ok (reg, .mem m, rest) := by
  obtain ⟨hrsp, hscale, hform⟩ := m.wfLong_cases hwf
  obtain ⟨base, index, scale, disp, rip⟩ := m
  rcases hform with ⟨v, hl, hm⟩ | ⟨v, hm⟩ | ⟨b, hm, hd, hnone⟩
  · cases hm
    exact takeModRM_long (by decide) hlong (hl ▸ takeMemLong_disp32 c v rest)
  · cases hm
    have hsib := takeModRM_sib (reg := reg) (by decide) hlong (takeSib_noBase hx hrsp hscale v rest)
    cases index with
    | some i => exact hsib
    | none =>
      obtain rfl : scale = 0 := hscale rfl
      cases hl : c.l with
      | true => exact hsib
      | false => exact takeModRM_long (by decide) hlong (hl ▸ takeMemLong_disp32 c v rest)
  · cases hm
    have hsib := takeModRM_sib (reg := reg) disp.mod_ne_three hlong (takeSib_base hx hb hrsp hscale hd hnone rest)
    cases index with
    | some i => exact hsib
    | none =>
      obtain rfl : scale = 0 := hscale rfl
      by_cases h4 : b.lo = 4
      · have he : encMemLong c.l reg { base := some b, disp := disp } = modrmByte disp.mod reg 4 :: modrmByte 0 4 4 :: disp.bytes :=
          if_pos h4
        rw [he]
        rw [h4] at hsib
        exact hsib
      · have he : encMemLong c.l reg { base := some b, disp := disp } = modrmByte disp.mod reg b.lo :: disp.bytes := if_neg h4
        rw [he]
        exact takeModRM_long disp.mod_ne_three hlong (takeMemLong_base hb hd h4 hnone rest)

/-! ## The r/m operand of either kind -/

/-- REX.X of an r/m operand. -/
def RM.hiIndex : RM → Bool
  | .reg _ => false
  | .mem m => optHi m.index

/-- REX.B of an r/m operand. -/
def RM.hiBase : RM → Bool
  | .reg b => b.hi
  | .mem m => optHi m.base

/-- The ModRM byte and what follows it. -/
def encOperand (l asz : Bool) (reg : BitVec 3) : RM → List Byte
  | .reg b => [modrmByte 3 reg b.lo]
  | .mem m => encMem l asz reg m

theorem encRM_eq (l : Bool) (mandatory : List Byte) (p : Pfx) (op : List Byte) (r : Bool) (reg : BitVec 3) (rm : RM) :
    encRM l mandatory p op r reg rm = encPfx mandatory p ++ encRex p.w r rm.hiIndex rm.hiBase ++ op ++ encOperand l p.asz reg rm := by
  cases rm <;> rfl

theorem takeModRM_encOperand {c : DCtx} {rm : RM} (hwf : rm.wf c.l c.asz = true) (hx : c.x = rm.hiIndex) (hb : c.b = rm.hiBase)
    (reg : BitVec 3) (rest : List Byte) : takeModRM c (encOperand c.l c.asz reg rm ++ rest) = .ok (reg, rm, rest) := by
  cases rm with
  | reg b => exact takeModRM_reg b hb
  | mem m =>
    simp only [RM.wf, Mem.wf, Bool.and_eq_true, Bool.not_eq_true'] at hwf
    simp only [encOperand, encMem]
    split
    · next hshort => exact takeModRM_encMemShort (by rwa [if_pos hshort] at hwf) hshort reg rest
    · next hlong => exact takeModRM_encMemLong (by rwa [if_neg hlong] at hwf) hlong hx hb reg rest

theorem optHi_of_wf {r : Option Reg} (h : Option.regWf false r = true) : optHi r = false := by
  cases r with
  | none => rfl
  | some r => exact Reg.hi_of_wf h

/-- An operand of compatibility mode has no register that needs REX. -/
theorem RM.hi_of_wf {asz : Bool} {rm : RM} (h : rm.wf false asz = true) : rm.hiIndex = false ∧ rm.hiBase = false := by
  cases rm with
  | reg b => exact ⟨rfl, Reg.hi_of_wf h⟩
  | mem m =>
    simp only [RM.wf, Mem.wf] at h
    split at h
    · rcases encMemShort_eq h 0 with ⟨hm, -⟩ | ⟨rm, hm, -⟩
      · rw [hm]; exact ⟨rfl, rfl⟩
      · rw [hm]
        exact (by decide : ∀ rm, optHi (shortPair rm).2 = false ∧ optHi (shortPair rm).1 = false) rm
    · simp only [Mem.wfLong, Bool.and_eq_true] at h
      obtain ⟨⟨⟨⟨⟨hbase, hindex⟩, -⟩, -⟩, -⟩, -⟩ := h
      exact ⟨optHi_of_wf hindex, optHi_of_wf hbase⟩

/-! ## Branch displacements and far pointers -/

theorem takeRel_encRel {c : DCtx} {p : Pfx} {rel : BitVec 32} (hp : c.pfx = p) (h : relWf c.l p rel = true) (bs : List Byte) :
    takeRel c (encRel c.l p rel ++ bs) = .ok (rel, bs) := by
  subst hp
  by_cases h16 : c.l = false ∧ c.osz = true
  · obtain ⟨hl, hosz⟩ := h16
    have hrel : rel = (rel.setWidth 16).signExtend 32 := by simpa [relWf, hl, hosz, DCtx.pfx] using h
    rw [takeRel, encRel, if_pos ⟨hl, hosz⟩, if_pos ⟨hl, hosz⟩]
    exact (DRes.bind_of_ok (take16_bytes16 _ bs) fun t => .ok (t.1.signExtend 32, t.2)).trans (by rw [← hrel])
  · have he : encRel c.l c.pfx rel = bytes32 rel := if_neg h16
    rw [takeRel, if_neg h16, he, take32_bytes32]

theorem takePtr_encPtr {c : DCtx} {p : Pfx} {off : BitVec 32} (hp : c.pfx = p) (h : ptrWf p off = true) (sel : BitVec 16)
    (bs : List Byte) : takePtr c (encPtr p off sel ++ bs) = .ok (off, sel, bs) := by
  subst hp
  by_cases h16 : c.osz = true ∧ c.w = false
  · obtain ⟨hosz, hw⟩ := h16
    have hoff : off = (off.setWidth 16).setWidth 32 := by
      simpa only [ptrWf, hosz, hw, DCtx.pfx, Bool.not_true, Bool.or_self, Bool.false_or, beq_iff_eq] using h
    rw [takePtr, encPtr, if_pos ⟨hosz, hw⟩, if_pos ⟨hosz, hw⟩, List.append_assoc, take16_bytes16]
    exact (DRes.bind_of_ok (take16_bytes16 sel bs) fun t => .ok (_, t.1, t.2)).trans (by rw [← hoff])
  · have he : encPtr c.pfx off sel = bytes32 off ++ bytes16 sel := congrArg (· ++ bytes16 sel) (if_neg h16)
    rw [takePtr, if_neg h16, he, List.append_assoc, take32_bytes32]
    exact DRes.bind_of_ok (take16_bytes16 sel bs) fun t => .ok (off, t.1, t.2)

/-! ## What the decoder makes of each opcode with an operand -/

section
variable {c : DCtx} {bs rest : List Byte} {reg : BitVec 3} {rm : RM} {m : Mem} {r : Reg} {rel : BitVec 32} {sel : BitVec 16}

theorem opcodeByte_jccRel8 : ∀ cc : BitVec 4, OpcodeByte ((7 : BitVec 4) ++ cc) := by decide

theorem decodeOne_jccRel8 (cc : BitVec 4) (rel : BitVec 8) :
    decodeOne c (((7 : BitVec 4) ++ cc) :: rel :: rest) = .ok (.jccRel8 c.pfx cc rel, rest) := by
  obtain ⟨h0F, h7, hcc⟩ := (by decide : ∀ cc : BitVec 4, let op : Byte := (7 : BitVec 4) ++ cc
    op ≠ 0x0F ∧ op.extractLsb' 4 4 = 7 ∧ op.extractLsb' 0 4 = cc) cc
  simp only [decodeOne, take8, bind, Except.bind, if_neg h0F, if_pos h7, hcc]
  rfl

theorem decodeTwo_jccRel32 (cc : BitVec 4) (h : takeRel c bs = .ok (rel, rest)) :
    decodeTwo c (((8 : BitVec 4) ++ cc) :: bs) = .ok (.jccRel32 c.pfx cc rel, rest) := by
  obtain ⟨h8, hcc⟩ := (by decide : ∀ cc : BitVec 4, let op : Byte := (8 : BitVec 4) ++ cc
    op.extractLsb' 4 4 = 8 ∧ op.extractLsb' 0 4 = cc) cc
  simp only [decodeTwo, take8, bind, Except.bind, if_pos h8, hcc, h]
  rfl

theorem decodeOne_callRel32 (h : takeRel c bs = .ok (rel, rest)) : decodeOne c (0xE8 :: bs) = .ok (.callRel32 c.pfx rel, rest) :=
  DRes.bind_of_ok h fun t => .ok (Instr.callRel32 c.pfx t.1, t.2)

theorem decodeOne_jmpRel32 (h : takeRel c bs = .ok (rel, rest)) : decodeOne c (0xE9 :: bs) = .ok (.jmpRel32 c.pfx rel, rest) :=
  DRes.bind_of_ok h fun t => .ok (Instr.jmpRel32 c.pfx t.1, t.2)

theorem decodeOne_callPtr (h : takePtr c bs = .ok (rel, sel, rest)) : decodeOne c (0x9A :: bs) = .ok (.callPtr c.pfx rel sel, rest) :=
  DRes.bind_of_ok h fun t => .ok (Instr.callPtr c.pfx t.1 t.2.1, t.2.2)

theorem decodeOne_jmpPtr (h : takePtr c bs = .ok (rel, sel, rest)) : decodeOne c (0xEA :: bs) = .ok (.jmpPtr c.pfx rel sel, rest) :=
  DRes.bind_of_ok h fun t => .ok (Instr.jmpPtr c.pfx t.1 t.2.1, t.2.2)

theorem decodeOne_retImm16 (v : BitVec 16) : decodeOne c (0xC2 :: bytes16 v ++ rest) = .ok (.retImm16 c.pfx v, rest) :=
  DRes.bind_of_ok (take16_bytes16 v rest) fun t => .ok (Instr.retImm16 c.pfx t.1, t.2)

theorem decodeOne_retFarImm16 (v : BitVec 16) : decodeOne c (0xCA :: bytes16 v ++ rest) = .ok (.retFarImm16 c.pfx v, rest) :=
  DRes.bind_of_ok (take16_bytes16 v rest) fun t => .ok (Instr.retFarImm16 c.pfx t.1, t.2)

theorem decodeOne_popf (h : (!c.osz || c.w) = true) : decodeOne c (0x9D :: rest) = .ok (.popf c.pfx, rest) :=
  if_neg (by rintro ⟨hosz, hw⟩; simp [hosz, hw] at h)

theorem decodeOne_popf16 (hosz : c.osz = true) (hw : (!c.w) = true) : decodeOne c (0x9D :: rest) = .ok (.popf16 c.pfx, rest) :=
  if_pos ⟨hosz, (Bool.not_eq_true' _).mp hw⟩

theorem decodeOne_jrcxzRel8 (hl : c.l = true) (rel : BitVec 8) : decodeOne c (0xE3 :: rel :: rest) = .ok (.jrcxzRel8 c.pfx rel, rest) :=
  if_pos hl

theorem decodeOne_jecxzRel8 (hl : (!c.l) = true) (rel : BitVec 8) :
    decodeOne c (0xE3 :: rel :: rest) = .ok (.jecxzRel8 c.pfx rel, rest) :=
  if_neg (by simpa using hl)

theorem decodeOne_movRMSreg (h : takeModRM c bs = .ok (reg, rm, rest)) : decodeOne c (0x8C :: bs) = .ok (.movRMSreg c.pfx reg rm, rest) :=
  DRes.bind_of_ok h fun t => .ok (Instr.movRMSreg c.pfx t.1 t.2.1, t.2.2)

theorem decodeOne_movSregRM (h : takeModRM c bs = .ok (reg, rm, rest)) : decodeOne c (0x8E :: bs) = .ok (.movSregRM c.pfx reg rm, rest) :=
  DRes.bind_of_ok h fun t => .ok (Instr.movSregRM c.pfx t.1 t.2.1, t.2.2)

theorem decodeTwo_nopRM (h : takeModRM c bs = .ok (0, rm, rest)) : decodeTwo c (0x1F :: bs) = .ok (.nopRM c.pfx rm, rest) :=
  DRes.bind_of_ok h fun t => if t.1 = 0 then .ok (Instr.nopRM c.pfx t.2.1, t.2.2) else .error (.notInTable 0x1F)

theorem decodeTwo_lar (hr : regOf c.r reg = r) (h : takeModRM c bs = .ok (reg, rm, rest)) :
    decodeTwo c (0x02 :: bs) = .ok (.lar c.pfx r rm, rest) :=
  hr ▸ DRes.bind_of_ok h fun t => .ok (Instr.lar c.pfx (regOf c.r t.1) t.2.1, t.2.2)

theorem decodeTwo_lsl (hr : regOf c.r reg = r) (h : takeModRM c bs = .ok (reg, rm, rest)) :
    decodeTwo c (0x03 :: bs) = .ok (.lsl c.pfx r rm, rest) :=
  hr ▸ DRes.bind_of_ok h fun t => .ok (Instr.lsl c.pfx (regOf c.r t.1) t.2.1, t.2.2)

theorem decodeOne_lea (hr : regOf c.r reg = r) (h : takeModRM c bs = .ok (reg, .mem m, rest)) :
    decodeOne c (0x8D :: bs) = .ok (.lea c.pfx r m, rest) :=
  hr ▸ DRes.bind_of_ok h fun t => memOnly t.2.1 (.lea c.pfx (regOf c.r t.1)) t.2.2

theorem decodeTwo_lss (hr : regOf c.r reg = r) (h : takeModRM c bs = .ok (reg, .mem m, rest)) :
    decodeTwo c (0xB2 :: bs) = .ok (.lss c.pfx r m, rest) :=
  hr ▸ DRes.bind_of_ok h fun t => memOnly t.2.1 (.lss c.pfx (regOf c.r t.1)) t.2.2

theorem decodeTwo_lfs (hr : regOf c.r reg = r) (h : takeModRM c bs = .ok (reg, .mem m, rest)) :
    decodeTwo c (0xB4 :: bs) = .ok (.lfs c.pfx r m, rest) :=
  hr ▸ DRes.bind_of_ok h fun t => memOnly t.2.1 (.lfs c.pfx (regOf c.r t.1)) t.2.2

theorem decodeTwo_lgs (hr : regOf c.r reg = r) (h : takeModRM c bs = .ok (reg, .mem m, rest)) :
    decodeTwo c (0xB5 :: bs) = .ok (.lgs c.pfx r m, rest) :=
  hr ▸ DRes.bind_of_ok h fun t => memOnly t.2.1 (.lgs c.pfx (regOf c.r t.1)) t.2.2

/-- In compatibility mode C4, C5 and 63 are LES, LDS and ARPL. -/
theorem decodeCompatOnly_of_compat (hl : (!c.l) = true) (op : Byte) (h : takeModRM c bs = .ok (reg, rm, rest)) :
    decodeCompatOnly c op bs = if op = 0xC4 then memOnly rm (.les c.pfx (regOf c.r reg)) rest
      else if op = 0xC5 then memOnly rm (.lds c.pfx (regOf c.r reg)) rest
      else .ok (.arpl c.pfx rm (regOf c.r reg), rest) := by
  rw [decodeCompatOnly, if_neg (by simpa using hl), h]
  rfl

theorem decodeOne_les (hl : (!c.l) = true) (hr : regOf c.r reg = r) (h : takeModRM c bs = .ok (reg, .mem m, rest)) :
    decodeOne c (0xC4 :: bs) = .ok (.les c.pfx r m, rest) :=
  hr ▸ decodeCompatOnly_of_compat hl 0xC4 h

theorem decodeOne_lds (hl : (!c.l) = true) (hr : regOf c.r reg = r) (h : takeModRM c bs = .ok (reg, .mem m, rest)) :
    decodeOne c (0xC5 :: bs) = .ok (.lds c.pfx r m, rest) :=
  hr ▸ decodeCompatOnly_of_compat hl 0xC5 h

theorem decodeOne_arpl (hl : (!c.l) = true) (hr : regOf c.r reg = r) (h : takeModRM c bs = .ok (reg, rm, rest)) :
    decodeOne c (0x63 :: bs) = .ok (.arpl c.pfx rm r, rest) :=
  hr ▸ decodeCompatOnly_of_compat hl 0x63 h

/-- The reg field that the decoder reads stands in the first byte. -/
theorem takeModRM_head (h : takeModRM c bs = .ok (reg, rm, rest)) : ∃ b t, bs = b :: t ∧ b.extractLsb' 3 3 = reg := by
  cases bs with
  | nil => cases h
  | cons b t =>
    refine ⟨b, t, rfl, ?_⟩
    simp only [takeModRM, take8, bind, Except.bind] at h
    split at h
    · cases h; rfl
    · split at h
      all_goals
        split at h
        · cases h
        · cases h; rfl

/-- LMSW with a register: its ModRM byte is none of the fixed third bytes of 0F 01, whose reg fields are 0, 1 and 7. -/
theorem decodeGroup7_lmsw (h : takeModRM c bs = .ok (6, rm, rest)) : decodeGroup7 c bs = .ok (.lmsw c.pfx rm, rest) := by
  rw [decodeGroup7, h]
  cases rm with
  | mem m => rfl
  | reg r =>
    obtain ⟨b, t, rfl, h6⟩ := takeModRM_head h
    have hne (v : Byte) (hv : v.extractLsb' 3 3 ≠ 6) : b ≠ v := fun hb => hv (hb ▸ h6)
    simp only [take8, bind, Except.bind, hne 0xC2 (by decide), hne 0xC3 (by decide), hne 0xCA (by decide), hne 0xCD (by decide),
      hne 0xF8 (by decide), false_and, if_false]
    rfl

end

/-! ## MOV to and from control registers -/

theorem takeCrOperands_encoded {c : DCtx} {g : Reg} (hb : c.b = g.hi) (n : BitVec 3) (rest : List Byte) :
    takeCrOperands c (modrmByte 3 n g.lo :: rest) = .ok (n, g, rest) := by
  simp only [takeCrOperands, take8, bind, Except.bind, modrmByte_reg, modrmByte_rm, hb, regOf_hi_lo]
  rfl

theorem decodeTwo_movRCr {c : DCtx} {crn : BitVec 4} {g : Reg} {bs rest : List Byte} (hr : c.r = crn.getLsbD 3)
    (h : takeCrOperands c bs = .ok (crn.setWidth 3, g, rest)) : decodeTwo c (0x20 :: bs) = .ok (.movRCr crn g, rest) := by
  have hcrn := (by decide : ∀ n : BitVec 4, (n.setWidth 3).setWidth 4 + (if n.getLsbD 3 then 8 else 0) = n) crn
  rw [← hr] at hcrn
  exact (DRes.bind_of_ok h fun t => .ok (Instr.movRCr (t.1.setWidth 4 + (if c.r then 8 else 0)) t.2.1, t.2.2)).trans (by rw [hcrn])

theorem decodeTwo_movToCr (c : DCtx) (bs : List Byte) : decodeTwo c (0x22 :: bs) = decodeMovToCr c bs := rfl

/-! ## Encodings by their form -/

section
variable {l : Bool} {p : Pfx} {op : Byte} {body rest : List Byte} {i : Instr}

theorem Pfx.w_of_wf (hp : p.wf l = true) (hl : l = false) : p.w = false := by
  subst hl; simpa [Pfx.wf] using hp

/-- An instruction of prefixes, opcode and what follows it. -/
theorem decode_encP (hp : p.wf l = true) (hop : OpcodeByte op)
    (h : decodeOne (.ofPfx l .none p p.w false false false) (op :: body ++ rest) = .ok (i, rest)) :
    decode l (encP p (op :: body) ++ rest) = .ok (i, (encP p (op :: body)).length) :=
  decode_encoding (rep := .none) hop (fun hl => by rw [Pfx.w_of_wf hp hl]; rfl) h

/-- An instruction that is its opcode and what follows it. -/
theorem decode_bytes (hop : OpcodeByte op)
    (h : decodeOne (.ofPfx l .none {} false false false false) (op :: body ++ rest) = .ok (i, rest)) :
    decode l (op :: body ++ rest) = .ok (i, (op :: body).length) :=
  decode_encP (p := {}) (by cases l <;> rfl) hop h

/-- An instruction that is a mandatory repeat code, its opcode and what follows it. -/
theorem decode_mandatory (rep : Rep) (hop : OpcodeByte op)
    (h : decodeOne (.ofPfx l rep {} false false false false) (op :: body ++ rest) = .ok (i, rest)) :
    decode l (rep.bytes ++ op :: body ++ rest) = .ok (i, (rep.bytes ++ op :: body).length) := by
  have henc : rep.bytes ++ op :: body = encPfx rep.bytes {} ++ encRex false false false false ++ op :: body := by
    simp [encPfx, encRex]
  rw [henc]
  exact decode_encoding hop (fun _ => rfl) h

/-- An instruction with an r/m operand, after a mandatory repeat code or none: what its opcode makes of the operand is enough. -/
theorem decode_encRM_rep (rep : Rep) {r : Bool} {reg : BitVec 3} {rm : RM} (hp : p.wf l = true) (hr : l = false → r = false)
    (hrm : rm.wf l p.asz = true) (hop : OpcodeByte op)
    (h : ∀ bs, takeModRM (.ofPfx l rep p p.w r rm.hiIndex rm.hiBase) bs = .ok (reg, rm, rest) →
      decodeOne (.ofPfx l rep p p.w r rm.hiIndex rm.hiBase) (op :: body ++ bs) = .ok (i, rest)) :
    decode l (encRM l rep.bytes p (op :: body) r reg rm ++ rest) = .ok (i, (encRM l rep.bytes p (op :: body) r reg rm).length) := by
  have hrex : l = false → (p.w || r || rm.hiIndex || rm.hiBase) = false := by
    rintro rfl
    obtain ⟨hindex, hbase⟩ := RM.hi_of_wf hrm
    rw [Pfx.w_of_wf hp rfl, hr rfl, hindex, hbase]
    rfl
  have hone := h _ (takeModRM_encOperand (c := .ofPfx l rep p p.w r rm.hiIndex rm.hiBase) hrm rfl rfl reg rest)
  have hdec := decode_encoding (rep := rep) (body := body ++ encOperand l p.asz reg rm) hop hrex
    (by rw [List.cons_append, List.append_assoc]; exact hone)
  rw [encRM_eq]
  simpa only [List.cons_append, List.append_assoc] using hdec

/-- The same without a mandatory repeat code, and with a ModRM.reg that names no register. -/
theorem decode_encRM {reg : BitVec 3} {rm : RM} (hp : p.wf l = true) (hrm : rm.wf l p.asz = true) (hop : OpcodeByte op)
    (h : ∀ bs, takeModRM (.ofPfx l .none p p.w false rm.hiIndex rm.hiBase) bs = .ok (reg, rm, rest) →
      decodeOne (.ofPfx l .none p p.w false rm.hiIndex rm.hiBase) (op :: body ++ bs) = .ok (i, rest)) :
    decode l (encRM l [] p (op :: body) false reg rm ++ rest) = .ok (i, (encRM l [] p (op :: body) false reg rm).length) :=
  decode_encRM_rep .none hp (fun _ => rfl) hrm hop h

/-- The same with a register `r` in ModRM.reg and REX.R. -/
theorem decode_encRM_reg {r : Reg} {rm : RM} (hp : p.wf l = true) (hr : r.wf l = true) (hrm : rm.wf l p.asz = true) (hop : OpcodeByte op)
    (h : regOf r.hi r.lo = r → ∀ bs, takeModRM (.ofPfx l .none p p.w r.hi rm.hiIndex rm.hiBase) bs = .ok (r.lo, rm, rest) →
      decodeOne (.ofPfx l .none p p.w r.hi rm.hiIndex rm.hiBase) (op :: body ++ bs) = .ok (i, rest)) :
    decode l (encRM l [] p (op :: body) r.hi r.lo rm ++ rest) = .ok (i, (encRM l [] p (op :: body) r.hi r.lo rm).length) :=
  decode_encRM_rep .none hp (fun hl => Reg.hi_of_wf (hl ▸ hr)) hrm hop (h (regOf_hi_lo r))

/-- MOV to or from a control register. -/
theorem decode_encCr {r : Bool} {n : BitVec 3} {g : Reg} (hr : l = false → r = false) (hg : g.wf l = true)
    (h : ∀ bs, takeCrOperands (.ofPfx l .none {} false r false g.hi) bs = .ok (n, g, rest) →
      decodeTwo (.ofPfx l .none {} false r false g.hi) (op :: bs) = .ok (i, rest)) :
    decode l (encCr op r n g ++ rest) = .ok (i, (encCr op r n g).length) := by
  refine decode_encoding (rep := .none) (p := {}) (op := 0x0F) (body := [op, modrmByte 3 n g.lo]) (by decide) ?_
    (h _ (takeCrOperands_encoded rfl n rest))
  rintro rfl
  rw [hr rfl, Reg.hi_of_wf hg]
  rfl

end

/-! ## Every instruction -/

/-- Settles O1: every constructor is encoded in one of the forms above, and each form decodes to what its opcode makes of the operand
that the decoder took back. -/
theorem decodeEncode : Obligations.DecodeEncode := by
  intro l i rest hwf
  cases i
  case jccRel8 p cc rel =>
    exact decode_encP hwf (opcodeByte_jccRel8 cc) (decodeOne_jccRel8 cc rel)
  case loopneRel8 | loopeRel8 | loopRel8 | jmpRel8 | ret | retFar | iret | sysret | sysexit | popEs | popSs | popDs | popFs | popGs
      | pushEs | pushCs | pushSs | pushDs | pushFs | pushGs | pushf | inEaxImm | outImmEax | inEaxDx | outDxEax =>
    exact decode_encP hwf (by decide) rfl
  case nop | intImm8 | int3 | into | int1 | syscall | sysenter | rsm | swapgs | rdmsr | wrmsr | cpuid | cli | sti | inAlImm | outImmAl
      | inAlDx | outDxAl | insb | insd | outsb | outsd | vmlaunch | vmresume | getsec =>
    exact decode_bytes (by decide) rfl
  case eretu => exact decode_mandatory .f3 (by decide) rfl
  case erets => exact decode_mandatory .f2 (by decide) rfl
  case seamret => exact decode_encP (p := { osz := true }) (by cases l <;> rfl) (by decide) rfl
  case retImm16 p v => exact decode_encP hwf (by decide) (decodeOne_retImm16 v)
  case retFarImm16 p v => exact decode_encP hwf (by decide) (decodeOne_retFarImm16 v)
  case movCr0R g | movCr2R g | movCr3R g | movCr4R g =>
    exact decode_encCr (fun _ => rfl) hwf fun _ h => by rw [decodeTwo_movToCr, decodeMovToCr, h]; rfl
  all_goals simp only [Instr.wf, Bool.and_eq_true] at hwf
  case jccRel32 p cc rel =>
    obtain ⟨hp, hrel⟩ := hwf
    exact decode_encP hp (by decide) (decodeTwo_jccRel32 cc (takeRel_encRel rfl hrel rest))
  case jmpRel32 p rel =>
    obtain ⟨hp, hrel⟩ := hwf
    exact decode_encP hp (by decide) (decodeOne_jmpRel32 (takeRel_encRel rfl hrel rest))
  case callRel32 p rel =>
    obtain ⟨hp, hrel⟩ := hwf
    exact decode_encP hp (by decide) (decodeOne_callRel32 (takeRel_encRel rfl hrel rest))
  case callPtr p off sel =>
    obtain ⟨hp, hoff⟩ := hwf
    exact decode_encP hp (by decide) (decodeOne_callPtr (takePtr_encPtr (p := p) rfl hoff sel rest))
  case jmpPtr p off sel =>
    obtain ⟨hp, hoff⟩ := hwf
    exact decode_encP hp (by decide) (decodeOne_jmpPtr (takePtr_encPtr (p := p) rfl hoff sel rest))
  case jecxzRel8 p rel =>
    obtain ⟨hp, hl⟩ := hwf
    exact decode_encP hp (by decide) (decodeOne_jecxzRel8 hl rel)
  case jrcxzRel8 p rel =>
    obtain ⟨hp, hl⟩ := hwf
    exact decode_encP hp (by decide) (decodeOne_jrcxzRel8 hl rel)
  case popf p =>
    obtain ⟨hp, hsize⟩ := hwf
    exact decode_encP hp (by decide) (decodeOne_popf hsize)
  case popf16 p =>
    obtain ⟨⟨hp, hosz⟩, hw⟩ := hwf
    exact decode_encP hp (by decide) (decodeOne_popf16 hosz hw)
  case movRCr crn g =>
    obtain ⟨hg, hcrn⟩ := hwf
    refine decode_encCr (fun hl => ?_) hg fun _ => decodeTwo_movRCr rfl
    exact (by decide : ∀ n : BitVec 4, n.toNat < 8 → n.getLsbD 3 = false) crn (by simpa [hl] using hcrn)
  case movCr8R g =>
    obtain ⟨hl, hg⟩ := hwf
    exact decode_encCr (fun h => by rw [h] at hl; cases hl) hg fun _ h => by rw [decodeTwo_movToCr, decodeMovToCr, h]; rfl
  case jmpRM p rm | callRM p rm =>
    obtain ⟨hp, hrm⟩ := hwf
    exact decode_encRM hp hrm (by decide) fun bs h => by
      show decodeGroup5 _ bs = _
      rw [decodeGroup5, h]; rfl
  case callFarM p m | jmpFarM p m =>
    obtain ⟨hp, hm⟩ := hwf
    exact decode_encRM (rm := .mem m) hp hm (by decide) fun bs h => by
      show decodeGroup5 _ bs = _
      rw [decodeGroup5, h]; rfl
  case sldt p rm | str p rm | lldt p rm | ltr p rm | verr p rm | verw p rm =>
    obtain ⟨hp, hrm⟩ := hwf
    exact decode_encRM hp hrm (by decide) fun bs h => by
      show decodeGroup6 _ bs = _
      rw [decodeGroup6, h]; rfl
  case lkgs p rm =>
    obtain ⟨hp, hrm⟩ := hwf
    exact decode_encRM_rep .f2 hp (fun _ => rfl) hrm (by decide) fun bs h => by
      show decodeGroup6 _ bs = _
      rw [decodeGroup6, h]; rfl
  case sgdt p m | sidt p m | lgdt p m | lidt p m =>
    obtain ⟨hp, hm⟩ := hwf
    exact decode_encRM (rm := .mem m) hp hm (by decide) fun bs h => by
      show decodeGroup7 _ bs = _
      rw [decodeGroup7, h]; rfl
  case lmsw p rm =>
    obtain ⟨hp, hrm⟩ := hwf
    exact decode_encRM hp hrm (by decide) fun _ => decodeGroup7_lmsw
  case rdfsbase p r | rdgsbase p r | wrfsbase p r | wrgsbase p r =>
    obtain ⟨hp, hr⟩ := hwf
    exact decode_encRM_rep .f3 (rm := .reg r) hp (fun _ => rfl) hr (by decide) fun bs h => by
      show decodeFsGsBase _ bs = _
      rw [decodeFsGsBase, h]; rfl
  case nopRM p rm =>
    obtain ⟨hp, hrm⟩ := hwf
    exact decode_encRM hp hrm (by decide) fun _ => decodeTwo_nopRM
  case movSregRM p sr rm =>
    obtain ⟨hp, hrm⟩ := hwf
    exact decode_encRM hp hrm (by decide) fun _ => decodeOne_movSregRM
  case movRMSreg p sr rm =>
    obtain ⟨hp, hrm⟩ := hwf
    exact decode_encRM hp hrm (by decide) fun _ => decodeOne_movRMSreg
  case lar p r rm =>
    obtain ⟨⟨hp, hr⟩, hrm⟩ := hwf
    exact decode_encRM_reg hp hr hrm (by decide) fun h _ => decodeTwo_lar h
  case lsl p r rm =>
    obtain ⟨⟨hp, hr⟩, hrm⟩ := hwf
    exact decode_encRM_reg hp hr hrm (by decide) fun h _ => decodeTwo_lsl h
  case arpl p rm r =>
    obtain ⟨⟨⟨hp, hl⟩, hr⟩, hrm⟩ := hwf
    exact decode_encRM_reg hp hr hrm (by decide) fun h _ => decodeOne_arpl hl h
  case lea p r m =>
    obtain ⟨⟨hp, hr⟩, hm⟩ := hwf
    exact decode_encRM_reg (rm := .mem m) hp hr hm (by decide) fun h _ => decodeOne_lea h
  case lss p r m =>
    obtain ⟨⟨hp, hr⟩, hm⟩ := hwf
    exact decode_encRM_reg (rm := .mem m) hp hr hm (by decide) fun h _ => decodeTwo_lss h
  case lfs p r m =>
    obtain ⟨⟨hp, hr⟩, hm⟩ := hwf
    exact decode_encRM_reg (rm := .mem m) hp hr hm (by decide) fun h _ => decodeTwo_lfs h
  case lgs p r m =>
    obtain ⟨⟨hp, hr⟩, hm⟩ := hwf
    exact decode_encRM_reg (rm := .mem m) hp hr hm (by decide) fun h _ => decodeTwo_lgs h
  case lds p r m =>
    obtain ⟨⟨⟨hp, hl⟩, hr⟩, hm⟩ := hwf
    exact decode_encRM_reg (rm := .mem m) hp hr hm (by decide) fun h _ => decodeOne_lds hl h
  case les p r m =>
    obtain ⟨⟨⟨hp, hl⟩, hr⟩, hm⟩ := hwf
    exact decode_encRM_reg (rm := .mem m) hp hr hm (by decide) fun h _ => decodeOne_les hl h

end Sys2Proof

/-! # Near branches, LEA and NOP (O14, O15, O16, O18), 16-bit addressing (O17), the forms that are removed (O21)

Near branches have one target (`State.nearTarget`) and one size: each meaning is put together from what these answer, and LOOP, JECXZ, CALL
and RET from the branch. O17 needs where a memory operand is referenced first, O21 that #UD comes first and where its delivery ends. -/

namespace Sys2Proof.Machine

/-! ## Parts of a meaning in sequence -/

namespace Res
variable {α β : Type} {first : Res α} {next : α → Res β} {e : Exc}

/-- What follows a part that completes goes on with its answer. -/
theorem bind_of_ok {v : α} (h : first = .ok v) : first >>= next = next v := by rw [h]; rfl

/-- What follows a part that raises is not reached. -/
theorem bind_of_raise (h : first = raise e) : first >>= next = raise e := by rw [h]; rfl

/-- A check and what follows it raise the same exception, whether the check fails or not. -/
theorem raiseIf_bind {next : Unit → Res β} (b : Bool) (h : next () = raise e) : raiseIf b e >>= next = raise e := by
  cases b
  · exact h
  · rfl

end Res

theorem finish_of_ok {s t : State} {r : Res State} (h : r = .ok t) : finish s r = .next t := by rw [h]; rfl

theorem finish_of_raise {s : State} {r : Res State} {e : Exc} (h : r = raise e) : finish s r = s.takeException e := by rw [h]; rfl

/-! ## Registers written in a size (R21, R135) -/

@[simp] theorem low32_low32 (v : Word) : low32 (low32 v) = low32 v := by simp [low32, BitVec.and_assoc]

/-- The low bits of a value are what a write to a register of zeros leaves. -/
theorem regWritten_zero (sz : OpSize) (v : Word) : regWritten 0 sz.bytes v = sz.trunc v := by
  cases sz
  case w16 => exact (congrArg (· ||| low16 v) BitVec.zero_and).trans BitVec.zero_or
  case w32 | w64 => rfl

/-- Only the low bits of the value are written. -/
theorem regWritten_trunc (old : Word) (sz : OpSize) (v : Word) : regWritten old sz.bytes (sz.trunc v) = regWritten old sz.bytes v := by
  have low16_low16 : low16 v &&& 0xFFFF = low16 v := by simp [low16, BitVec.and_assoc]
  cases sz
  case w16 => exact congrArg ((old &&& ~~~(0xFFFF : Word)) ||| ·) low16_low16
  case w32 => exact low32_low32 v
  case w64 => rfl

namespace State
variable (s : State) (p : Pfx)

theorem setRegSz_eq_regWritten (sz : OpSize) (r : Reg) (v : Word) :
    s.setRegSz sz r v = { s with gpr := s.gpr.set r (regWritten (s.reg r) sz.bytes v) } := by cases sz <;> rfl

theorem opSize_bytes : (s.opSize p).bytes = dataBytes s p := by
  unfold State.opSize dataBytes State.mode64
  split
  · rfl
  · split <;> rfl

theorem countSize_bytes : (s.countSize p).bytes = if s.cs.l then (if p.asz then 4 else 8) else if p.asz then 2 else 4 := by
  unfold State.countSize State.mode64
  repeat' split
  all_goals rfl

/-- An effective address has as many bits as a count register (R136, R180). -/
theorem truncAddr_eq (a : Word) : s.truncAddr p a = (s.countSize p).trunc a := by
  unfold State.truncAddr State.countSize
  repeat' split
  all_goals rfl

/-! ## The size and the target of a near branch (R135, R173, R194) -/

variable {s p}

theorem nearSize_of_not16 (h : s.cs.l = true ∨ p.osz = false) : s.nearSize p = if s.cs.l then .w64 else .w32 := by
  rcases h with h | h <;> simp [State.nearSize, State.mode64, h]

theorem rejectNear16_ok (h : s.cs.l = true ∨ p.osz = false) : s.rejectNear16 p = .ok () := by
  rw [State.rejectNear16, nearSize_of_not16 h]
  cases s.cs.l <;> rfl

theorem nearTarget_of_legal {v t : Word} (h : legalTarget s v = some t) : s.nearTarget v = .ok t := by
  unfold legalTarget at h
  unfold State.nearTarget
  split at h
  · next hl =>
    rw [if_pos (show s.mode64 = true from hl)]
    split at h
    · next hc => cases h; exact if_pos hc
    · cases h
  · next hl =>
    cases h
    exact if_neg hl

theorem nearTarget_of_illegal {v : Word} (h : legalTarget s v = none) : s.nearTarget v = raise (excGp 0) := by
  unfold legalTarget at h
  unfold State.nearTarget
  split at h
  · next hl =>
    rw [if_pos (show s.mode64 = true from hl)]
    split at h
    · cases h
    · next hc => exact if_neg hc
  · cases h

/-- The condition of bits 3:1, negated by bit 0, is the entry of the table of condition codes (R191). -/
theorem cond_eq (s : State) (cc : BitVec 4) : s.cond cc = condTrue cc s.rflags := by
  obtain ⟨n, hn⟩ := cc
  unfold State.cond State.condBase condTrue State.of State.cf State.zf State.sf State.pf bit
  generalize s.rflags.getLsbD 7 = sf
  interval_cases n
  all_goals cases sf <;> simp [BitVec.extractLsb']

/-! ## Branches (R178 to R183) -/

/-- A relative branch to a legal target, taken or not. -/
theorem branchRel_of_legal {rel t : Word} (h : legalTarget s (s.nextRip + rel) = some t) (taken : Bool) :
    s.branchRel taken rel = .ok { s with rip := if taken then t else s.nextRip } := by
  cases taken
  · rfl
  · exact Res.bind_of_ok (nearTarget_of_legal h)

/-- One whose target is not legal faults where it is taken. -/
theorem branchRel_of_illegal {rel : Word} (h : legalTarget s (s.nextRip + rel) = none) (taken : Bool) :
    s.branchRel taken rel = if taken then raise (excGp 0) else .ok { s with rip := s.nextRip } := by
  cases taken
  · rfl
  · exact Res.bind_of_raise (nearTarget_of_illegal h)

/-! ## The meanings of the near branches, where they are not 16-bit -/

/-- The state in which the count register is one less (R180). -/
def counted (s : State) (p : Pfx) : State := s.setRegSz (s.countSize p) .rcx (s.countLess p)

theorem counted_eq (s : State) (p : Pfx) :
    s.counted p = { s with gpr := s.gpr.set .rcx (regWritten (s.reg .rcx) (s.countSize p).bytes (s.count p - 1)) } := by
  rw [State.counted, setRegSz_eq_regWritten, State.countLess, regWritten_trunc]

section
variable (h : s.cs.l = true ∨ p.osz = false)
include h

theorem exec_jccRel8 (cc : BitVec 4) (rel : BitVec 8) :
    exec (.jccRel8 p cc rel) s = finish s (s.branchRel (condTrue cc s.rflags) (rel.signExtend 64)) :=
  congrArg (finish s) ((Res.bind_of_ok (rejectNear16_ok h)).trans (by rw [cond_eq]))

theorem exec_jccRel32 (cc : BitVec 4) (rel : BitVec 32) :
    exec (.jccRel32 p cc rel) s = finish s (s.branchRel (condTrue cc s.rflags) (rel.signExtend 64)) :=
  congrArg (finish s) ((Res.bind_of_ok (rejectNear16_ok h)).trans (by rw [cond_eq]))

theorem exec_jmpRel8 (rel : BitVec 8) : exec (.jmpRel8 p rel) s = finish s (s.branchRel true (rel.signExtend 64)) :=
  congrArg (finish s) (Res.bind_of_ok (rejectNear16_ok h))

theorem exec_jmpRel32 (rel : BitVec 32) : exec (.jmpRel32 p rel) s = finish s (s.branchRel true (rel.signExtend 64)) :=
  congrArg (finish s) (Res.bind_of_ok (rejectNear16_ok h))

theorem exec_callRel32 (rel : BitVec 32) :
    exec (.callRel32 p rel) s = finish s (s.nearTarget (s.nextRip + rel.signExtend 64) >>= s.callTo p) :=
  congrArg (finish s) (Res.bind_of_ok (rejectNear16_ok h))

theorem nearOperand_eq {rm : RM} {v : Word} (hv : s.readRM p (if s.cs.l then .w64 else .w32) rm = .ok v) :
    s.nearOperand p rm = s.nearTarget v := by
  rw [State.nearOperand, Res.bind_of_ok (rejectNear16_ok h), nearSize_of_not16 h, Res.bind_of_ok hv]

/-- LOOP and its kin with a legal target. -/
theorem loopWhile_of_legal {rel : BitVec 8} {t : Word} (ht : legalTarget s (s.nextRip + rel.signExtend 64) = some t) (c : Bool) :
    s.loopWhile p rel c = .ok { s.counted p with rip := if s.countLess p != 0 && c then t else s.nextRip } := by
  have hu : legalTarget (s.counted p) ((s.counted p).nextRip + rel.signExtend 64) = some t := by rw [counted_eq]; exact ht
  rw [State.loopWhile, Res.bind_of_ok (rejectNear16_ok h), ← State.counted, branchRel_of_legal hu, counted_eq]

/-- With one that is not legal they fault where they branch. -/
theorem loopWhile_of_illegal {rel : BitVec 8} (ht : legalTarget s (s.nextRip + rel.signExtend 64) = none) (c : Bool) :
    s.loopWhile p rel c = if s.countLess p != 0 && c then raise (excGp 0) else .ok { s.counted p with rip := s.nextRip } := by
  have hu : legalTarget (s.counted p) ((s.counted p).nextRip + rel.signExtend 64) = none := by rw [counted_eq]; exact ht
  rw [State.loopWhile, Res.bind_of_ok (rejectNear16_ok h), ← State.counted, branchRel_of_illegal hu, counted_eq]

theorem jumpIfZero_eq (rel : BitVec 8) : s.jumpIfZero p rel = s.branchRel (s.count p == 0) (rel.signExtend 64) :=
  Res.bind_of_ok (rejectNear16_ok h)

end

end State

/-- Settles O14: all forms are `branchRel` with their condition, which is what its target and the condition make of it. -/
theorem relativeBranches : Obligations.RelativeBranches := by
  intro p cc rel8 rel32 s h
  have untaken : ∀ rel : Word, finish s (s.branchRel false rel) = .next { s with rip := s.nextRip } := fun _ => rfl
  have taken : ∀ (rel t : Word), legalTarget s (s.nextRip + rel) = some t →
      finish s (s.branchRel true rel) = .next { s with rip := t } := fun rel t ht =>
    finish_of_ok (State.branchRel_of_legal ht true)
  have faults : ∀ rel : Word, legalTarget s (s.nextRip + rel) = none →
      finish s (s.branchRel true rel) = s.takeException (excGp 0) := fun rel ht =>
    finish_of_raise (State.branchRel_of_illegal ht true)
  rw [State.exec_jccRel8 h, State.exec_jccRel32 h, State.exec_jmpRel8 h, State.exec_jmpRel32 h]
  refine ⟨fun hc => ?_, fun t ht => ⟨taken _ t ht, fun hc => ?_⟩, fun t ht => ⟨taken _ t ht, fun hc => ?_⟩,
    fun ht => ⟨faults _ ht, fun hc => ?_⟩, fun ht => ⟨faults _ ht, fun hc => ?_⟩⟩ <;> rw [hc]
  · exact ⟨untaken _, untaken _⟩
  · exact taken _ t ht
  · exact taken _ t ht
  · exact faults _ ht
  · exact faults _ ht

/-- Settles O15: the branch of LOOP and its kin starts from `State.counted`, that of JECXZ and JRCXZ from the state itself. -/
theorem countBranches : Obligations.CountBranches := by
  intro p rel s n c h hn hc
  obtain rfl : n = (s.countSize p).bytes := hn.trans (s.countSize_bytes p).symm
  obtain rfl : c = s.count p := hc.trans (regWritten_zero _ _)
  have hless : regWritten 0 (s.countSize p).bytes (s.count p - 1) = s.countLess p := regWritten_zero _ _
  rw [hless]
  refine ⟨fun t ht => ?_, fun ht => ?_⟩
  · have loops := fun c => State.loopWhile_of_legal h ht c
    have jumps := (State.jumpIfZero_eq h rel).trans (State.branchRel_of_legal ht _)
    simp only [State.counted_eq, Bool.and_eq_true, bne_iff_ne, beq_iff_eq] at loops jumps
    refine ⟨finish_of_ok ?_, finish_of_ok (loops s.zf), finish_of_ok ?_, finish_of_ok jumps, finish_of_ok jumps⟩
    · simp [loops]
    · simp [loops, State.zf]
  · have loops := fun c => State.loopWhile_of_illegal h ht c
    have jumps := (State.jumpIfZero_eq h rel).trans (State.branchRel_of_illegal ht _)
    simp only [State.counted_eq, Bool.and_eq_true, bne_iff_ne, beq_iff_eq] at loops jumps
    have untaken : ∀ {c : Bool}, s.countLess p = 0 ∨ c = false → ¬ (s.countLess p ≠ 0 ∧ c = true) := by
      rintro c (h0 | h0) ⟨h1, h2⟩
      · exact h1 h0
      · rw [h0] at h2; cases h2
    refine ⟨fun h0 => ?_, fun h1 => ⟨?_, fun hz => ?_, fun hz => ?_⟩, fun h0 => ?_, fun h0 => ?_, fun h0 => ?_, fun h0 => ?_⟩
    · exact ⟨finish_of_raise (jumps.trans (if_pos h0)), finish_of_raise (jumps.trans (if_pos h0))⟩
    · exact finish_of_raise ((loops true).trans (if_pos ⟨h1, rfl⟩))
    · exact finish_of_raise ((loops s.zf).trans (if_pos ⟨h1, hz⟩))
    · exact finish_of_raise ((loops !s.zf).trans (if_pos ⟨h1, congrArg not hz⟩))
    · exact ⟨finish_of_ok (jumps.trans (if_neg h0)), finish_of_ok (jumps.trans (if_neg h0))⟩
    · exact finish_of_ok ((loops true).trans (if_neg (untaken (.inl h0))))
    · exact finish_of_ok ((loops s.zf).trans (if_neg (untaken h0)))
    · exact finish_of_ok ((loops !s.zf).trans (if_neg (untaken (h0.imp_right (congrArg not)))))

/-! ## Calls, indirect jumps and returns (R184 to R188) -/

namespace State
variable {s : State} {p : Pfx}

theorem nearSize_bytes (h : s.cs.l = true ∨ p.osz = false) : (s.nearSize p).bytes = if s.cs.l then 8 else 4 := by
  rw [nearSize_of_not16 h]
  split <;> rfl

/-- The stack pointer lies in the width of the stack (R104). -/
theorem spUp_zero (s : State) : s.spUp 0 = s.sp := by
  unfold State.spUp State.sp
  split
  · exact BitVec.add_zero _
  · rw [BitVec.add_zero, low32_low32]

theorem popAt_zero (s : State) (sz : OpSize) : s.popAt sz 0 = s.memRead s.sp sz.bytes := by
  rw [State.popAt, Nat.mul_zero, spUp_zero]

theorem popped_one_eq (s : State) (sz : OpSize) (n : Nat) :
    s.popped sz 1 n = { s with gpr := s.gpr.set .rsp (s.spUp (sz.bytes + n)) } := by
  rw [State.popped, Nat.mul_one]; rfl

/-- One push whose slot `pas` can be written. -/
theorem push_eq {sz : OpSize} {pas : List Nat} (v : Word)
    (h : s.accessPas { s.dataAccess with write := true } (stackDown s.cs.l s.sp sz.bytes) sz.bytes sz.bytes = .ok pas) :
    s.push sz v = .ok ((s.storeAt pas (leBytes sz.bytes v)).setReg .rsp (stackDown s.cs.l s.sp sz.bytes)) := by
  have hslot : s.pushPas s.dataAccess s.mode64 s.sp sz.bytes 1 = .ok pas :=
    (Res.bind_of_ok h).trans (congrArg Except.ok (List.append_nil pas))
  have hbytes : pushBytes sz.bytes [v] = leBytes sz.bytes v := List.append_nil _
  refine (Res.bind_of_ok hslot).trans ?_
  rw [hbytes]
  exact congrArg (fun k => Except.ok ((s.storeAt pas (leBytes sz.bytes v)).setReg .rsp (stackDown s.cs.l s.sp k))) (Nat.mul_one _)

/-- A state that differs from `s` by a store, and from `u` by what a store leaves, is one that `storesTo` speaks of. -/
theorem storesTo_of_exec {i : Instr} {s t u : State} {pas : List Nat} {bs : List Byte} (hw : s.memWf = true) (hn : pas.Nodup)
    (hl : pas.length = bs.length) (hexec : exec i s = .next t) (hu : State.sameButMem (storeNoted s u pas) t)
    (hbytes : t.byteAt = (s.storeAt pas bs).byteAt) : storesTo i s u pas bs := by
  have hok : s.memOk := s.memWf_iff.1 hw
  refine ⟨t, hexec, hu, fun a ha => ?_, ?_⟩
  · rw [hbytes, State.byteAt_storeAt_other s pas bs a ha hok]
  · rw [hbytes, State.byteAt_storeAt_same s pas bs hn hl hok]

/-- A meaning that is a CALL to `t`. -/
theorem storesTo_of_callTo {i : Instr} {t : Word} {sz : OpSize} {pas : List Nat} (hsz : s.nearSize p = sz) (hw : s.memWf = true)
    (hpas : s.accessPas { s.dataAccess with write := true } (stackDown s.cs.l s.sp sz.bytes) sz.bytes sz.bytes = .ok pas)
    (hexec : exec i s = finish s (s.callTo p t)) :
    storesTo i s { s with rip := t, gpr := s.gpr.set .rsp (stackDown s.cs.l s.sp sz.bytes) } pas (leBytes sz.bytes s.nextRip) := by
  have hpush := push_eq s.nextRip hpas
  have hle : sz.bytes ≤ 4096 := by cases sz <;> decide
  have hlen : pas.length = (leBytes sz.bytes s.nextRip).length := (State.accessPas_spec hpas).2.2.2.trans (leBytes_length _ _).symm
  rw [State.callTo, hsz, Res.bind_of_ok hpush] at hexec
  refine storesTo_of_exec hw (State.accessPas_nodup hpas hle) hlen hexec ?_ rfl
  have hstore := State.storeAt_eq s pas (leBytes sz.bytes s.nextRip)
  generalize s.storeAt pas (leBytes sz.bytes s.nextRip) = w at hstore ⊢
  rw [hstore]
  rfl

/-- RET and RET imm16 with `v` on the stack. -/
theorem nearReturn_eq {v : Word} (h : s.cs.l = true ∨ p.osz = false) (hv : s.memRead s.sp (s.nearSize p).bytes = .ok v) (n : Nat) :
    s.nearReturn p n =
      s.nearTarget v >>= fun t => .ok { s with rip := t, gpr := s.gpr.set .rsp (s.spUp ((s.nearSize p).bytes + n)) } := by
  have hpop : s.popAt (s.nearSize p) 0 = .ok v := by rw [popAt_zero, hv]
  rw [State.nearReturn, Res.bind_of_ok (rejectNear16_ok h), Res.bind_of_ok hpop, popped_one_eq]
  rfl

end State

/-- Settles O16: JMP r/m, CALL and RET are the target they read, `callTo` (`storesTo_of_callTo`) and `nearReturn`. -/
theorem callsJumpsReturns : Obligations.CallsJumpsReturns := by
  refine ⟨fun p rel rm s n h hn => ?_, fun p imm s n v h hn hv => ?_⟩
  all_goals obtain rfl : n = (s.nearSize p).bytes := hn.trans (State.nearSize_bytes h).symm
  · have operand : ∀ {v}, s.readRM p (if s.cs.l then .w64 else .w32) rm = .ok v → s.nearOperand p rm = s.nearTarget v :=
      State.nearOperand_eq h
    have fault : ∀ {v}, s.readRM p (if s.cs.l then .w64 else .w32) rm = .ok v → legalTarget s v = none →
        s.nearOperand p rm = raise (excGp 0) := fun hv ht => (operand hv).trans (State.nearTarget_of_illegal ht)
    have target : ∀ {v t}, s.readRM p (if s.cs.l then .w64 else .w32) rm = .ok v → legalTarget s v = some t →
        s.nearOperand p rm = .ok t := fun hv ht => (operand hv).trans (State.nearTarget_of_legal ht)
    refine ⟨fun v t hv ht => ?_, fun v hv ht => ⟨?_, ?_⟩, fun ht => ?_,
      fun pas hw hpas => ⟨fun t ht => ?_, fun v t hv ht => ?_⟩⟩
    · exact finish_of_ok (Res.bind_of_ok (target hv ht))
    · exact finish_of_raise (Res.bind_of_raise (fault hv ht))
    · exact finish_of_raise (Res.bind_of_raise (fault hv ht))
    · exact (State.exec_callRel32 h rel).trans (finish_of_raise (Res.bind_of_raise (State.nearTarget_of_illegal ht)))
    · exact State.storesTo_of_callTo rfl hw hpas
        ((State.exec_callRel32 h rel).trans (congrArg (finish s) (Res.bind_of_ok (State.nearTarget_of_legal ht))))
    · exact State.storesTo_of_callTo rfl hw hpas (congrArg (finish s) (Res.bind_of_ok (target hv ht)))
  · have returns := State.nearReturn_eq h hv
    refine ⟨fun t ht => ?_, fun ht => ?_⟩
    · have completes : ∀ k, finish s (s.nearReturn p k) =
          .next { s with rip := t, gpr := s.gpr.set .rsp (s.spUp ((s.nearSize p).bytes + k)) } := fun k => by
        rw [returns, Res.bind_of_ok (State.nearTarget_of_legal ht), finish_ok]
      exact ⟨completes 0, completes imm.toNat⟩
    · have fault : ∀ k, finish s (s.nearReturn p k) = s.takeException (excGp 0) := fun k => by
        rw [returns, finish_of_raise (Res.bind_of_raise (State.nearTarget_of_illegal ht))]
      exact ⟨fault 0, fault imm.toNat⟩

/-! ## LEA and NOP (R189, R190) -/

/-- Settles O18: the address is in `truncAddr` what the count register is in its size, and a register is written by `regWritten`. -/
theorem leaAndNop : Obligations.LeaAndNop := by
  rintro p r m rm s ea rfl
  refine ⟨?_, rfl, rfl⟩
  rw [← s.countSize_bytes p, ← s.opSize_bytes p, regWritten_zero, ← s.truncAddr_eq p, ← State.effAddr]
  show Host.Outcome.next (s.setRegSz (s.opSize p) r (s.effAddr p m)).toNext = _
  rw [State.setRegSz_eq_regWritten]
  rfl

/-! ## 16-bit addressing (R174, R176) -/

namespace State
variable {s : State} {p : Pfx}

section
variable (h16 : s.addrSize16 p = true)
include h16

/-- A memory operand with 16-bit addressing is #GP(0) wherever it is referenced. -/
theorem memOperand_address16 (m : Mem) : s.memOperand p m = raise (excGp 0) := if_pos h16

theorem readRM_address16 (sz : OpSize) (m : Mem) : s.readRM p sz (.mem m) = raise (excGp 0) :=
  Res.bind_of_raise (memOperand_address16 h16 m)

theorem readRM16_address16 (m : Mem) : s.readRM16 p (.mem m) = raise (excGp 0) := Res.bind_of_raise (readRM_address16 h16 .w16 m)

theorem writeRMSel_address16 (m : Mem) (v : Half) : s.writeRMSel p (.mem m) v = raise (excGp 0) :=
  Res.bind_of_raise (memOperand_address16 h16 m)

theorem readFarPtr_address16 (m : Mem) (sz : OpSize) : s.readFarPtr p m sz = raise (excGp 0) :=
  Res.bind_of_raise (memOperand_address16 h16 m)

theorem loadFar_address16 (sr : Sreg) (r : Reg) (m : Mem) : s.loadFar p sr r m = raise (excGp 0) :=
  Res.bind_of_raise (readFarPtr_address16 h16 m _)

theorem queryOk_address16 (m : Mem) : s.queryOk p (.mem m) = raise (excGp 0) := Res.bind_of_raise (readRM16_address16 h16 m)

theorem queryValue_address16 (r : Reg) (m : Mem) (f : Word → Word) : s.queryValue p r (.mem m) f = raise (excGp 0) :=
  Res.bind_of_raise (readRM16_address16 h16 m)

/-- The CPL check before it raises #GP(0) too. -/
theorem readTable_address16 (m : Mem) : s.readTable p m = raise (excGp 0) :=
  Res.raiseIf_bind _ (Res.bind_of_raise (memOperand_address16 h16 m))

/-- The UMIP check before it raises #GP(0) too. -/
theorem storeTable_address16 (m : Mem) (t : TableReg) : s.storeTable p m t = raise (excGp 0) :=
  Res.raiseIf_bind _ (Res.bind_of_raise (memOperand_address16 h16 m))

theorem storeSel_address16 (m : Mem) (sel : Half) : s.storeSel p (.mem m) sel = raise (excGp 0) :=
  Res.raiseIf_bind _ (Res.bind_of_raise (writeRMSel_address16 h16 m sel))

end

theorem addrSize16_eq (hl : s.cs.l = false) (ha : p.asz = true) : s.addrSize16 p = true := by
  simp [State.addrSize16, State.compat, hl, ha]

theorem compatOnly_ok (hl : s.cs.l = false) : s.compatOnly = .ok () := by rw [State.compatOnly, State.mode64, hl]; rfl

theorem rejectFar16_ok (hl : s.cs.l = false) (ho : p.osz = false) : s.rejectFar16 p = .ok () := by
  rw [State.rejectFar16, State.opSize, State.mode64, hl, ho]; rfl

end State

theorem loadableSreg_isSome {sr : BitVec 3} (h : sr.toNat ∈ [0, 2, 3, 4, 5]) : ∃ r, loadableSreg sr = some r :=
  Option.isSome_iff_exists.1 ((by decide : ∀ n : BitVec 3, n.toNat ∈ [0, 2, 3, 4, 5] → (loadableSreg n).isSome = true) sr h)

theorem storableSreg_isSome {sr : BitVec 3} (h : sr.toNat ≤ 5) : ∃ r, storableSreg sr = some r :=
  Option.isSome_iff_exists.1 ((by decide : ∀ n : BitVec 3, n.toNat ≤ 5 → (storableSreg n).isSome = true) sr h)

/-- Settles O17: in each instruction the reference of the operand comes first, or after checks that pass or raise #GP(0) themselves. -/
theorem address16Faults : Obligations.Address16Faults := by
  intro p m r sr s hl ha
  have h16 := State.addrSize16_eq hl ha
  have compatOnly := State.compatOnly_ok hl
  have gp {r : Res State} (hr : r = raise (excGp 0)) : finish s r = s.takeException (excGp 0) := finish_of_raise hr
  have after_compatOnly : ∀ {r : Res State}, r = raise (excGp 0) →
      finish s (s.compatOnly >>= fun _ => r) = s.takeException (excGp 0) := fun hr => gp ((Res.bind_of_ok compatOnly).trans hr)
  have after_cpl0 : ∀ {next : Half → Res State},
      finish s (s.requireCpl0 >>= fun _ => s.readRM16 p (.mem m) >>= next) = s.takeException (excGp 0) :=
    gp (Res.raiseIf_bind _ (Res.bind_of_raise (State.readRM16_address16 h16 m)))
  refine ⟨fun ho => ?_, ?_, fun hsr => ?_, fun hsr => ?_⟩
  · have operand : s.nearOperand p (.mem m) = raise (excGp 0) :=
      (Res.bind_of_ok (State.rejectNear16_ok (.inr ho))).trans (Res.bind_of_raise (State.readRM_address16 h16 _ m))
    have far : ∀ {next : Word × Half → Res State},
        finish s (s.rejectFar16 p >>= fun _ => s.readFarPtr p m (s.opSize p) >>= next) = s.takeException (excGp 0) :=
      gp ((Res.bind_of_ok (State.rejectFar16_ok hl ho)).trans (Res.bind_of_raise (State.readFarPtr_address16 h16 m _)))
    simp only [List.forall_mem_cons, List.not_mem_nil, false_imp_iff, implies_true, and_true]
    exact ⟨gp (Res.bind_of_raise operand), gp (Res.bind_of_raise operand), far, far⟩
  · have lfar := fun sr => State.loadFar_address16 h16 sr r m
    have query := State.queryOk_address16 h16 m
    have value := State.queryValue_address16 h16 r m
    have load := State.readTable_address16 h16 m
    have store := State.storeTable_address16 h16 m
    have sel := State.storeSel_address16 h16 m
    simp only [List.forall_mem_cons, List.not_mem_nil, false_imp_iff, implies_true, and_true]
    exact ⟨after_compatOnly (lfar .ds), after_compatOnly (lfar .es), gp (lfar .ss), gp (lfar .fs), gp (lfar .gs), gp query, gp query,
      gp (value _), gp (value _), after_compatOnly (Res.bind_of_raise (State.readRM16_address16 h16 m)), gp (Res.bind_of_raise load),
      gp (Res.bind_of_raise load), after_cpl0, after_cpl0, gp (store _), gp (store _), gp (sel _), gp (sel _)⟩
  · obtain ⟨q, hq⟩ := loadableSreg_isSome hsr
    show finish s _ = _
    rw [hq]
    exact gp (Res.bind_of_raise (State.readRM16_address16 h16 m))
  · obtain ⟨q, hq⟩ := storableSreg_isSome hsr
    show finish s _ = _
    rw [hq]
    exact gp (Res.bind_of_raise (State.writeRMSel_address16 h16 m _))

/-! ## #UD before anything else, and where its delivery ends (R173, R416, R421) -/

namespace State
variable {s : State} {e : Event} {p : Plan}

theorem frameItems_length (s : State) (e : Event) : (s.frameItems e).length = if e.err.isSome then 6 else 5 := by
  unfold State.frameItems
  cases e.err <;> rfl

theorem pushBytes_frameItems (s : State) (e : Event) : pushBytes 8 (s.frameItems e) = frame s e := by
  unfold State.frameItems frame
  cases e.err <;> simp only [List.cons_append, List.nil_append, pushBytes, List.append_nil, List.append_assoc] <;> rfl

theorem entryRsp_eq (s : State) (e : Event) (p : Plan) : s.entryRsp e p = p.rsp - (if e.err.isSome then 48 else 40) := by
  rw [State.entryRsp, frameItems_length]
  cases e.err.isSome <;> rfl

/-- A plan's addresses are those of the pushes of its frame. -/
theorem plan_pushPas (s : State) (e : Event) :
    Res.Ends (fun p => s.pushPas { implicit := true } true p.rsp 8 (s.frameItems e).length = .ok p.pas) (s.plan e) := by
  refine .bind fun _ _ => .bind fun _ _ => .bind fun _ _ => ?_
  refine .ite (fun _ => .bind fun _ _ => ?_) (fun _ => .bind fun _ _ => ?_)
  all_goals exact .bind fun _ _ => .bind fun _ _ => .bind fun _ hpas => .ok hpas

/-- The frame's bytes lie at different addresses. -/
theorem plan_pas (h : s.plan e = .ok p) : p.pas.Nodup ∧ p.pas.length = (frame s e).length := by
  have hpas := s.plan_pushPas e p h
  have hfew : 8 * (s.frameItems e).length ≤ 4096 := by rw [frameItems_length]; split <;> decide
  refine ⟨State.pushPas_nodup _ _ _ 8 _ _ _ (by decide) hfew hpas, ?_⟩
  rw [(State.pushPas_spec _ _ _ 8 (by decide) _ _ _ hpas).1, ← pushBytes_frameItems, pushBytes_length]

theorem cetOn_switch (s : State) (e : Event) (p : Plan) : (s.switch e p).cetOn = s.cetOn := by rw [State.switch_eq]; rfl

theorem ssEnabled0_switch_of_cetOff (hcet : s.cetOn = false) : (s.switch e p).ssEnabled0 = false := by
  rw [State.ssEnabled0, cetOn_switch, hcet]; rfl

/-- With CR4.CET clear the switch is all that a delivery does before the handler's epilogue (R437). -/
theorem landed_of_cetOff (hcet : s.cetOn = false) : s.landed e p = s.switch e p := by
  have h0 := ssEnabled0_switch_of_cetOff (e := e) (p := p) hcet
  have h3 : s.ssEnabled3 = false := by rw [State.ssEnabled3, hcet]; rfl
  unfold State.landed
  split
  · rw [State.cetEnter, h0, h3, State.switch_eq]; rfl
  · rfl

theorem cetSteps_of_cetOff (hcet : s.cetOn = false) : s.cetSteps e p = .ok (s.switch e p) := by
  rw [State.cetSteps, landed_of_cetOff hcet, State.cetInter, State.cetIntra, ssEnabled0_switch_of_cetOff hcet]
  split <;> rfl

/-- A delivery without FRED and CET completes where its checks pass. -/
theorem deliverOnce_of_reachesHandler (h : reachesHandler s e p) : s.deliverOnce e = .ok ((s.switch e p).handlerEntry e p) := by
  obtain ⟨hfred, hcet, hplan⟩ := h
  have hoff : s.fred = false := hfred
  have hsteps : s.cetSteps e p = .ok (s.switch e p) := cetSteps_of_cetOff hcet
  simp only [State.deliverOnce, hoff, hplan, hsteps, Bool.false_eq_true, if_false]

/-- What of the state at handler entry is not `s`'s own: without CET, the frame and what a store leaves. -/
theorem handlerEntry_of_cetOff (hcet : s.cetOn = false) :
    ((s.switch e p).handlerEntry e p).cet = s.cet ∧
    ((s.switch e p).handlerEntry e p).tlb = { s.tlb with past := s.pastEntries p.pas ++ s.tlb.past } ∧
    ((s.switch e p).handlerEntry e p).byteAt = (s.storeAt p.pas (frame s e)).byteAt := by
  have hoff : (s.switch e p).endbrEnabled0 = false := by rw [State.endbrEnabled0, cetOn_switch, hcet]; rfl
  have hkept : (s.switch e p).trackEndbranch = s.switch e p := by rw [State.trackEndbranch, hoff]; rfl
  rw [State.handlerEntry, hkept]
  refine ⟨?_, State.storeAt_tlb _ _ _, ?_⟩
  · rw [State.switch_eq]
  · rw [State.switch, pushBytes_frameItems]; rfl

/-- The state at the handler (R434 to R436), but for memory. -/
theorem handlerEntry_sameButMem (h : reachesHandler s e p) : State.sameButMem (atHandler s e p) ((s.switch e p).handlerEntry e p) := by
  obtain ⟨q, -, hq, heq⟩ := State.deliverOnce_ok (deliverOnce_of_reachesHandler h)
  obtain ⟨-, hcet, hplan⟩ := h
  obtain rfl : p = q := Except.ok.inj (hplan.symm.trans hq)
  obtain ⟨hcets, htlb, -⟩ := handlerEntry_of_cetOff (e := e) (p := p) hcet
  have hss : (if s.inter then ⟨0, 0, false⟩ else s.ss) = if s.ss.dpl = 0 then s.ss else ⟨0, 0, false⟩ := by
    by_cases h0 : s.ss.dpl = 0 <;> simp [State.inter, State.cpl0, h0]
  have hflags : handlerFlags (gateType p.lo == 14) s.rflags =
      s.rflags &&& (if gateType p.lo = 14 then ~~~(0x14300 : Word) else ~~~(0x14100 : Word)) := by
    simp only [handlerFlags, beq_iff_eq]
  generalize (s.switch e p).handlerEntry e p = t at heq htlb hcets ⊢
  rw [htlb, hcets, hss, hflags, entryRsp_eq] at heq
  exact heq

/-- Taking an event that no exit takes. -/
theorem deliver_handled {b : Bool} (hw : s.memWf = true) (hexit : s.eventExits e b = false) (h : reachesHandler s e p) :
    handled s e p (s.deliver e b) := by
  have hok : s.memOk := s.memWf_iff.1 hw
  obtain ⟨-, hcet, hplan⟩ := id h
  obtain ⟨hnodup, hlen⟩ := plan_pas hplan
  obtain ⟨-, -, hbytes⟩ := handlerEntry_of_cetOff (e := e) (p := p) hcet
  refine ⟨(s.switch e p).handlerEntry e p, ?_, handlerEntry_sameButMem h, fun a ha => ?_, ?_⟩
  · rw [State.deliver, hexit, deliverOnce_of_reachesHandler h]; rfl
  · rw [hbytes, State.byteAt_storeAt_other s p.pas _ a ha hok]
  · rw [hbytes, State.byteAt_storeAt_same s p.pas _ hnodup hlen hok]

theorem eventExits_of_root (h : s.nonRoot = false) (e : Event) (b : Bool) : s.eventExits e b = false := by
  unfold State.eventExits
  unfold State.nonRoot at h
  split
  · next hv => rw [hv] at h; cases h
  · rfl

/-- Outside non-root operation an exception is delivered with EXT = 0 and the saved RIP of its instruction (R421, R425). -/
theorem takeException_of_root (h : s.nonRoot = false) (x : Exc) :
    s.takeException x = (s.noteCr2 x).deliver (x.event false s.rip) false := by
  rw [State.takeException, State.orExit, eventExits_of_root h]
  rfl

end State

/-- Settles O21: each form raises #UD at decode (`udAtDecode_exec`), and the delivery of #UD ends at its handler. -/
theorem removedFormsAndInstructions : Obligations.RemovedFormsAndInstructions := by
  have ud (s : State) (is : List Instr) (h : ∀ i ∈ is, udAtDecode s.cs.l i = true) :
      ∀ i ∈ is, exec i s = s.takeException excUd := fun i hi => udAtDecode_exec (s := s) (h i hi)
  refine ⟨fun p off sel imm m rm r s => ⟨fun hsize ho => ud s _ ?_, fun hl => ud s _ ?_⟩,
    fun p cc rel8 rel32 rm imm s hl ho => ud s _ ?_, fun s q rm i hi => ?_⟩
  · have direct : (s.cs.l || p.osz) = true := by rw [ho, Bool.or_true]
    have far : (p.osz && !(s.cs.l && p.w)) = true := by simp [ho, hsize]
    simp only [List.forall_mem_cons, List.not_mem_nil, false_imp_iff, implies_true, and_true]
    exact ⟨direct, far, direct, far, far, far, far⟩
  · have direct : (s.cs.l || p.osz) = true := by rw [hl, Bool.true_or]
    simp only [List.forall_mem_cons, List.not_mem_nil, false_imp_iff, implies_true, and_true]
    exact ⟨direct, direct, hl, hl, hl, hl, hl, hl, hl, hl, hl, hl, hl⟩
  · have near : (!s.cs.l && p.osz) = true := by rw [hl, ho]; rfl
    simp only [List.forall_mem_cons, List.not_mem_nil, false_imp_iff, implies_true, and_true]
    exact ⟨near, near, near, near, near, near, near, near, near, near, near, near, near⟩
  · have anywhere : ∀ i ∈ [Instr.lmsw q rm, .insb, .insd, .outsb, .outsd], udAtDecode s.cs.l i = true := by
      simp only [List.forall_mem_cons, List.not_mem_nil, false_imp_iff, implies_true, and_true]
      exact ⟨rfl, rfl, rfl, rfl, rfl⟩
    have hud : exec i s = s.takeException excUd := ud s _ anywhere i hi
    refine ⟨hud, fun p hw hroot hreach => ?_⟩
    rw [hud, State.takeException_of_root hroot]
    exact State.deliver_handled hw (State.eventExits_of_root hroot _ _) hreach

end Sys2Proof.Machine

/-! # Segment registers, table registers and queries (O38 to O46)

Every load of a segment register ends in `State.fetchData`, the checks of R202 to R207 on a selector and its descriptor. What it answers is
said once, for the three kinds of selector: NULL, one that names no descriptor of its table, one that names a descriptor. A load is then
what it reads and what `fetchData` makes of it; a query makes the same tests, and a store is one access (`storesTo_of_storeAt`). -/

namespace Sys2Proof.Machine

/-! ## Checks in sequence -/

theorem raiseIf_pass {b : Bool} {e : Exc} (h : b = false) : raiseIf b e = .ok () := raiseIf_ok.2 h

theorem raiseIf_raise {b : Bool} {e : Exc} (h : b = true) : raiseIf b e = raise e := by rw [h]; rfl

theorem raiseIf_bind_ok {β : Type} {b : Bool} {e : Exc} {v : β} :
    (raiseIf b e >>= fun _ => .ok v) = if b = false then .ok v else raise e := by cases b <;> rfl

/-- A check before others that raise the same exception. -/
theorem raiseIf_bind_ite {β : Type} {b : Bool} {c : Prop} [Decidable c] {e : Exc} {v : β} {next : Unit → Res β}
    (h : next () = if c then .ok v else raise e) : raiseIf b e >>= next = if b = false ∧ c then .ok v else raise e := by
  cases b
  · exact h.trans (if_congr (by simp) rfl rfl)
  · exact (if_neg (by simp)).symm

/-! ## Masks -/

/-- A mask of the `k` bits from bit `n` on. -/
theorem and_mask {w : Nat} (v : BitVec w) (n k : Nat) :
    v &&& (BitVec.allOnes k).setWidth w <<< n = (v.extractLsb' n k).setWidth w <<< n := by
  ext i hi
  by_cases h : i < n
  · simp [h]
  · by_cases hk : i - n < k
    · have hsub : n + (i - n) = i := by omega
      simp [h, hk, hi, hsub]
    · simp [h, hk]

/-- A mask of the low `k` bits. -/
theorem and_lowMask {w : Nat} (v : BitVec w) (k : Nat) : v &&& (BitVec.allOnes k).setWidth w = (v.setWidth k).setWidth w := by
  ext i hi
  simp [hi, Bool.and_comm]

/-- A mask of all bits but the low `k`. -/
theorem toNat_and_highMask {w : Nat} (v : BitVec w) (k : Nat) : (v &&& BitVec.allOnes w <<< k).toNat = v.toNat / 2 ^ k * 2 ^ k := by
  have hlt : v.toNat / 2 ^ k * 2 ^ k < 2 ^ w := lt_of_le_of_lt (Nat.div_mul_le_self _ _) v.isLt
  rw [← BitVec.shiftLeft_ushiftRight, BitVec.toNat_shiftLeft, BitVec.toNat_ushiftRight, Nat.shiftLeft_eq, Nat.shiftRight_eq_div_pow,
    Nat.mod_eq_of_lt hlt]

/-! ## Fields of a descriptor (R102, R103) -/

theorem descBase32_eq (d : Word) : descBase32 d = base32 d := by
  show (d >>> 16 &&& (BitVec.allOnes 24).setWidth 64) ||| (d >>> 56) <<< 24 = base32 d
  rw [and_lowMask, base32]
  ext i hi
  rw [BitVec.getElem_setWidth, BitVec.getLsbD_append]
  by_cases h : i < 24
  · simp [h]
  · by_cases h8 : i - 24 < 8
    · simp [h, h8]
    · simp [h, h8, BitVec.getLsbD_of_ge d (56 + (i - 24)) (by omega)]

theorem descLimit_eq (d : Word) : descLimit d = (d.extractLsb' 48 4 ++ d.extractLsb' 0 16).setWidth 32 := by
  show ((d >>> 32 &&& (BitVec.allOnes 4).setWidth 64 <<< 16) ||| (d &&& (BitVec.allOnes 16).setWidth 64)).setWidth 32 = _
  rw [and_mask, and_lowMask]
  ext i hi
  have h64 : i < 64 := by omega
  rw [BitVec.getElem_setWidth, BitVec.getElem_setWidth, BitVec.getLsbD_append]
  by_cases h : i < 16
  · simp [h, h64]
  · simp [h, h64, ← Nat.add_assoc]

/-- A zero-extended low half under a high half. -/
theorem setWidth_or_shiftLeft32 (x : DWord) (v : Word) : x.setWidth 64 ||| v <<< 32 = (v.extractLsb' 0 32 ++ x : BitVec 64) := by
  ext i hi
  rw [BitVec.getElem_append]
  by_cases h : i < 32
  · simp [h]
  · simp [h, BitVec.getLsbD_of_ge x i (by omega)]
    exact (BitVec.getLsbD_eq_getElem _).symm

theorem sysBase_eq (lo hi : Word) :
    sysBase lo hi = hi.extractLsb' 0 32 ++ (lo.extractLsb' 56 8 ++ lo.extractLsb' 16 24) := by
  rw [sysBase, descBase32_eq, base32]
  exact setWidth_or_shiftLeft32 _ hi

theorem expandLimit_eq (l : DWord) (g : Bool) : expandLimit l g = if g then l * 4096 + 4095 else l := by
  have hlow : l <<< 12 &&& 0xFFF = 0 := by
    show l <<< 12 &&& (BitVec.allOnes 12).setWidth 32 = 0
    rw [and_lowMask]
    ext i hi
    simp
  rw [expandLimit, ← BitVec.add_eq_or_of_and_eq_zero _ _ hlow, BitVec.shiftLeft_eq_mul_twoPow]
  rfl

/-! ## Selectors and their tables (R101, R201 to R203) -/

theorem and_FFFC_toNat (sel : Half) : (sel &&& 0xFFFC).toNat = sel.toNat / 4 * 4 := toNat_and_highMask sel 2

theorem and_FFF8_toNat (sel : Half) : (sel &&& 0xFFF8).toNat = sel.toNat / 8 * 8 := toNat_and_highMask sel 3

theorem and_FFFC_eq_zero {sel : Half} (h : sel.toNat < 4) : sel &&& 0xFFFC = 0 := by
  rw [← BitVec.toNat_inj, and_FFFC_toNat, show (0 : Half).toNat = 0 from rfl]
  omega

theorem and_FFF8_eq_zero_iff (sel : Half) : sel &&& 0xFFF8 = 0 ↔ sel.toNat < 8 := by
  rw [← BitVec.toNat_inj, and_FFF8_toNat, show (0 : Half).toNat = 0 from rfl]
  omega

theorem isNull_of_lt {sel : Half} (h : sel.toNat < 4) : isNull sel = true := beq_iff_eq.2 (and_FFFC_eq_zero h)

theorem isNull_of_ge {sel : Half} (h : 4 ≤ sel.toNat) : isNull sel = false := by
  rw [isNull, beq_eq_false_iff_ne, Ne, ← BitVec.toNat_inj, and_FFFC_toNat, show (0 : Half).toNat = 0 from rfl]
  omega

theorem selCode_of_lt {sel : Half} (h : sel.toNat < 4) : selCode sel = 0 := congrArg (BitVec.setWidth 32) (and_FFFC_eq_zero h)

theorem selOffset_toNat (sel : Half) : (selOffset sel).toNat = sel.toNat / 8 * 8 := by
  have := sel.isLt
  rw [selOffset, zsel, BitVec.toNat_setWidth, and_FFF8_toNat]
  omega

theorem selOffset_eq (sel : Half) : selOffset sel = BitVec.ofNat 64 (sel.toNat / 8 * 8) := by
  rw [← selOffset_toNat, BitVec.ofNat_toNat, BitVec.setWidth_eq]

theorem selRpl_toNat (sel : Half) : (selRpl sel).toNat = sel.toNat % 4 := BitVec.toNat_setWidth _ _

theorem selRpl_lt_iff (dest src : Half) : selRpl dest < selRpl src ↔ dest.toNat % 4 < src.toNat % 4 := by
  rw [BitVec.lt_def, selRpl_toNat, selRpl_toNat]

theorem withRpl_selRpl (dest src : Half) : withRpl dest (selRpl src) = (dest &&& 0xFFFC) ||| (src &&& 3) :=
  congrArg ((dest &&& 0xFFFC) ||| ·) (and_lowMask src 2).symm

namespace State
variable {s : State} {sel : Half} {d : Word}

theorem selectorInTable_eq (s : State) (sel : Half) : s.selectorInTable sel = inTable s sel := by
  rw [State.selectorInTable, selOffset_toNat, selOffset_eq]; rfl

theorem loadDescriptor_of_lt (h : sel.toNat < 8) : s.loadDescriptor sel = .ok 0 := if_pos ((and_FFF8_eq_zero_iff sel).2 h)

theorem loadDescriptor_of_ge (h : 8 ≤ sel.toNat) : s.loadDescriptor sel = descriptorAt s sel := by
  have hindex : ¬ sel &&& 0xFFF8 = 0 := fun hz => absurd ((and_FFF8_eq_zero_iff sel).1 hz) (not_lt.2 h)
  rw [State.loadDescriptor, if_neg hindex, selOffset_eq]
  rfl

/-! ## The check functions (R206, R207) -/

/-- The test that a load of `r` makes of a selector and its descriptor. -/
def descOk (s : State) (r : Sreg) (sel : Half) (d : Word) : Bool := if r = .ss then s.ssDescOk sel d else s.dataDescOk sel d

/-- A segment that a load of `r` accepts, with its descriptor. -/
def accepts (s : State) (r : Sreg) (sel : Half) (d : Word) : Prop := if r = .ss then stackSegment s sel d else dataSegment s sel d

/-- A selector that a load of `r` refuses with #GP(`code`). -/
def refuses (s : State) (r : Sreg) (sel : Half) (d : Word) (code : DWord) : Prop :=
  if r = .ss then stackRefused s sel d code else dataRefused s sel d code

variable {r : Sreg} {code : DWord}

theorem dataDescOk_iff (h : 4 ≤ sel.toNat) :
    s.dataDescOk sel d = true ↔
      inTable s sel = true ∧ s.ss.dpl.toNat ≤ sel.toNat % 4 ∧ d.getLsbD 44 = true ∧ d.getLsbD 47 = true := by
  simp only [State.dataDescOk, isNull_of_ge h, selectorInTable_eq, State.cpl, descS, descP, bit, Bool.false_or, Bool.and_eq_true,
    Bool.not_eq_true', decide_eq_false_iff_not, BitVec.lt_def, selRpl_toNat, not_lt, and_assoc]

/-- The model compares RPL with DPL, the statements RPL with CPL; DPL = CPL is tested too. -/
theorem ssDescOk_iff (h : 4 ≤ sel.toNat) :
    s.ssDescOk sel d = true ↔
      inTable s sel = true ∧ s.ss.dpl.toNat = sel.toNat % 4 ∧ d.extractLsb' 45 2 = s.ss.dpl ∧ d.getLsbD 44 = true ∧
        d.getLsbD 47 = true := by
  have hrpl : selRpl sel = s.ss.dpl ↔ s.ss.dpl.toNat = sel.toNat % 4 := by rw [← BitVec.toNat_inj, selRpl_toNat, eq_comm]
  simp only [State.ssDescOk, State.ssDescPrinted, isNull_of_ge h, selectorInTable_eq, State.cpl, descS, descP, descDpl, bit,
    Bool.false_and, Bool.false_or, Bool.and_eq_true, Bool.not_false, beq_iff_eq, and_true, ← hrpl]
  constructor
  · rintro ⟨⟨⟨⟨ht, hr⟩, hs⟩, hd⟩, hp⟩
    exact ⟨ht, hr.trans hd, hd, hs, hp⟩
  · rintro ⟨ht, hr, hd, hs, hp⟩
    exact ⟨⟨⟨⟨ht, hr.trans hd.symm⟩, hs⟩, hd⟩, hp⟩

/-- Selectors 4 to 7 have the all-zero descriptor, which no load accepts (R203). -/
theorem descOk_zero (h : 4 ≤ sel.toNat) : s.descOk r sel 0 = false := by
  have hs : ¬ (0 : Word).getLsbD 44 = true := by decide
  rw [← Bool.not_eq_true, State.descOk]
  split
  · rw [ssDescOk_iff h]; tauto
  · rw [dataDescOk_iff h]; tauto

theorem accepts_null_iff (h : sel.toNat < 4) : s.accepts r sel d ↔ d = 0 ∧ s.descOk r sel 0 = true := by
  have hnull := isNull_of_lt h
  have hlt : ¬ 8 ≤ sel.toNat := by omega
  unfold State.accepts State.descOk
  split
  · simp [stackSegment, State.ssDescOk, State.ssDescPrinted, hnull, h, hlt, State.cpl0, State.mode64]
  · simp [dataSegment, State.dataDescOk, hnull, h, hlt]

/-- A segment that is accepted and is not NULL has its descriptor in its table. -/
theorem accepts_inTable (h4 : ¬ sel.toNat < 4) (h : s.accepts r sel d) :
    8 ≤ sel.toNat ∧ inTable s sel = true ∧ descriptorAt s sel = .ok d := by
  unfold State.accepts at h
  split at h
  all_goals
    obtain ⟨hlt, -⟩ | ⟨h8, ht, hd, -⟩ := h
    · exact absurd hlt h4
    · exact ⟨h8, ht, hd⟩

section
variable (h8 : 8 ≤ sel.toNat) (ht : inTable s sel = true) (hd : descriptorAt s sel = .ok d)
include h8 ht hd

theorem dataSegment_iff : dataSegment s sel d ↔ s.dataDescOk sel d = true := by
  have hlt : ¬ sel.toNat < 4 := by omega
  rw [dataDescOk_iff (by omega)]
  simp [dataSegment, h8, ht, hd, hlt]

theorem stackSegment_iff : stackSegment s sel d ↔ s.ssDescOk sel d = true := by
  have hlt : ¬ sel.toNat < 4 := by omega
  rw [ssDescOk_iff (by omega)]
  simp [stackSegment, h8, ht, hd, hlt]

theorem accepts_iff : s.accepts r sel d ↔ s.descOk r sel d = true := by
  unfold State.accepts State.descOk
  split
  · exact stackSegment_iff h8 ht hd
  · exact dataSegment_iff h8 ht hd

/-- `fetchData` of a selector that names a descriptor of its table. -/
theorem fetchData_inside : s.fetchData r sel = if s.descOk r sel d then .ok d else raise (excGp (selCode sel)) := by
  have hcheck : s.checkSelector sel = .ok () := by
    rw [State.checkSelector, isNull_of_ge (by omega), selectorInTable_eq, ht]; rfl
  rw [State.fetchData, Res.bind_of_ok hcheck, Res.bind_of_ok ((loadDescriptor_of_ge h8).trans hd)]
  rfl

theorem fetchData_of_not_accepts (h : ¬ s.accepts r sel d) : s.fetchData r sel = raise (excGp (selCode sel)) := by
  rw [accepts_iff h8 ht hd] at h
  rw [fetchData_inside h8 ht hd, if_neg h]

end

/-- `fetchData` of a NULL selector. -/
theorem fetchData_null (h : sel.toNat < 4) : s.fetchData r sel = if s.descOk r sel 0 then .ok 0 else raise (excGp 0) := by
  have hcheck : s.checkSelector sel = .ok () := if_pos (isNull_of_lt h)
  rw [State.fetchData, Res.bind_of_ok hcheck, Res.bind_of_ok (loadDescriptor_of_lt (by omega)), raiseGpSel, selCode_of_lt h]
  rfl

/-- `fetchData` of a selector that names no descriptor of its table. -/
theorem fetchData_outside (h4 : 4 ≤ sel.toNat) (h : sel.toNat < 8 ∨ inTable s sel = false) :
    s.fetchData r sel = raise (excGp (selCode sel)) := by
  have hcheck : s.checkSelector sel = if inTable s sel then .ok () else raise (excGp (selCode sel)) := by
    rw [State.checkSelector, isNull_of_ge h4, selectorInTable_eq]; rfl
  by_cases ht : inTable s sel = true
  · have h8 : sel.toNat < 8 := h.resolve_right (by rw [ht]; decide)
    have hzero := descOk_zero (s := s) (r := r) h4
    rw [State.descOk] at hzero
    rw [State.fetchData, Res.bind_of_ok (hcheck.trans (if_pos ht)), Res.bind_of_ok (loadDescriptor_of_lt h8), hzero]
    rfl
  · exact Res.bind_of_raise (hcheck.trans (if_neg ht))

/-- SS takes a NULL selector in ring 0 and 64-bit mode only (C35). -/
theorem fetchData_ss_null (h4 : sel.toNat < 4) (h : ¬ (s.ss.dpl = 0 ∧ s.cs.l = true)) : s.fetchData .ss sel = raise (excGp 0) := by
  have hnot : ¬ s.descOk .ss sel 0 = true := fun hok => by
    obtain ⟨-, -, hmode⟩ | ⟨h8, -⟩ := (accepts_null_iff h4).2 ⟨rfl, hok⟩
    · exact h hmode
    · omega
  rw [fetchData_null h4, if_neg hnot]

theorem fetchData_of_accepts (h : s.accepts r sel d) : s.fetchData r sel = .ok d := by
  by_cases h4 : sel.toNat < 4
  · obtain ⟨rfl, hok⟩ := (accepts_null_iff h4).1 h
    rw [fetchData_null h4, if_pos hok]
  · obtain ⟨h8, ht, hd⟩ := accepts_inTable h4 h
    rw [fetchData_inside h8 ht hd, if_pos ((accepts_iff h8 ht hd).1 h)]

theorem fetchData_of_refuses (h : s.refuses r sel d code) : s.fetchData r sel = raise (excGp code) := by
  unfold State.refuses at h
  split at h
  · next hr =>
    subst hr
    obtain ⟨⟨h4, hmode⟩ | ⟨h4, hout⟩ | ⟨h8, ht, hd, hnot⟩, rfl⟩ := h
    · rw [fetchData_ss_null h4 hmode, and_FFFC_eq_zero h4]; rfl
    · exact fetchData_outside h4 hout
    · exact fetchData_of_not_accepts h8 ht hd hnot
  · next hr =>
    obtain ⟨⟨h4, hout⟩ | ⟨h8, ht, hd, hnot⟩, rfl⟩ := h
    · exact fetchData_outside h4 hout
    · exact fetchData_of_not_accepts h8 ht hd (by rwa [State.accepts, if_neg hr])

/-- The NULL test of MOV SS and LSS raises what the checks after it raise too (C35). -/
theorem rejectNullSs_bind {β : Type} (next : Word → Res β) :
    (s.rejectNullSs r sel >>= fun _ => s.fetchData r sel >>= next) = s.fetchData r sel >>= next := by
  unfold State.rejectNullSs
  cases hb : isNull sel && r == .ss && !(s.cpl0 && s.mode64)
  · rfl
  · simp only [Bool.and_eq_true, Bool.not_eq_true', beq_iff_eq] at hb
    obtain ⟨⟨hnull, rfl⟩, hmode⟩ := hb
    have h4 : sel.toNat < 4 := by
      by_contra hge
      rw [isNull_of_ge (not_lt.1 hge)] at hnull
      cases hnull
    have hnot : ¬ (s.ss.dpl = 0 ∧ s.cs.l = true) := by
      rintro ⟨h0, hl⟩
      rw [State.cpl0, h0, State.mode64, hl] at hmode
      cases hmode
    rw [fetchData_ss_null h4 hnot]
    rfl

end State

/-! ## Segment registers by number (R214, R218) -/

/-- The number of a segment register in ModRM.reg. -/
def sregNumber : Sreg → BitVec 3
  | .es => 0
  | .cs => 1
  | .ss => 2
  | .ds => 3
  | .fs => 4
  | .gs => 5

theorem storableSreg_number (r : Sreg) : storableSreg (sregNumber r) = some r := by cases r <;> rfl

theorem sregNumber_injective {q r : Sreg} (h : sregNumber q = sregNumber r) : q = r :=
  Option.some.inj ((storableSreg_number q).symm.trans ((congrArg storableSreg h).trans (storableSreg_number r)))

theorem exists_sregNumber {sr : BitVec 3} (h : sr.toNat ≤ 5) : ∃ r, sregNumber r = sr := by
  have hall : ∀ n : BitVec 3, n.toNat ≤ 5 → n ∈ [Sreg.es, .cs, .ss, .ds, .fs, .gs].map sregNumber := by decide
  obtain ⟨r, -, hr⟩ := List.mem_map.1 (hall sr h)
  exact ⟨r, hr⟩

theorem exists_loadable_sregNumber {sr : BitVec 3} (h : sr.toNat ∈ [0, 2, 3, 4, 5]) :
    ∃ r, sregNumber r = sr ∧ loadableSreg (sregNumber r) = some r := by
  obtain ⟨q, hq⟩ := loadableSreg_isSome h
  have hne : sr ≠ 1 := by rintro rfl; exact absurd h (by decide)
  obtain ⟨r, rfl⟩ := exists_sregNumber
    ((by decide : ∀ n : BitVec 3, n.toNat ∈ [0, 2, 3, 4, 5] → n.toNat ≤ 5) sr h)
  have hload : storableSreg (sregNumber r) = loadableSreg (sregNumber r) := if_neg hne
  exact ⟨r, rfl, hload.symm.trans (storableSreg_number r)⟩

theorem loadableSreg_none {sr : BitVec 3} (h : sr.toNat ∉ [0, 2, 3, 4, 5]) : loadableSreg sr = none :=
  (by decide : ∀ n : BitVec 3, n.toNat ∉ [0, 2, 3, 4, 5] → loadableSreg n = none) sr h

theorem storableSreg_none {sr : BitVec 3} (h : 6 ≤ sr.toNat) : storableSreg sr = none :=
  (by decide : ∀ n : BitVec 3, 6 ≤ n.toNat → storableSreg n = none) sr h

namespace State
variable {s : State} {p : Pfx} {r : Sreg} {sel : Half} {d : Word} {code : DWord}

theorem selectorNum_number (s : State) (r : Sreg) : selectorNum s (sregNumber r).toNat = s.selectorOf r := by cases r <;> rfl

theorem acceptable_number : acceptable s (sregNumber r).toNat sel d ↔ s.accepts r sel d := by cases r <;> exact Iff.rfl

theorem storeSreg_eq (s : State) (r : Sreg) (sel : Half) (d : Word) :
    s.storeSreg r sel d = loadedSreg s (sregNumber r).toNat sel d := by
  cases r
  case fs => exact congrArg (fun b => s.setFs ⟨sel, b⟩) (descBase32_eq d)
  case gs => exact congrArg (fun b => s.setGs ⟨sel, b⟩) (descBase32_eq d)
  case es | cs | ss | ds => rfl

/-- A load of SS sets the blocking, one of another register keeps it (R65). -/
theorem blockAfterSs_eq (s : State) (r : Sreg) :
    s.blockAfterSs r = { s with movSsBlocked := s.movSsBlocked || sregNumber r == 2 } := by
  have keeps : s = s.setMovSsBlocked (s.movSsBlocked || false) := by rw [Bool.or_false]; rfl
  cases r
  case ss => exact congrArg s.setMovSsBlocked (Bool.or_true _).symm
  case es | cs | ds | fs | gs => exact keeps

/-! ## Loads of segment registers (R214 to R216) -/

theorem exec_movSregRM {rm : RM} (hr : loadableSreg (sregNumber r) = some r) (hsel : s.readRM16 p rm = .ok sel) :
    exec (.movSregRM p (sregNumber r) rm) s =
      finish s (s.fetchData r sel >>= fun d => .ok ((s.storeSreg r sel d).blockAfterSs r).toNext) := by
  show finish s _ = _
  rw [hr]
  exact congrArg (finish s) ((Res.bind_of_ok hsel).trans (rejectNullSs_bind _))

/-- A one-byte form in compatibility mode (R152). -/
theorem finish_compatOnly (hl : s.cs.l = false) (r : Res State) : finish s (s.compatOnly >>= fun _ => r) = finish s r :=
  congrArg (finish s) (Res.bind_of_ok (compatOnly_ok hl))

theorem stackSize_bytes (s : State) (p : Pfx) : (s.stackSize p).bytes = stackBytes s p := by
  unfold State.stackSize stackBytes State.mode64
  repeat' split
  all_goals rfl

section
variable {item : Word} (hpop : s.popAt (s.stackSize p) 0 = .ok item)
include hpop

theorem popSreg_of_accepts (h : s.accepts r (item.setWidth 16) d) :
    s.popSreg p r = .ok { loadedSreg s (sregNumber r).toNat (item.setWidth 16) d with
      rip := s.nextRip, gpr := s.gpr.set .rsp (s.spUp (stackBytes s p)), movSsBlocked := sregNumber r == 2 || s.movSsBlocked } := by
  rw [Bool.or_comm, State.popSreg, Res.bind_of_ok hpop, Res.bind_of_ok (fetchData_of_accepts h), popped_one_eq, stackSize_bytes,
    storeSreg_eq, blockAfterSs_eq]
  cases r <;> rfl

theorem popSreg_of_refuses (h : s.refuses r (item.setWidth 16) d code) : s.popSreg p r = raise (excGp code) := by
  rw [State.popSreg, Res.bind_of_ok hpop, Res.bind_of_raise (fetchData_of_refuses h)]

end

section
variable {m : Mem} {off : Word} (hptr : s.readFarPtr p m (s.opSize p) = .ok (off, sel))
include hptr

theorem loadFar_eq (q : Reg) :
    s.loadFar p r q m = s.fetchData r sel >>= fun d => .ok ((s.storeSreg r sel d).setRegSz (s.opSize p) q off).toNext :=
  (Res.bind_of_ok hptr).trans (rejectNullSs_bind _)

theorem loadFar_of_accepts (q : Reg) (h : s.accepts r sel d) :
    s.loadFar p r q m = .ok { loadedSreg s (sregNumber r).toNat sel d with
      rip := s.nextRip, gpr := s.gpr.set q (regWritten (s.reg q) (dataBytes s p) off) } := by
  rw [loadFar_eq hptr, Res.bind_of_ok (fetchData_of_accepts h), setRegSz_eq_regWritten, opSize_bytes, storeSreg_eq]
  cases r <;> rfl

theorem loadFar_of_refuses (q : Reg) (h : s.refuses r sel d code) : s.loadFar p r q m = raise (excGp code) := by
  rw [loadFar_eq hptr, Res.bind_of_raise (fetchData_of_refuses h)]

end

end State

/-- Settles O38: MOV to a segment register is `fetchData` of the selector it reads; the refusals are the two of `fetchData_outside` and
`fetchData_of_not_accepts`, and SS's of NULL. -/
theorem movToSegment : Obligations.MovToSegment := by
  refine ⟨fun p sr rm sel d s => ⟨fun hsr hsel hok => ?_, fun hsr => ?_⟩, fun p sr rm sel d s hsr hsel => ?_⟩
  · obtain ⟨r, rfl, hr⟩ := exists_loadable_sregNumber hsr
    rw [State.exec_movSregRM hr hsel, Res.bind_of_ok (State.fetchData_of_accepts (State.acceptable_number.1 hok)), finish_ok,
      State.storeSreg_eq, State.blockAfterSs_eq]
    cases r <;> rfl
  · show finish s _ = _
    rw [loadableSreg_none hsr]
    rfl
  · obtain ⟨r, rfl, hr⟩ := exists_loadable_sregNumber hsr
    have faults : ∀ {code}, s.fetchData r sel = raise (excGp code) →
        exec (.movSregRM p (sregNumber r) rm) s = s.takeException (excGp code) := fun h =>
      (State.exec_movSregRM hr hsel).trans (finish_of_raise (Res.bind_of_raise h))
    refine ⟨fun h4 hout => faults (State.fetchData_outside h4 hout.symm), fun h8 ht hd hnot => ?_, fun hss h4 h3 => ?_⟩
    · exact faults (State.fetchData_of_not_accepts h8 ht hd fun h => hnot (State.acceptable_number.2 h))
    · obtain rfl : r = .ss := sregNumber_injective hss
      exact faults (State.fetchData_ss_null h4 fun h => absurd (h.1.symm.trans h3) (by decide))

/-- Settles O40: each is `loadFar` of its segment register. -/
theorem loadFarPointers : Obligations.LoadFarPointers := by
  rintro p q m off d sel code g s hptr rfl
  have loads : ∀ r, s.accepts r sel d → finish s (s.loadFar p r q m) = .next { loadedSreg s (sregNumber r).toNat sel d with
      rip := s.nextRip, gpr := s.gpr.set q (regWritten (s.reg q) (dataBytes s p) off) } := fun r h =>
    finish_of_ok (State.loadFar_of_accepts hptr q h)
  have faults : ∀ r, s.refuses r sel d code → finish s (s.loadFar p r q m) = s.takeException (excGp code) := fun r h =>
    finish_of_raise (State.loadFar_of_refuses hptr q h)
  have compat : s.cs.l = false → ∀ r : Res State, finish s (s.compatOnly >>= fun _ => r) = finish s r := State.finish_compatOnly
  refine ⟨fun h => ⟨loads .fs h, loads .gs h, fun hl => ⟨?_, ?_⟩⟩,
    fun h => ⟨faults .fs h, faults .gs h, fun hl => ⟨?_, ?_⟩⟩, faults .ss, loads .ss⟩
  · exact (compat hl _).trans (loads .ds h)
  · exact (compat hl _).trans (loads .es h)
  · exact (compat hl _).trans (faults .ds h)
  · exact (compat hl _).trans (faults .es h)

/-! ## Stores of selectors and table registers (R218, R219, R222, R225) -/

namespace State
variable {s u : State} {p : Pfx} {i : Instr} {a : Access} {la : Word} {pas : List Nat} {bs : List Byte}

theorem writeBytes_eq_storeAt {align : Nat} (h : s.accessPas { a with write := true } la bs.length align = .ok pas) :
    s.writeBytes a la bs align = .ok (s.storeAt pas bs) := Res.bind_of_ok h

theorem memWrite_eq_storeAt {n : Nat} (h : s.accessPas { s.dataAccess with write := true } la n n = .ok pas) (v : Word) :
    s.memWrite la n v = .ok (s.storeAt pas (leBytes n v)) := writeBytes_eq_storeAt (by rwa [leBytes_length])

/-- A meaning that stores `bs` at the bytes of an access and then makes of the state what `f` makes of it, whatever memory holds. -/
theorem storesTo_of_storeAt {n align : Nat} (f : State → State) (hw : s.memWf = true) (hpas : s.accessPas a la n align = .ok pas)
    (hn : n ≤ 4096) (hlen : bs.length = n) (hexec : exec i s = .next (f (s.storeAt pas bs)))
    (hu : ∀ mem acram stored tlb, f { s with mem := mem, acram := acram, stored := stored, tlb := tlb } =
      { u with mem := mem, acram := acram, stored := stored, tlb := tlb })
    (hbytes : ∀ t : State, (f t).byteAt = t.byteAt) : storesTo i s u pas bs := by
  obtain ⟨-, -, -, hl⟩ := State.accessPas_spec hpas
  refine storesTo_of_exec hw (State.accessPas_nodup hpas hn) (hl.trans hlen.symm) hexec ?_ (hbytes _)
  rw [State.storeAt_eq s pas bs, hu]
  rfl

/-- One whose store is all it does before the next instruction. -/
theorem storesTo_of_toNext {n align : Nat} (hw : s.memWf = true) (hpas : s.accessPas a la n align = .ok pas) (hn : n ≤ 4096)
    (hlen : bs.length = n) (hexec : exec i s = .next (s.storeAt pas bs).toNext) :
    storesTo i s { s with rip := s.nextRip } pas bs :=
  storesTo_of_storeAt State.toNext hw hpas hn hlen hexec (fun _ _ _ _ => rfl) fun _ => rfl

theorem writeRMSel_reg (s : State) (p : Pfx) (r : Reg) (v : Half) :
    s.writeRMSel p (.reg r) v = .ok { s with gpr := s.gpr.set r (regWritten (s.reg r) (dataBytes s p) (v.setWidth 64)) } := by
  rw [State.writeRMSel, setRegSz_eq_regWritten, opSize_bytes]; rfl

theorem writeRMSel_mem {m : Mem} (hp : s.cs.l = true ∨ p.asz = false)
    (hpas : s.accessPas { s.dataAccess with write := true } (s.linAddr p m) 2 2 = .ok pas) (v : Half) :
    s.writeRMSel p (.mem m) v = .ok (s.storeAt pas (leBytes 2 (v.setWidth 64))) :=
  (Res.bind_of_ok (memOperand_eq hp m)).trans (memWrite_eq_storeAt hpas _)

theorem exec_movRMSreg (s : State) (p : Pfx) (r : Sreg) (rm : RM) :
    exec (.movRMSreg p (sregNumber r) rm) s = finish s (s.writeRMSel p rm (s.selectorOf r) >>= fun t => .ok t.toNext) := by
  show finish s _ = _
  rw [storableSreg_number]
  rfl

end State

/-- Settles O42: the selector of the register that the number names goes through `writeRMSel`. -/
theorem movFromSegment : Obligations.MovFromSegment := by
  intro p sr q m rm s pas
  refine ⟨fun hsr => ?_, fun hsr => ?_⟩
  · obtain ⟨r, rfl⟩ := exists_sregNumber hsr
    rw [State.selectorNum_number]
    refine ⟨?_, fun hw hp hpas => State.storesTo_of_toNext hw hpas (by decide) (leBytes_length _ _) ?_⟩
    · rw [State.exec_movRMSreg, State.writeRMSel_reg]
      rfl
    · rw [State.exec_movRMSreg, State.writeRMSel_mem hp hpas]
      rfl
  · show finish s _ = _
    rw [storableSreg_none hsr]
    rfl

namespace State
variable {s : State} {p : Pfx}

theorem checkUmip_ok (h : s.ss.dpl ≠ 3 ∨ bit s.cr4 11 = false) : s.checkUmip = .ok () :=
  raiseIf_pass (Bool.and_eq_false_iff.2 (h.imp_left beq_eq_false_iff_ne.2))

theorem checkUmip_raise (h3 : s.ss.dpl = 3) (h : bit s.cr4 11 = true) : s.checkUmip = raise (excGp 0) :=
  raiseIf_raise (Bool.and_eq_true_iff.2 ⟨beq_iff_eq.2 h3, h⟩)

theorem tableImage_length (s : State) (t : TableReg) : (s.tableImage t).length = if s.cs.l then 10 else 6 := by
  rw [State.tableImage, List.length_append, leBytes_length, leBytes_length, State.mode64]
  split <;> rfl

end State

/-- Settles O43: SLDT and STR are `writeRMSel`, SGDT and SIDT a store of `tableImage`, each after the check of CR4.UMIP. -/
theorem storeTables : Obligations.StoreTables := by
  intro p m q rm s
  refine ⟨fun hok => ?_, fun h3 hset => ?_⟩
  · have umip := State.checkUmip_ok hok
    have toReg : ∀ v, finish s (s.storeSel p (.reg q) v) = .next { s with
        rip := s.nextRip, gpr := s.gpr.set q (regWritten (s.reg q) (dataBytes s p) (v.setWidth 64)) } := fun v => by
      rw [State.storeSel, Res.bind_of_ok umip, State.writeRMSel_reg]
      rfl
    refine ⟨toReg _, toReg _, fun hw hp pas => ⟨fun hpas => ?_, fun hpas => ?_⟩⟩
    · have hle : (if s.cs.l then 10 else 6) ≤ 4096 := by split <;> decide
      have table : ∀ t, finish s (s.storeTable p m t) = .next (s.storeAt pas (s.tableImage t)).toNext := fun t => by
        rw [State.storeTable, Res.bind_of_ok umip, Res.bind_of_ok (State.memOperand_eq hp m)]
        exact finish_of_ok (Res.bind_of_ok (State.writeBytes_eq_storeAt (by rwa [State.tableImage_length])))
      exact ⟨State.storesTo_of_toNext hw hpas hle (s.tableImage_length _) (table s.gdtr),
        State.storesTo_of_toNext hw hpas hle (s.tableImage_length _) (table s.idtr)⟩
    · have toMem : ∀ v, finish s (s.storeSel p (.mem m) v) = .next (s.storeAt pas (leBytes 2 (v.setWidth 64))).toNext := fun v => by
        rw [State.storeSel, Res.bind_of_ok umip, State.writeRMSel_mem hp hpas]
        rfl
      exact ⟨State.storesTo_of_toNext hw hpas (by decide) (leBytes_length _ _) (toMem s.ldtr.sel),
        State.storesTo_of_toNext hw hpas (by decide) (leBytes_length _ _) (toMem s.tr.sel)⟩
  · have gp : ∀ {next : Unit → Res State}, finish s (s.checkUmip >>= next) = s.takeException (excGp 0) :=
      finish_of_raise (Res.bind_of_raise (State.checkUmip_raise h3 hset))
    simp only [List.forall_mem_cons, List.not_mem_nil, false_imp_iff, implies_true, and_true]
    exact ⟨gp, gp, gp, gp⟩

namespace State
variable {s : State} {p : Pfx} {r : Sreg} {pas : List Nat}

/-- One push uses one slot (R104). -/
theorem pushPas_one (s : State) (a : Access) (wide : Bool) (sp : Word) (n : Nat) :
    s.pushPas a wide sp n 1 = s.accessPas { a with write := true } (stackDown wide sp n) n n := by
  rw [State.pushPas]
  cases s.accessPas { a with write := true } (stackDown wide sp n) n n with
  | error _ => rfl
  | ok pas => exact congrArg Except.ok (List.append_nil pas)

theorem stackSize_eq_w32_iff (s : State) (p : Pfx) : s.stackSize p = .w32 ↔ stackBytes s p = 4 := by
  rw [← stackSize_bytes]
  cases s.stackSize p <;> decide

/-- What PUSH of a segment register makes of the state `t` after its store: RSP, the free value drawn, RIP (R219). -/
def sregPushed (s : State) (p : Pfx) (t : State) : State :=
  ({ t with gpr := t.gpr.set .rsp (stackDown s.cs.l s.sp (stackBytes s p)),
            draws := if stackBytes s p = 4 then t.draws + 1 else t.draws } : State).toNext

/-- The bytes that PUSH of a segment register stores. -/
def sregSlot (s : State) (p : Pfx) (sel : Half) : List Byte :=
  leBytes (stackBytes s p) (pushSregItem (s.stackSize p) sel (Config.freeWord s.draws))

section
variable (hpas : s.pushPas s.dataAccess s.cs.l s.sp (stackBytes s p) 1 = .ok pas)
include hpas

theorem pushSreg_eq : s.pushSreg p r = .ok (s.sregPushed p (s.storeAt pas (s.sregSlot p (s.selectorOf r)))) := by
  rw [pushPas_one, ← stackSize_bytes] at hpas
  rw [State.pushSreg, Res.bind_of_ok (push_eq _ hpas), State.sregPushed, State.sregSlot]
  simp only [stackSize_eq_w32_iff, stackSize_bytes]
  split <;> rfl

theorem storesTo_of_pushSreg {i : Instr} (r : Sreg) (hw : s.memWf = true) (hexec : exec i s = finish s (s.pushSreg p r)) :
    storesTo i s (s.sregPushed p s) pas (s.sregSlot p (s.selectorOf r)) := by
  have hle : stackBytes s p ≤ 4096 := by
    rw [← stackSize_bytes]; cases s.stackSize p <;> decide
  exact storesTo_of_storeAt (s.sregPushed p) hw ((pushPas_one _ _ _ _ _).symm.trans hpas) hle (leBytes_length _ _)
    (hexec.trans (finish_of_ok (pushSreg_eq hpas))) (fun _ _ _ _ => rfl) fun _ => rfl

end

end State

/-- Settles O39: each is `popSreg` or `pushSreg` of its segment register. -/
theorem pushPopSegment : Obligations.PushPopSegment := by
  refine ⟨?_, ?_⟩
  · rintro p item d _ code s hpop rfl
    have pops : ∀ r, s.accepts r (item.setWidth 16) d → finish s (s.popSreg p r) =
        .next { loadedSreg s (sregNumber r).toNat (item.setWidth 16) d with
          rip := s.nextRip, gpr := s.gpr.set .rsp (s.spUp (stackBytes s p)), movSsBlocked := sregNumber r == 2 || s.movSsBlocked } :=
      fun r h => finish_of_ok (State.popSreg_of_accepts hpop h)
    have faults : ∀ r, s.refuses r (item.setWidth 16) d code → finish s (s.popSreg p r) = s.takeException (excGp code) := fun r h =>
      finish_of_raise (State.popSreg_of_refuses hpop h)
    have compat : s.cs.l = false → ∀ r : Res State, finish s (s.compatOnly >>= fun _ => r) = finish s r := State.finish_compatOnly
    exact ⟨fun h => ⟨pops .fs h, pops .gs h, fun hl => ⟨(compat hl _).trans (pops .es h), (compat hl _).trans (pops .ds h)⟩⟩,
      fun h => ⟨faults .fs h, faults .gs h, fun hl => ⟨(compat hl _).trans (faults .es h), (compat hl _).trans (faults .ds h)⟩⟩,
      fun h hl => (compat hl _).trans (faults .ss h), fun h hl => (compat hl _).trans (pops .ss h)⟩
  · rintro p s _ pas _ _ hw rfl hpas rfl rfl
    have hslot : ∀ sel, leBytes (stackBytes s p)
        (if stackBytes s p = 4 then sel.setWidth 64 ||| (Config.freeWord s.draws &&& 0xFFFF0000) else sel.setWidth 64) =
          s.sregSlot p sel := fun sel => by
      simp only [State.sregSlot, pushSregItem, State.stackSize_eq_w32_iff]
      rfl
    simp only [hslot]
    refine ⟨State.storesTo_of_pushSreg hpas .fs hw rfl, State.storesTo_of_pushSreg hpas .gs hw rfl, fun hl => ?_⟩
    have compat : ∀ r : Res State, finish s (s.compatOnly >>= fun _ => r) = finish s r := State.finish_compatOnly hl
    exact ⟨State.storesTo_of_pushSreg hpas .es hw (compat _), State.storesTo_of_pushSreg hpas .cs hw (compat _),
      State.storesTo_of_pushSreg hpas .ss hw (compat _), State.storesTo_of_pushSreg hpas .ds hw (compat _)⟩

/-! ## Bases of FS and GS (R217, R245 to R247) -/

theorem baseSize_bytes (p : Pfx) : (baseSize p).bytes = if p.w then 8 else 4 := by
  unfold baseSize
  split <;> rfl

namespace State
variable {s : State} {p : Pfx}

/-- A register written with 4 or 8 bytes keeps nothing (R21). -/
theorem setRegSz_baseSize (s : State) (p : Pfx) (r : Reg) (v : Word) :
    s.setRegSz (baseSize p) r v = { s with gpr := s.gpr.set r (regWritten 0 (if p.w then 8 else 4) v) } := by
  rw [← baseSize_bytes, regWritten_zero, baseSize]
  split <;> rfl

theorem requireCpl0_ok (h : s.ss.dpl = 0) : s.requireCpl0 = .ok () := raiseIf_pass (congrArg not (beq_iff_eq.2 h))

theorem requireCpl0_raise (h : s.ss.dpl ≠ 0) : s.requireCpl0 = raise (excGp 0) :=
  raiseIf_raise (congrArg not (beq_eq_false_iff_ne.2 h))

theorem requireFsgsbase_ok (hl : s.cs.l = true) (h : bit s.cr4 16 = true) : s.requireFsgsbase = .ok () :=
  raiseIf_pass (Bool.or_eq_false_iff.2 ⟨congrArg not hl, congrArg not h⟩)

theorem requireFsgsbase_raise (h : s.cs.l = false ∨ bit s.cr4 16 = false) : s.requireFsgsbase = raise excUd :=
  raiseIf_raise (Bool.or_eq_true_iff.2 (h.imp (congrArg not) (congrArg not)))

theorem newBase_eq (hl : s.cs.l = true) (h : bit s.cr4 16 = true) {r : Reg} {v : Word}
    (hv : v = regWritten 0 (if p.w then 8 else 4) (s.reg r)) :
    s.newBase p r = if isCanonical (bit s.cr4 12) v then .ok v else raise (excGp 0) := by
  rw [← baseSize_bytes, regWritten_zero] at hv
  rw [State.newBase, Res.bind_of_ok (requireFsgsbase_ok hl h), ← hv, State.canonical, State.la57]
  cases isCanonical (bit s.cr4 12) v <;> rfl

theorem finish_rdbase (hl : s.cs.l = true) (h : bit s.cr4 16 = true) (r : Reg) (b : Word) :
    finish s (s.requireFsgsbase >>= fun _ => .ok (s.setRegSz (baseSize p) r b).toNext) =
      .next { s with rip := s.nextRip, gpr := s.gpr.set r (regWritten 0 (if p.w then 8 else 4) b) } := by
  rw [Res.bind_of_ok (requireFsgsbase_ok hl h), setRegSz_baseSize]
  rfl

theorem exec_swapgs (hl : s.cs.l = true) (hf : bit s.cr4 32 = false) :
    exec .swapgs s = finish s (s.requireCpl0 >>= fun _ =>
      .ok { s with rip := s.nextRip, gs := ⟨s.gs.sel, s.sys.kernelGsBase⟩, sys := { s.sys with kernelGsBase := s.gs.base } }) :=
  congrArg (finish s) ((Res.bind_of_ok (raiseIf_pass (congrArg not hl))).trans (Res.bind_of_ok (raiseIf_pass hf)))

theorem exec_lkgs {rm : RM} {sel : Half} (hl : s.cs.l = true) (h0 : s.ss.dpl = 0) (hsel : s.readRM16 p rm = .ok sel) :
    exec (.lkgs p rm) s = finish s (s.fetchData .gs sel >>= fun d =>
      .ok { s with rip := s.nextRip, gs := ⟨sel, s.gs.base⟩, sys := { s.sys with kernelGsBase := descBase32 d } }) := by
  have kernel : (s.compat || !s.cpl0) = false := Bool.or_eq_false_iff.2 ⟨congrArg not hl, congrArg not (beq_iff_eq.2 h0)⟩
  exact congrArg (finish s) ((Res.bind_of_ok (raiseIf_pass kernel)).trans (Res.bind_of_ok hsel))

end State

/-- Settles O41: LKGS checks its selector as a load of GS; the other instructions are their mode and CPL checks and one assignment. -/
theorem segmentBases : Obligations.SegmentBases := by
  refine ⟨fun p rm sel d code s => ⟨fun hl h0 hsel h => ?_, fun hl h0 hsel h => ?_, fun h => ?_⟩,
    fun p r s => ⟨fun h => ?_, fun hl hf h0 => ?_, fun h => ?_⟩,
    fun p r s v hl hv => ⟨fun hf h0 => ?_, fun h => ⟨?_, ?_, fun hc => ?_, fun hc => ?_⟩⟩⟩
  · rw [State.exec_lkgs hl h0 hsel, Res.bind_of_ok (State.fetchData_of_accepts (r := .gs) h), descBase32_eq]
    rfl
  · rw [State.exec_lkgs hl h0 hsel, Res.bind_of_raise (State.fetchData_of_refuses (r := .gs) h)]
    rfl
  · have outside : (s.compat || !s.cpl0) = true :=
      Bool.or_eq_true_iff.2 (h.imp (congrArg not) fun h0 => congrArg not (beq_eq_false_iff_ne.2 h0))
    exact finish_of_raise (Res.bind_of_raise (raiseIf_raise outside))
  · obtain hl | hf := h
    · exact finish_of_raise (Res.bind_of_raise (raiseIf_raise (congrArg not hl)))
    · exact finish_of_raise (Res.raiseIf_bind _ (Res.bind_of_raise (raiseIf_raise hf)))
  · exact (State.exec_swapgs hl hf).trans (finish_of_raise (Res.bind_of_raise (State.requireCpl0_raise h0)))
  · have ud := State.requireFsgsbase_raise h
    have udBase : s.newBase p r = raise excUd := Res.bind_of_raise ud
    simp only [List.forall_mem_cons, List.not_mem_nil, false_imp_iff, implies_true, and_true]
    exact ⟨finish_of_raise (Res.bind_of_raise ud), finish_of_raise (Res.bind_of_raise ud),
      finish_of_raise (Res.bind_of_raise udBase), finish_of_raise (Res.bind_of_raise udBase)⟩
  · exact (State.exec_swapgs hl hf).trans (finish_of_ok (Res.bind_of_ok (State.requireCpl0_ok h0)))
  · exact State.finish_rdbase hl h r s.fs.base
  · exact State.finish_rdbase hl h r s.gs.base
  · have hb : s.newBase p r = .ok v := (State.newBase_eq hl h hv).trans (if_pos hc)
    exact ⟨finish_of_ok (Res.bind_of_ok hb), finish_of_ok (Res.bind_of_ok hb)⟩
  · have hb : s.newBase p r = raise (excGp 0) := (State.newBase_eq hl h hv).trans (if_neg (Bool.eq_false_iff.1 hc))
    exact ⟨finish_of_raise (Res.bind_of_raise hb), finish_of_raise (Res.bind_of_raise hb)⟩

/-! ## Loads of table registers (R220, R221, R224, R226) -/

namespace State
variable {s : State} {p : Pfx} {sel : Half} {types : List (BitVec 4)}

theorem readTable_eq {m : Mem} {limit base : Word} (h0 : s.ss.dpl = 0) (hl : s.cs.l = true)
    (hlimit : s.memRead (s.linAddr p m) 2 = .ok limit) (hbase : s.memRead (s.linAddr p m + 2) 8 = .ok base) :
    s.readTable p m = if isCanonical (bit s.cr4 12) base then .ok ⟨base, limit.setWidth 32⟩ else raise (excGp 0) := by
  have hsize : s.memRead (s.linAddr p m + 2) (if s.mode64 then 8 else 4) = .ok base := by rwa [State.mode64, hl]
  rw [State.readTable, Res.bind_of_ok (requireCpl0_ok h0), Res.bind_of_ok (memOperand_eq (.inl hl) m), Res.bind_of_ok hlimit,
    Res.bind_of_ok hsize, State.canonical, State.la57]
  cases isCanonical (bit s.cr4 12) base <;> rfl

theorem exec_lldt {rm : RM} (h0 : s.ss.dpl = 0) (hsel : s.readRM16 p rm = .ok sel) :
    exec (.lldt p rm) s = finish s (if isNull sel then .ok (s.setLdtr ⟨sel, 0, 0⟩).toNext
      else s.fetchSystem sel [2] >>= fun r => .ok (s.setLdtr r).toNext) :=
  congrArg (finish s) ((Res.bind_of_ok (requireCpl0_ok h0)).trans (Res.bind_of_ok hsel))

theorem exec_ltr {rm : RM} (h0 : s.ss.dpl = 0) (hsel : s.readRM16 p rm = .ok sel) :
    exec (.ltr p rm) s = finish s (if isNull sel then raise (excGp 0)
      else s.fetchSystem sel [9, 11] >>= fun r => .ok (s.setTr r).toNext) := by
  refine congrArg (finish s) ((Res.bind_of_ok (requireCpl0_ok h0)).trans ((Res.bind_of_ok hsel).trans ?_))
  cases isNull sel <;> rfl

theorem fetchSystem_outside (h : sel.getLsbD 2 = true ∨ s.gdtr.limit.toNat < sel.toNat / 8 * 8 + 15) :
    s.fetchSystem sel types = raise (excGp (selCode sel)) := by
  obtain hti | hlim := h
  · exact Res.bind_of_raise (raiseIf_raise hti)
  · refine Res.raiseIf_bind _ (Res.bind_of_raise (raiseIf_raise ?_))
    rwa [selOffset_toNat, decide_eq_true_iff]

/-- A descriptor of the GDT loads where it is a system descriptor of one of the types, present, with a canonical base and its
reserved bits 0 (R103, R224, R226). -/
theorem fetchSystem_inside {lo hi : Word} (hti : selTi sel = false) (hlim : sel.toNat / 8 * 8 + 15 ≤ s.gdtr.limit.toNat)
    (hd : s.loadSysDescriptor sel = .ok (lo, hi)) :
    s.fetchSystem sel types =
      if (lo.getLsbD 44 = false ∧ lo.getLsbD 47 = true ∧ hi.extractLsb' 40 5 = 0 ∧
          isCanonical (bit s.cr4 12) (sysBase lo hi) = true) ∧ lo.extractLsb' 40 4 ∈ types
      then .ok ⟨sel, sysBase lo hi, expandLimit (descLimit lo) (descG lo)⟩ else raise (excGp (selCode sel)) := by
  have hnot : decide (s.gdtr.limit.toNat < (selOffset sel).toNat + 15) = false := by
    rw [selOffset_toNat, decide_eq_false_iff_not]; omega
  rw [State.fetchSystem, Res.bind_of_ok (raiseIf_pass hti), Res.bind_of_ok (raiseIf_pass hnot), Res.bind_of_ok hd]
  refine (raiseIf_bind_ite (raiseIf_bind_ite (raiseIf_bind_ite raiseIf_bind_ok))).trans (if_congr ?_ rfl rfl)
  simp only [descS, descP, descType, bit, Bool.or_eq_false_iff, Bool.not_eq_false', List.contains_iff_mem, bne_eq_false_iff_eq,
    State.canonical, State.la57]
  tauto

end State

/-- Settles O44: both are `readTable`. -/
theorem loadTables : Obligations.LoadTables := by
  intro p m limit base s
  refine ⟨fun h0 hl hlimit hbase => ?_, fun h0 => ?_⟩
  · have hread := State.readTable_eq h0 hl hlimit hbase
    refine ⟨fun hc => ?_, fun hc => ?_⟩
    · rw [if_pos hc] at hread
      exact ⟨finish_of_ok (Res.bind_of_ok hread), finish_of_ok (Res.bind_of_ok hread)⟩
    · rw [if_neg (Bool.eq_false_iff.1 hc)] at hread
      exact ⟨finish_of_raise (Res.bind_of_raise hread), finish_of_raise (Res.bind_of_raise hread)⟩
  · have hread : s.readTable p m = raise (excGp 0) := Res.bind_of_raise (State.requireCpl0_raise h0)
    exact ⟨finish_of_raise (Res.bind_of_raise hread), finish_of_raise (Res.bind_of_raise hread)⟩

/-- Settles O45: after the NULL test both are `fetchSystem`, which differs in its types alone. -/
theorem loadSystemSegments : Obligations.LoadSystemSegments := by
  intro p rm sel lo hi base limit s
  refine ⟨fun h0 => ?_, fun h0 hsel => ⟨fun h4 => ?_, fun h4 hout => ?_, fun h8 hti hlim hd hbase hlimit => ?_⟩⟩
  · have gp := State.requireCpl0_raise h0
    exact ⟨finish_of_raise (Res.bind_of_raise gp), finish_of_raise (Res.bind_of_raise gp)⟩
  all_goals have lldt := State.exec_lldt h0 hsel
  all_goals have ltr := State.exec_ltr h0 hsel
  · rw [isNull_of_lt h4] at lldt ltr
    exact ⟨lldt, ltr⟩
  all_goals rw [isNull_of_ge (by omega)] at lldt ltr
  · exact ⟨lldt.trans (finish_of_raise (Res.bind_of_raise (State.fetchSystem_outside hout))),
      ltr.trans (finish_of_raise (Res.bind_of_raise (State.fetchSystem_outside hout)))⟩
  · obtain rfl : base = sysBase lo hi := hbase.trans (sysBase_eq lo hi).symm
    obtain rfl : limit = expandLimit (descLimit lo) (descG lo) := by
      rw [hlimit, expandLimit_eq, descLimit_eq]; rfl
    intro ok
    have loads : ∀ {types}, ok → lo.extractLsb' 40 4 ∈ types → s.fetchSystem sel types = .ok _ := fun hok ht =>
      (State.fetchSystem_inside hti hlim hd).trans (if_pos ⟨hok, ht⟩)
    have faults : ∀ {types}, ¬ ok ∨ lo.extractLsb' 40 4 ∉ types → s.fetchSystem sel types = raise (excGp (selCode sel)) := fun h =>
      (State.fetchSystem_inside hti hlim hd).trans (if_neg (not_and_or.2 h))
    refine ⟨fun hok ht => ?_, fun hok ht => ?_, fun h => ?_, fun h => ?_⟩
    · exact lldt.trans (finish_of_ok (Res.bind_of_ok (loads hok (List.mem_singleton.2 ht))))
    · exact ltr.trans (finish_of_ok (Res.bind_of_ok (loads hok (List.mem_pair.2 ht))))
    · exact lldt.trans (finish_of_raise (Res.bind_of_raise (faults (h.imp_right (mt List.mem_singleton.1)))))
    · have hpair : lo.extractLsb' 40 4 ≠ 9 ∧ lo.extractLsb' 40 4 ≠ 11 → lo.extractLsb' 40 4 ∉ [9, 11] := fun hn ht =>
        (List.mem_pair.1 ht).elim hn.1 hn.2
      exact ltr.trans (finish_of_raise (Res.bind_of_raise (faults (h.imp_right hpair))))

/-! ## Queries (R239 to R244) -/

namespace State
variable {s : State} {p : Pfx} {r : Reg} {rm : RM} {sel : Half} {d : Word}

/-- A selector that a query refuses: NULL, of 4 to 7, beyond its table, or of a segment that fails a condition (R239, D37). -/
def queryRefused (s : State) (sel : Half) (d : Word) : Prop :=
  sel.toNat < 8 ∨ inTable s sel = false ∨ 8 ≤ sel.toNat ∧ descriptorAt s sel = .ok d ∧ ¬dataSegment s sel d

theorem query_inTable (h4 : 4 ≤ sel.toNat) (ht : inTable s sel = true) (hd : s.loadDescriptor sel = .ok d) :
    s.query sel = .ok (if s.dataDescOk sel d then some d else none) := by
  rw [State.query, isNull_of_ge h4, selectorInTable_eq, ht]
  exact Res.bind_of_ok hd

theorem query_of_dataSegment (h4 : 4 ≤ sel.toNat) (h : dataSegment s sel d) : s.query sel = .ok (some d) := by
  obtain ⟨h8, ht, hd⟩ := accepts_inTable (r := .ds) (not_lt.2 h4) h
  rw [query_inTable h4 ht ((loadDescriptor_of_ge h8).trans hd), if_pos ((dataSegment_iff h8 ht hd).1 h)]

theorem query_of_refused (h : s.queryRefused sel d) : s.query sel = .ok none := by
  by_cases h4 : sel.toNat < 4
  · rw [State.query, isNull_of_lt h4]; rfl
  by_cases ht : inTable s sel = true
  · have h4' : 4 ≤ sel.toNat := not_lt.1 h4
    obtain h8 | hout | ⟨h8, hd, hnot⟩ := h
    · have hzero : s.dataDescOk sel 0 = false := descOk_zero (r := .ds) h4'
      rw [query_inTable h4' ht (loadDescriptor_of_lt h8), hzero]; rfl
    · rw [ht] at hout; cases hout
    · rw [dataSegment_iff h8 ht hd] at hnot
      rw [query_inTable h4' ht ((loadDescriptor_of_ge h8).trans hd), if_neg hnot]
  · rw [State.query, selectorInTable_eq, Bool.eq_false_iff.2 ht, Bool.not_false, Bool.or_true]; rfl

theorem lslValue_eq (d : Word) : lslValue d =
    (let l := (d.extractLsb' 48 4 ++ d.extractLsb' 0 16).setWidth 32
     (if d.getLsbD 55 then l * 4096 + 4095 else l : BitVec 32).setWidth 64) := by
  rw [lslValue, descLimit_eq, expandLimit_eq]; rfl

theorem queryValue_of_some (hsel : s.readRM16 p rm = .ok sel) (hq : s.query sel = .ok (some d)) (f : Word → Word) :
    s.queryValue p r rm f = .ok { s with
      rip := s.nextRip, rflags := s.rflags ||| 0x40, gpr := s.gpr.set r (regWritten (s.reg r) (dataBytes s p) (f d)) } := by
  have written := setRegSz_eq_regWritten s (s.opSize p) r (f d)
  rw [opSize_bytes] at written
  exact (Res.bind_of_ok hsel).trans ((Res.bind_of_ok hq).trans (congrArg (fun t : State => Except.ok (t.setZf true).toNext) written))

theorem readRM16_reg (s : State) (p : Pfx) (q : Reg) : s.readRM16 p (.reg q) = .ok ((s.reg q).setWidth 16) := by
  refine congrArg Except.ok ?_
  show (s.reg q &&& (BitVec.allOnes 16).setWidth 64).setWidth 16 = _
  rw [and_lowMask]
  exact BitVec.setWidth_setWidth_of_le _ (by decide)

section
variable {dest : Half} (hl : s.cs.l = false) (hdest : s.readRM16 p rm = .ok dest)
include hl hdest

/-- ARPL of a source whose RPL is not above the destination's. -/
theorem exec_arpl_of_le (h : ((s.reg r).setWidth 16 : Half).toNat % 4 ≤ dest.toNat % 4) :
    exec (.arpl p rm r) s = .next (s.setZf false).toNext := by
  have hnot : ¬ selRpl dest < selRpl ((s.reg r).setWidth 16) := by rw [selRpl_lt_iff]; omega
  exact (finish_compatOnly hl _).trans (finish_of_ok ((Res.bind_of_ok hdest).trans (if_neg hnot)))

/-- ARPL of a source whose RPL is above the destination's. -/
theorem exec_arpl_of_lt (h : dest.toNat % 4 < ((s.reg r).setWidth 16 : Half).toNat % 4) :
    exec (.arpl p rm r) s =
      finish s (s.writeRM16 p rm ((dest &&& 0xFFFC) ||| ((s.reg r).setWidth 16 &&& 3)) >>= fun t => .ok (t.setZf true).toNext) := by
  have hlt := (selRpl_lt_iff _ _).2 h
  refine (finish_compatOnly hl _).trans (congrArg (finish s) ((Res.bind_of_ok hdest).trans ((if_pos hlt).trans ?_)))
  rw [arplSel, if_pos hlt, withRpl_selRpl]
  rfl

end

end State

/-- Settles O46: `query` answers the descriptor where a data load accepts the selector and none elsewhere; ARPL is the comparison of two
RPLs and at most one write. -/
theorem selectorQueries : Obligations.SelectorQueries := by
  refine ⟨?_, ?_⟩
  · intro p r rm sel d limit s hsel hlimit
    obtain rfl : limit = lslValue d := hlimit.trans (State.lslValue_eq d).symm
    refine ⟨fun h4 h => ?_, fun h => ?_⟩
    · intro f
      have hq := State.query_of_dataSegment h4 h
      have value := fun g => finish_of_ok (s := s) (State.queryValue_of_some (r := r) hsel hq g)
      have ok : finish s (s.queryOk p rm) = .next { s with rip := s.nextRip, rflags := f } :=
        finish_of_ok ((Res.bind_of_ok hsel).trans (Res.bind_of_ok hq))
      exact ⟨value lslValue, value larValue, ok, ok⟩
    · intro u
      have hq : s.query sel = .ok none := State.query_of_refused h
      have value : ∀ g, finish s (s.queryValue p r rm g) = .next u := fun g =>
        finish_of_ok ((Res.bind_of_ok hsel).trans (Res.bind_of_ok hq))
      have ok : finish s (s.queryOk p rm) = .next u := finish_of_ok ((Res.bind_of_ok hsel).trans (Res.bind_of_ok hq))
      exact ⟨value lslValue, value larValue, ok, ok⟩
  · rintro p r q m rm dest _ _ s pas hl rfl rfl
    refine ⟨fun hdest hle => State.exec_arpl_of_le hl hdest hle, ?_, fun hw hp hdest hlt hpas => ?_⟩
    · rintro rfl hlt
      rw [State.exec_arpl_of_lt hl (State.readRM16_reg s p q) hlt, State.writeRM16, State.setRegSz_eq_regWritten]
      rfl
    · refine State.storesTo_of_storeAt (fun t => (t.setZf true).toNext) hw hpas (by decide) (leBytes_length _ _)
        ((State.exec_arpl_of_lt hl hdest hlt).trans ?_) (fun _ _ _ _ => rfl) fun _ => rfl
      rw [State.writeRM16, State.memOperand_eq (.inr hp)]
      exact finish_of_ok (Res.bind_of_ok (State.memWrite_eq_storeAt hpas _))

end Sys2Proof.Machine

/-! # Control registers, MSRs, CPUID, flags and ports (O47 to O51)

Each of these instructions is a check of CPL, at most one check of its value, and a few assignments. Each check is turned once into the
condition that the statements print; WRMSR and RDMSR are taken apart by what holds the value: a plain register, a bank, or nothing. -/

namespace Sys2Proof.Machine

/-! ## Words -/

theorem ushiftRight_eq_zero_iff (v : Word) (k : Nat) : v >>> k = 0 ↔ v.toNat < 2 ^ k := by
  rw [← BitVec.toNat_inj, BitVec.toNat_ushiftRight, Nat.shiftRight_eq_div_pow, show (0 : Word).toNat = 0 from rfl,
    Nat.div_eq_zero_iff_lt (Nat.two_pow_pos k)]

theorem low32_setWidth (v : Word) : (low32 v).setWidth 32 = v.setWidth 32 := by
  show (v &&& (BitVec.allOnes 32).setWidth 64).setWidth 32 = _
  rw [and_lowMask]
  exact BitVec.setWidth_setWidth_of_le _ (by decide)

/-- A word of 32 bits is its low half and has no upper half. -/
theorem low32_setWidth64 (x : DWord) : low32 (x.setWidth 64) = x.setWidth 64 := by
  show x.setWidth 64 &&& (BitVec.allOnes 32).setWidth 64 = _
  rw [and_lowMask, BitVec.setWidth_setWidth_of_le x (by decide : 32 ≤ 64), BitVec.setWidth_eq]

theorem setBit_bit (v a : Word) (n : Nat) : setBit v n (bit a n) = mergeBits v (BitVec.twoPow 64 n) a := by
  have hone : (1 : Word) <<< n = BitVec.twoPow 64 n := (BitVec.twoPow_eq 64 n).symm
  rw [mergeBits, BitVec.and_twoPow, setBit, bit, hone]
  cases a.getLsbD n
  · exact BitVec.or_zero.symm
  · ext i hi
    simp only [if_true, BitVec.getElem_or, BitVec.getElem_and, BitVec.getElem_not]
    cases (BitVec.twoPow 64 n)[i] <;> simp

/-! ## Control registers (R270 to R273) -/

/-- A meaning that checks CPL, then its value. -/
theorem finish_cpl0_raiseIf {s t : State} (h0 : s.ss.dpl = 0) (b : Bool) (e : Exc) :
    finish s (s.requireCpl0 >>= fun _ => raiseIf b e >>= fun _ => .ok t) = if b = false then .next t else s.takeException e := by
  rw [Res.bind_of_ok (State.requireCpl0_ok h0)]
  cases b <;> rfl

theorem finish_requireCpl0_raise {s : State} {next : Unit → Res State} (h : s.ss.dpl ≠ 0) :
    finish s (s.requireCpl0 >>= next) = s.takeException (excGp 0) :=
  finish_of_raise (Res.bind_of_raise (State.requireCpl0_raise h))

namespace State
variable {s : State} {r : Reg} {v : Word}

theorem inVmx_iff (s : State) : s.inVmx = true ↔ s.vmx ≠ .off := by
  unfold State.inVmx
  cases s.vmx <;> simp

theorem vmx_ne_nonRoot (h : s.nonRoot = false) (c : Vmcs) : s.vmx ≠ .nonRoot c := fun hv => by
  rw [State.nonRoot, hv] at h
  cases h

theorem readCr0_of_root (h : s.nonRoot = false) : s.readCr0 = s.cr0 := by
  unfold State.readCr0
  split
  · next hv => exact absurd hv (vmx_ne_nonRoot h _)
  · rfl

theorem readCr4_of_root (h : s.nonRoot = false) : s.readCr4 = s.cr4 := by
  unfold State.readCr4
  split
  · next hv => exact absurd hv (vmx_ne_nonRoot h _)
  · rfl

/-- Outside non-root operation no mask touches a write of CR0 or CR4. -/
theorem guestCrWrite_of_root (h : s.nonRoot = false) (n old : Word) (mask shadow : VmcsControls → Word) :
    s.guestCrWrite n r v old mask shadow = .ok v := by
  unfold State.guestCrWrite
  split
  · next hv => exact absurd hv (vmx_ne_nonRoot h _)
  · rfl

theorem tprShadow_none (h : ∀ c, s.vmx = .nonRoot c → c.ctl.useTprShadow = false) : s.tprShadow = none := by
  unfold State.tprShadow
  split
  · next c hv => rw [h c hv]; rfl
  · rfl

theorem tprShadow_some {c : Vmcs} (hv : s.vmx = .nonRoot c) (h : c.ctl.useTprShadow = true) : s.tprShadow = some c.ctl := by
  rw [State.tprShadow, hv]
  exact if_pos h

theorem exec_movRCr (h0 : s.ss.dpl = 0) {n : BitVec 4} {x : Word} (hx : s.readCr n = some x) :
    exec (.movRCr n r) s = .next (s.freeStatus.setReg r x).toNext := by
  show finish s (s.requireCpl0 >>= fun _ => _) = _
  rw [Res.bind_of_ok (requireCpl0_ok h0), hx]
  rfl

theorem readCr_none {n : BitVec 4} (h : n ∉ [(0 : BitVec 4), 2, 3, 4, 8]) : s.readCr n = none := by
  simp only [List.mem_cons, List.not_mem_nil, or_false, not_or] at h
  obtain ⟨h0, h2, h3, h4, h8⟩ := h
  rw [State.readCr, if_neg h0, if_neg h2, if_neg h3, if_neg h4, if_neg h8]

theorem exec_movRCr_none (h0 : s.ss.dpl = 0) {n : BitVec 4} (hn : s.readCr n = none) :
    exec (.movRCr n r) s = s.takeException excUd := by
  show finish s (s.requireCpl0 >>= fun _ => _) = _
  rw [Res.bind_of_ok (requireCpl0_ok h0), hn]
  rfl

theorem cr0WriteOk_iff (s : State) (v : Word) :
    s.cr0WriteOk v = true ↔ v >>> 32 = 0 ∧ v &&& 0xA0000027 = 0x80000023 ∧ (bit s.cr4 23 = false ∨ bit v 16 = true) := by
  simp only [State.cr0WriteOk, cr0FixedOk, State.cetOn, Bool.and_eq_true, beq_iff_eq, Bool.not_eq_true', Bool.and_eq_false_iff,
    Bool.not_eq_false', and_assoc]

theorem cr4WriteOk_iff (s : State) (v : Word) :
    s.cr4WriteOk v = true ↔ v &&& 0x22 = 0x20 ∧ s.cr4Reserved v = false ∧ bit v 12 = bit s.cr4 12 ∧
      (bit v 17 = true → bit s.cr4 17 = true ∨ s.cr3 &&& 0xFFF = 0) ∧ (bit v 23 = true → bit s.cr0 16 = true) ∧
      (s.vmx ≠ .off → bit v 13 = true) := by
  simp only [State.cr4WriteOk, cr4FixedOk, State.la57, State.pcide, State.wp, Bool.and_eq_true, beq_iff_eq, Bool.not_eq_true',
    Bool.and_eq_false_imp, Bool.not_eq_false', bne_eq_false_iff_eq, and_imp, or_iff_not_imp_left, Bool.not_eq_true, ← inVmx_iff,
    and_assoc]

theorem exec_movCr0R (h0 : s.ss.dpl = 0) (hroot : s.nonRoot = false) :
    exec (.movCr0R r) s =
      if s.cr0WriteOk (s.reg r) then .next (s.freeStatus.setCr0 (cr0Of (s.reg r))).toNext else s.takeException (excGp 0) := by
  show finish s (s.requireCpl0 >>= fun _ => s.guestCrWrite 0 r (s.reg r) s.cr0 (·.cr0Mask) (·.cr0Shadow) >>= fun _ => _) = _
  rw [guestCrWrite_of_root hroot]
  refine (finish_cpl0_raiseIf h0 _ _).trans (if_congr ?_ rfl rfl)
  rw [Bool.not_eq_false']

theorem exec_movCr4R (h0 : s.ss.dpl = 0) (hroot : s.nonRoot = false) :
    exec (.movCr4R r) s =
      if s.cr4WriteOk (s.reg r) then .next ((s.freeStatus.setCr4 (s.reg r)).setTlb (s.tlbAfterCr4 (s.reg r))).toNext
      else s.takeException (excGp 0) := by
  show finish s (s.requireCpl0 >>= fun _ => s.guestCrWrite 4 r (s.reg r) s.cr4 (·.cr4Mask) (·.cr4Shadow) >>= fun _ => _) = _
  rw [guestCrWrite_of_root hroot]
  refine (finish_cpl0_raiseIf h0 _ _).trans (if_congr ?_ rfl rfl)
  rw [Bool.not_eq_false']

/-- MOV CR3 checks the value that it stores. -/
theorem exec_movCr3R (h0 : s.ss.dpl = 0) :
    exec (.movCr3R r) s =
      if (s.cr3Stored (s.reg r)).toNat < 2 ^ s.cfg.maxPA then
        .next ((s.freeStatus.setCr3 (s.cr3Stored (s.reg r))).setTlb (s.tlbAfterCr3 (s.reg r))).toNext
      else s.takeException (excGp 0) := by
  refine (finish_cpl0_raiseIf h0 _ _).trans (if_congr ?_ rfl rfl)
  rw [State.cr3WriteOk, ← State.cr3Stored, State.cr3Reserved, Bool.not_not, decide_eq_false_iff_not, not_le]

theorem cr3Stored_eq (s : State) (v : Word) : s.cr3Stored v = if bit s.cr4 17 then v &&& 0x7FFFFFFFFFFFFFFF else v := rfl

theorem tlbAfterCr3_empty (h17 : bit s.cr4 17 = false) (h7 : bit s.cr4 7 = false) : s.tlbAfterCr3 v = Tlb.empty := by
  rw [State.tlbAfterCr3, State.pcide, State.pge, h17, h7]
  rfl

theorem exec_movCr8R (h0 : s.ss.dpl = 0) :
    exec (.movCr8R r) s =
      if (s.reg r).toNat < 16 then .next (s.freeStatus.writeCr8 (s.reg r)).toNext else s.takeException (excGp 0) := by
  refine (finish_cpl0_raiseIf h0 _ _).trans (if_congr ?_ rfl rfl)
  rw [bne_eq_false_iff_eq]
  exact ushiftRight_eq_zero_iff _ 4

theorem writeCr8_of_none (h : s.tprShadow = none) : s.writeCr8 v = s.setCr8 v := by rw [State.writeCr8, h]

theorem writeCr8_of_some {c : VmcsControls} (h : s.tprShadow = some c) :
    s.writeCr8 v = s.storeAt ((List.range 4).map (c.tprAt + ·)) (leBytes 4 (v <<< 4)) := by rw [State.writeCr8, h]

/-- A meaning that stores at physical addresses and leaves the status flags free. -/
theorem storesTo_of_freeStatus {i : Instr} {pas : List Nat} {bs : List Byte} (hw : s.memWf = true) (hn : pas.Nodup)
    (hl : pas.length = bs.length) (hexec : exec i s = .next (s.freeStatus.storeAt pas bs).toNext) :
    storesTo i s s.freeStatus.toNext pas bs := by
  have hok : s.freeStatus.memOk := s.memWf_iff.1 hw
  refine ⟨_, hexec, ?_, fun a ha => byteAt_storeAt_other s.freeStatus pas bs a ha hok,
    byteAt_storeAt_same s.freeStatus pas bs hn hl hok⟩
  have hstore := State.storeAt_eq s.freeStatus pas bs
  generalize s.freeStatus.storeAt pas bs = w at hstore ⊢
  rw [hstore]
  rfl

end State

/-- Settles O47: each MOV is its check of CPL, its check of the value (`cr0WriteOk_iff`, `cr4WriteOk_iff`, the range of the stored CR3
and of CR8) and its assignment to a state with free status flags. -/
theorem controlRegisters : Obligations.ControlRegisters := by
  rintro n r s _ _ _ rfl rfl rfl noTprShadow
  refine ⟨fun h0 x hx => ?_, fun h0 hroot => ?_, fun h0 hn => State.exec_movRCr_none h0 (State.readCr_none hn),
    fun h0 => ⟨?_, fun h17 => ?_, fun h17 => ?_, fun hroot => ?_, fun h16 htpr => ?_, fun c h16 hw hv htpr => ?_, fun h16 => ?_⟩,
    fun h3 => ?_⟩
  · refine State.exec_movRCr h0 ?_
    obtain ⟨rfl, rfl⟩ | ⟨rfl, rfl⟩ | ⟨hroot, ⟨rfl, rfl⟩ | ⟨rfl, rfl⟩⟩ | ⟨htpr, rfl, rfl⟩ := hx
    · rfl
    · rfl
    · exact congrArg some (State.readCr0_of_root hroot)
    · exact congrArg some (State.readCr4_of_root hroot)
    · show some s.readCr8 = _
      rw [State.readCr8, State.tprShadow_none htpr]
  · have mov := State.exec_movCr0R (r := r) h0 hroot
    refine ⟨fun h32 hfixed hwp => mov.trans (if_pos ((s.cr0WriteOk_iff _).2 ⟨h32, hfixed, hwp⟩)),
      fun hbad => mov.trans (if_neg (mt (s.cr0WriteOk_iff _).1 ?_))⟩
    simpa only [not_and_or, not_or, Bool.not_eq_false, Bool.not_eq_true] using hbad
  · exact finish_of_ok (Res.bind_of_ok (State.requireCpl0_ok h0))
  · have mov := State.exec_movCr3R (r := r) h0
    rw [State.cr3Stored_eq, h17] at mov
    exact ⟨fun hlt => mov.trans (if_pos hlt), State.tlbAfterCr3_empty h17, fun hge => mov.trans (if_neg (not_lt.2 hge))⟩
  · have mov := State.exec_movCr3R (r := r) h0
    rw [State.cr3Stored_eq, h17] at mov
    exact ⟨fun hlt => mov.trans (if_pos hlt), fun hge => mov.trans (if_neg (not_lt.2 hge))⟩
  · have mov := State.exec_movCr4R (r := r) h0 hroot
    exact ⟨fun hok => mov.trans (if_pos ((s.cr4WriteOk_iff _).2 hok)), fun hbad => mov.trans (if_neg (mt (s.cr4WriteOk_iff _).1 hbad))⟩
  · have hnone : s.freeStatus.tprShadow = none := State.tprShadow_none htpr
    rw [State.exec_movCr8R h0, if_pos h16, State.writeCr8_of_none hnone]
    rfl
  · have hsome : s.freeStatus.tprShadow = some c.ctl := State.tprShadow_some hv htpr
    refine State.storesTo_of_freeStatus hw ?_ rfl ((State.exec_movCr8R h0).trans ?_)
    · exact List.nodup_range.map fun _ _ => Nat.add_left_cancel
    · rw [if_pos h16, State.writeCr8_of_some hsome]
      rfl
  · exact (State.exec_movCr8R h0).trans (if_neg (not_lt.2 h16))
  · have h0 : s.ss.dpl ≠ 0 := by rw [h3]; decide
    simp only [List.forall_mem_cons, List.not_mem_nil, false_imp_iff, implies_true, and_true]
    exact ⟨finish_requireCpl0_raise h0, finish_requireCpl0_raise h0, finish_requireCpl0_raise h0, finish_requireCpl0_raise h0,
      finish_requireCpl0_raise h0, finish_requireCpl0_raise h0⟩

/-! ## Model-specific registers (R275 to R280) -/

/-- The bits of a mask that are all set. -/
theorem and_or_eq_self {v a b : Word} (ha : v &&& a = a) (hb : v &&& b = b) : v &&& (a ||| b) = a ||| b := by
  rw [BitVec.and_or_distrib_left, ha, hb]

theorem and_twoPow_of_bit {v : Word} {n : Nat} (h : bit v n = true) : v &&& BitVec.twoPow 64 n = BitVec.twoPow 64 n := by
  rw [BitVec.and_twoPow]
  exact if_pos h

theorem mem_map_toNat {t : Word} {l : List Word} : (l.map BitVec.toNat).contains t.toNat = true ↔ t ∈ l := by
  rw [List.contains_iff_mem]
  exact List.mem_map_of_injective fun _ _ => BitVec.eq_of_toNat_eq

namespace State
variable {s t : State} {i : Nat} {v : Word}

/-! ### What WRMSR checks (R276 to R280, R54, R57) -/

/-- IA32_EFER: SCE, LME and NXE set and no reserved bit; LMA may be 0. -/
theorem msrWriteOk_efer (s : State) (v : Word) : s.msrWriteOk 0xC0000080 v = true ↔ v ||| 0x400 = 0xD01 := by
  show (bit v 0 && bit v 8 && bit v 11 && v &&& ~~~0xD01 == 0) = true ↔ _
  simp only [Bool.and_eq_true, beq_iff_eq, and_assoc]
  constructor
  · rintro ⟨h0, h8, h11, hres⟩
    have hset : v &&& 0x901 = 0x901 :=
      and_or_eq_self (and_or_eq_self (and_twoPow_of_bit h0) (and_twoPow_of_bit h8)) (and_twoPow_of_bit h11)
    have hsplit : v = v &&& (0x901 ||| 0x400 ||| ~~~0xD01) := BitVec.and_allOnes.symm
    rw [hsplit, BitVec.and_or_distrib_left, BitVec.and_or_distrib_left, hset, hres, show (0 : Word) = 0#64 from rfl, BitVec.or_zero, BitVec.or_assoc,
      BitVec.and_comm v, and_or_self]
    rfl
  · intro h
    have hbit : ∀ n, bit v n = true ∨ (0x400 : Word).getLsbD n = true ↔ (0xD01 : Word).getLsbD n = true := fun n => by
      rw [← h, BitVec.getLsbD_or, Bool.or_eq_true]; rfl
    have hres : (v ||| 0x400) &&& ~~~0xD01 = v &&& ~~~0xD01 := by
      rw [BitVec.and_or_distrib_right]
      exact BitVec.or_zero
    refine ⟨((hbit 0).2 rfl).resolve_right (by decide), ((hbit 8).2 rfl).resolve_right (by decide),
      ((hbit 11).2 rfl).resolve_right (by decide), ?_⟩
    rw [← hres, h]
    rfl

theorem msrWriteOk_apicBase (s : State) (v : Word) :
    s.msrWriteOk 0x1B v = true ↔ bit v 10 = true ∧ bit v 11 = true ∧ v &&& 0x2FF = 0 ∧ v.toNat < 2 ^ s.cfg.maxPA := by
  show (bit v 10 && bit v 11 && v &&& 0x2FF == 0 && decide (v.toNat < 2 ^ s.cfg.maxPA)) = true ↔ _
  simp only [Bool.and_eq_true, beq_iff_eq, decide_eq_true_eq, and_assoc]

theorem msrWriteOk_sipiPtr (s : State) (v : Word) :
    s.msrWriteOk 0x3C v = true ↔ s.biosDone = false ∧ v.toNat < 2 ^ s.cfg.maxPA ∧ v &&& 0xFFE = 0 := by
  show (!s.biosDone && decide (v.toNat < 2 ^ s.cfg.maxPA) && v &&& 0xFFE == 0) = true ↔ _
  simp only [Bool.and_eq_true, beq_iff_eq, decide_eq_true_eq, Bool.not_eq_true', and_assoc]

/-- Bit 10 of MTRR_DEF_TYPE is one of the reserved bits. -/
theorem msrWriteOk_mtrrDefType (s : State) (v : Word) :
    s.msrWriteOk 0x2FF v = true ↔ v &&& ~~~(0x8FF : Word) = 0 ∧ v &&& 0xFF ∈ [(0 : Word), 1, 4, 5, 6] := by
  show (!bit v 10 && v &&& ~~~0x8FF == 0 && (([0, 1, 4, 5, 6] : List Word).map BitVec.toNat).contains (v &&& 0xFF).toNat) = true ↔ _
  have hbit : v &&& ~~~(0x8FF : Word) = 0 → bit v 10 = false := fun h => by
    have := congrArg (BitVec.getLsbD · 10) h
    simpa [bit] using this
  rw [Bool.and_eq_true, mem_map_toNat, Bool.and_eq_true, beq_iff_eq, Bool.not_eq_true', and_iff_right_of_imp hbit]

theorem msrWriteOk_ssp (s : State) (v : Word) (h : i = 0x6A5 ∨ i = 0x6A6) :
    s.msrWriteOk i v = true ↔ isCanonical (bit s.cr4 12) v = true ∧ v &&& 3 = 0 := by
  have heq : s.msrWriteOk i v = (isCanonical (bit s.cr4 12) v && v &&& 3 == 0) := by
    obtain rfl | rfl := h <;> rfl
  rw [heq, Bool.and_eq_true, beq_iff_eq]

theorem msrWriteOk_fmask (s : State) (v : Word) : s.msrWriteOk 0xC0000084 v = true ↔ v >>> 32 = 0 := by
  show (v >>> 32 == 0) = true ↔ _
  rw [beq_iff_eq]

theorem msrWriteOk_fredConfig (s : State) (v : Word) :
    s.msrWriteOk 0x1D4 v = true ↔ isCanonical (bit s.cr4 12) v = true ∧ v &&& s.cfg.fredConfigReserved = 0 := by
  show (isCanonical (bit s.cr4 12) v && v &&& s.cfg.fredConfigReserved == 0) = true ↔ _
  rw [Bool.and_eq_true, beq_iff_eq]

/-! ### Which addresses hold what -/

/-- The addresses that the statements take from the banks: counters, fixed-range MTRRs, machine-check control. -/
def bankOrNone (i : Nat) : Prop :=
  0xC1 ≤ i ∧ i < 0xC9 ∨ 0x250 ≤ i ∧ i < 0x270 ∨ 0x309 ≤ i ∧ i < 0x310 ∨ 0x400 ≤ i ∧ i < 0x480

theorem readPlainMsr_bankOrNone (h : bankOrNone i) : s.readPlainMsr i = none := by
  unfold bankOrNone at h
  unfold State.readPlainMsr vmxCap
  simp (disch := omega) only [if_neg]

theorem writePlainMsr_bankOrNone (h : bankOrNone i) : s.writePlainMsr i v = none := by
  unfold bankOrNone at h
  unfold State.writePlainMsr
  simp (disch := omega) only [if_neg]

theorem enablesCounters_bankOrNone (h : bankOrNone i) : enablesCounters i = false := by
  unfold bankOrNone at h
  simp only [enablesCounters, Bool.or_eq_false_iff, Bool.and_eq_false_iff, decide_eq_false_iff_not, beq_eq_false_iff_ne]
  omega

/-- No fixed-range MTRR is implemented (R59). -/
theorem readMsr_fixedMtrr (h : 0x250 ≤ i ∧ i < 0x270) (hx : s.cfg.x2apicReadable.contains i = false) (hlen : s.cnt.pmc.length ≤ 8) :
    s.readMsr i = raise (excGp 0) := by
  have hbank : s.readBankMsr i = none := by
    unfold State.readBankMsr
    simp (disch := omega) only [if_neg]
  have hfree : s.freeMsr i = false := by
    simp only [State.freeMsr, hx, Bool.or_false, Bool.or_eq_false_iff, Bool.and_eq_false_iff, decide_eq_false_iff_not]
    omega
  rw [State.readMsr, readPlainMsr_bankOrNone (.inr (.inl h)), hbank, hfree]
  rfl

theorem writeMsr_fixedMtrr (h : 0x250 ≤ i ∧ i < 0x270) (hx : s.cfg.x2apicWritable.contains i = false) :
    s.writeMsr i v = raise (excGp 0) := by
  have hbank : s.writeBankMsr i v = none := by
    unfold State.writeBankMsr
    simp (disch := omega) only [if_neg]
  rw [State.writeMsr, writePlainMsr_bankOrNone (.inr (.inl h)), hbank, hx]
  exact ite_self _

theorem readMsr_of_plain (h : s.readPlainMsr i = some v) : s.readMsr i = .ok (v, s) := by rw [State.readMsr, h]

theorem readMsr_of_bank (hi : bankOrNone i) (h : s.readBankMsr i = some v) : s.readMsr i = .ok (v, s) := by
  rw [State.readMsr, readPlainMsr_bankOrNone hi, h]

theorem bankRead_add (l : List Word) (base k : Nat) : bankRead l base (base + k) = l[k]? := by
  rw [bankRead, if_pos (Nat.le_add_right base k), Nat.add_sub_cancel_left]

/-- A counter that does not count answers the value it holds (R60). -/
theorem readMsr_pmc {k : Nat} (hk : k < 8) (hv : s.cnt.pmc[k]? = some v)
    (hoff : bit (s.cnt.perfEvtSel.getD k 0) 22 = false ∨ bit s.cnt.perfGlobalCtrl k = false) : s.readMsr (0xC1 + k) = .ok (v, s) := by
  have hcounts : s.pmcCounts k = false := Bool.and_eq_false_iff.2 hoff
  refine readMsr_of_bank (.inl (by omega)) ?_
  rw [State.readBankMsr, if_pos (by omega), Nat.add_sub_cancel_left, hcounts, bankRead_add]
  exact hv

theorem readMsr_fixedCtr {k : Nat} (hk : k < 7) (hv : s.cnt.fixedCtr[k]? = some v)
    (hoff : (s.cnt.fixedCtrCtrl >>> (4 * k)) &&& 3 = 0 ∨ bit s.cnt.perfGlobalCtrl (32 + k) = false) :
    s.readMsr (0x309 + k) = .ok (v, s) := by
  have hcounts : s.fixedCounts k = false := Bool.and_eq_false_iff.2 (hoff.imp_left bne_eq_false_iff_eq.2)
  refine readMsr_of_bank (.inr (.inr (.inl (by omega)))) ?_
  rw [State.readBankMsr, if_neg (by omega), if_pos (by omega), Nat.add_sub_cancel_left, hcounts, bankRead_add]
  exact hv

/-- The number of the bank of a machine-check control register, and its place in the bank. -/
theorem mcCtl_address (k : Nat) : (0x400 + 4 * k) % 4 = 0 ∧ (0x400 + 4 * k - 0x400) / 4 = k := by omega

theorem readMsr_mcCtl {k : Nat} (hk : k < 32) (hv : s.plat.mcCtl[k]? = some v) : s.readMsr (0x400 + 4 * k) = .ok (v, s) := by
  obtain ⟨hmod, hdiv⟩ := mcCtl_address k
  refine readMsr_of_bank (.inr (.inr (.inr (by omega)))) ?_
  unfold State.readBankMsr
  simp (disch := omega) only [if_neg, if_pos]
  rw [PlatformMsrs.mcRead, if_pos hmod, hdiv]
  exact hv

theorem writeMsr_mcCtl {k : Nat} (hk : k < 32) (hlen : k < s.plat.mcCtl.length) :
    s.writeMsr (0x400 + 4 * k) v = .ok (s.setPlat { s.plat with mcCtl := s.plat.mcCtl.set k v }) := by
  obtain ⟨hmod, hdiv⟩ := mcCtl_address k
  have hok : s.msrWriteOk (0x400 + 4 * k) v = true := by
    unfold State.msrWriteOk
    simp (disch := omega) only [if_neg, if_pos, hmod]
    rfl
  have hbank : s.writeBankMsr (0x400 + 4 * k) v = some (s.setPlat { s.plat with mcCtl := s.plat.mcCtl.set k v }) := by
    unfold State.writeBankMsr
    simp (disch := omega) only [if_neg, if_pos]
    rw [PlatformMsrs.mcWrite, hdiv, if_neg (not_le.2 hlen), if_pos hmod]
    rfl
  rw [State.writeMsr, if_pos hok, writePlainMsr_bankOrNone (.inr (.inr (.inr (by omega)))), hbank]

/-- The x2APIC ID has 32 bits and is the processor's own (R458). -/
theorem readMsr_apicId (h : s.cfg.x2apicReadable.contains 0x802 = true) :
    s.readMsr 0x802 = .ok (s.cfg.apicId.setWidth 64, s.setDraws (s.draws + 1)) := by
  have hfree : s.freeMsr 0x802 = true := by rw [State.freeMsr, h, Bool.or_true]
  show (if s.freeMsr 0x802 then Except.ok (s.freeMsrValue 0x802, s.drawWord.2) else raiseGp0) = _
  rw [if_pos hfree]
  rfl

/-! ### RDMSR and WRMSR -/

/-- ECX is the index (R275). -/
theorem exec_rdmsr (h0 : s.ss.dpl = 0) (hi : i = (s.reg .rcx &&& 0xFFFFFFFF).toNat) (hr : s.readMsr i = .ok (v, t)) :
    exec .rdmsr s = .next (t.setEdxEax v).toNext := by
  subst hi
  exact finish_of_ok ((Res.bind_of_ok (requireCpl0_ok h0)).trans (Res.bind_of_ok hr))

theorem exec_rdmsr_raise (h0 : s.ss.dpl = 0) (hi : i = (s.reg .rcx &&& 0xFFFFFFFF).toNat) (hr : s.readMsr i = raise (excGp 0)) :
    exec .rdmsr s = s.takeException (excGp 0) := by
  subst hi
  exact finish_of_raise ((Res.bind_of_ok (requireCpl0_ok h0)).trans (Res.bind_of_raise hr))

section
variable (h0 : s.ss.dpl = 0) (hi : i = (s.reg .rcx &&& 0xFFFFFFFF).toNat) (hen : enablesCounters i = false)
include h0 hi hen

/-- A write that does not enable or disable counters. -/
theorem exec_wrmsr : exec .wrmsr s = finish s (s.writeMsr i s.edxEax >>= fun t => .ok t.toNext) := by
  subst hi
  refine congrArg (finish s) ((Res.bind_of_ok (requireCpl0_ok h0)).trans ?_)
  have hsame : (if enablesCounters s.msrIndex then s.settleCounters else s) = s := if_neg (Bool.eq_false_iff.1 hen)
  rw [hsame]
  rfl

theorem exec_wrmsr_raise (h : s.writeMsr i s.edxEax = raise (excGp 0)) : exec .wrmsr s = s.takeException (excGp 0) :=
  (exec_wrmsr h0 hi hen).trans (finish_of_raise (Res.bind_of_raise h))

end

/-- MSR `i` is one of its own register: WRMSR of `v` makes `t` of the state where its check answers true. -/
structure StoresMsr (s : State) (i : Nat) (v : Word) (t : State) : Prop where
  enables : enablesCounters i = false
  plain : s.writePlainMsr i v = some t
  nextRip : t.nextRip = s.nextRip

section
variable (h0 : s.ss.dpl = 0) (hi : i = (s.reg .rcx &&& 0xFFFFFFFF).toNat) (h : s.StoresMsr i s.edxEax t)
include h0 hi h

theorem StoresMsr.exec_ok (hok : s.msrWriteOk i s.edxEax = true) : exec .wrmsr s = .next { t with rip := s.nextRip } := by
  obtain ⟨hen, hplain, hnext⟩ := h
  rw [exec_wrmsr h0 hi hen, State.writeMsr, if_pos hok, hplain, ← hnext]
  rfl

theorem StoresMsr.exec_raise (hbad : ¬ s.msrWriteOk i s.edxEax = true) : exec .wrmsr s = s.takeException (excGp 0) :=
  exec_wrmsr_raise h0 hi h.enables (if_neg hbad)

/-- WRMSR of a register whose check is the condition `c`. -/
theorem StoresMsr.exec_iff {c : Prop} (hc : s.msrWriteOk i s.edxEax = true ↔ c) :
    (c → exec .wrmsr s = .next { t with rip := s.nextRip }) ∧ (¬ c → exec .wrmsr s = s.takeException (excGp 0)) :=
  ⟨fun h' => h.exec_ok h0 hi (hc.2 h'), fun h' => h.exec_raise h0 hi (mt hc.1 h')⟩

end

end State

/-- The fixed-range MTRRs lie at 0x250 to 0x26F. -/
theorem fixedMtrr_range {i : Nat} (h : i ∈ [0x250, 0x258, 0x259, 0x268, 0x269, 0x26A, 0x26B, 0x26C, 0x26D, 0x26E, 0x26F]) :
    0x250 ≤ i ∧ i < 0x270 :=
  (by decide : ∀ a ∈ [0x250, 0x258, 0x259, 0x268, 0x269, 0x26A, 0x26B, 0x26C, 0x26D, 0x26E, 0x26F], 0x250 ≤ a ∧ a < 0x270) i h

/-- Settles O48: RDMSR is `readMsr` of the register, bank or x2APIC register that ECX names; WRMSR of a register of its own is its check
(`msrWriteOk_efer` and its kin) and its assignment (`StoresMsr`). -/
theorem readWriteMsr : Obligations.ReadWriteMsr := by
  refine ⟨fun s i v hi => ⟨fun h0 hmem => ?_, fun h0 hmem hx hlen => ?_, fun h0 k hk => ?_, fun h0 h802 hx => ?_, fun h3 => ?_⟩, ?_⟩
  · have plain : s.readPlainMsr i = some v := by
      refine (?_ : ∀ a ∈ _, s.readPlainMsr a.1 = some a.2) (i, v) hmem
      simp only [List.forall_mem_cons, List.not_mem_nil, false_imp_iff, implies_true, and_true]
      exact ⟨rfl, rfl, rfl, rfl, rfl, rfl, rfl, rfl, rfl, rfl, rfl, rfl, rfl, rfl, rfl, rfl, rfl, rfl, rfl⟩
    exact State.exec_rdmsr h0 hi (State.readMsr_of_plain plain)
  · have hrange := fixedMtrr_range hmem
    have hen := State.enablesCounters_bankOrNone (.inr (.inl hrange))
    exact ⟨State.exec_rdmsr_raise h0 hi (State.readMsr_fixedMtrr hrange hx hlen),
      fun hx => State.exec_wrmsr_raise h0 hi hen (State.writeMsr_fixedMtrr hrange hx)⟩
  · obtain ⟨rfl, hlt, hv, hoff⟩ | ⟨rfl, hlt, hv, hoff⟩ | ⟨rfl, hlt, hv⟩ := hk
    · exact State.exec_rdmsr h0 hi (State.readMsr_pmc hlt hv hoff)
    · exact State.exec_rdmsr h0 hi (State.readMsr_fixedCtr hlt hv hoff)
    · exact State.exec_rdmsr h0 hi (State.readMsr_mcCtl hlt hv)
  · subst h802
    have hhigh : (s.cfg.apicId.setWidth 64 : Word) >>> 32 = 0 := by
      rw [← low32_setWidth64]
      exact low32_shiftRight32 _
    rw [State.exec_rdmsr h0 hi (State.readMsr_apicId hx), State.setEdxEax, low32_setWidth64, hhigh]
    rfl
  · have h0 : s.ss.dpl ≠ 0 := by rw [h3]; decide
    exact ⟨finish_requireCpl0_raise h0, finish_requireCpl0_raise h0⟩
  · intro s i v h0 hi hv
    obtain rfl : s.edxEax = v := hv.symm
    refine ⟨?_, ?_, ?_, ?_, ?_, ?_, fun h hbad => ?_, ?_, fun t hmem => ?_, fun t hmem => ?_, ?_, ?_⟩
    · rintro rfl
      exact State.StoresMsr.exec_iff (t := s) h0 hi ⟨rfl, rfl, rfl⟩ (s.msrWriteOk_efer _)
    · rintro rfl ok
      have hbsp := setBit_bit s.edxEax s.plat.apicBase 8
      have store : s.StoresMsr 0x1B s.edxEax _ := ⟨rfl, rfl, rfl⟩
      rw [hbsp] at store
      exact store.exec_iff h0 hi (s.msrWriteOk_apicBase _)
    · rintro rfl
      obtain ⟨ok, raises⟩ := State.StoresMsr.exec_iff (t := s.setPlat { s.plat with sipiPtr := s.edxEax }) h0 hi ⟨rfl, rfl, rfl⟩
        (s.msrWriteOk_sipiPtr _)
      refine ⟨fun hbios hpa hres => ok ⟨hbios, hpa, hres⟩, fun hbad => raises ?_⟩
      simpa only [not_and_or, Bool.not_eq_false, not_lt] using hbad
    · rintro rfl ok
      exact State.StoresMsr.exec_iff (t := s.setPlat { s.plat with mtrrDefType := s.edxEax }) h0 hi ⟨rfl, rfl, rfl⟩
        (s.msrWriteOk_mtrrDefType _)
    · rintro rfl hc hres
      exact State.StoresMsr.exec_ok (t := s.setCet { s.cet with pl1Ssp := s.edxEax }) h0 hi ⟨rfl, rfl, rfl⟩
        ((s.msrWriteOk_ssp _ (.inl rfl)).2 ⟨hc, hres⟩)
    · rintro rfl hc hres
      exact State.StoresMsr.exec_ok (t := s.setCet { s.cet with pl2Ssp := s.edxEax }) h0 hi ⟨rfl, rfl, rfl⟩
        ((s.msrWriteOk_ssp _ (.inr rfl)).2 ⟨hc, hres⟩)
    · have hno : ¬ s.msrWriteOk i s.edxEax = true := by
        simpa only [s.msrWriteOk_ssp _ h, not_and_or, Bool.not_eq_true] using hbad
      have hen : enablesCounters i = false := by obtain rfl | rfl := h <;> rfl
      exact State.exec_wrmsr_raise h0 hi hen (if_neg hno)
    · rintro k rfl hk hlen
      have hen := State.enablesCounters_bankOrNone (i := 0x400 + 4 * k) (.inr (.inr (.inr (by omega))))
      rw [State.exec_wrmsr h0 hi hen, State.writeMsr_mcCtl hk hlen]
      rfl
    · obtain ⟨hstore, hok⟩ : s.StoresMsr i s.edxEax t ∧ s.msrWriteOk i s.edxEax = true := by
        refine (?_ : ∀ a ∈ _, s.StoresMsr a.1 s.edxEax a.2 ∧ s.msrWriteOk a.1 s.edxEax = true) (i, t) hmem
        simp only [List.forall_mem_cons, List.not_mem_nil, false_imp_iff, implies_true, and_true]
        exact ⟨⟨⟨rfl, rfl, rfl⟩, rfl⟩, ⟨⟨rfl, rfl, rfl⟩, rfl⟩, ⟨⟨rfl, rfl, rfl⟩, rfl⟩⟩
      exact hstore.exec_ok h0 hi hok
    · obtain ⟨hstore, hok⟩ : s.StoresMsr i s.edxEax t ∧ s.msrWriteOk i s.edxEax = isCanonical (bit s.cr4 12) s.edxEax := by
        refine (?_ : ∀ a ∈ _, s.StoresMsr a.1 s.edxEax a.2 ∧ s.msrWriteOk a.1 s.edxEax = isCanonical (bit s.cr4 12) s.edxEax) (i, t) hmem
        simp only [List.forall_mem_cons, List.not_mem_nil, false_imp_iff, implies_true, and_true]
        exact ⟨⟨⟨rfl, rfl, rfl⟩, rfl⟩, ⟨⟨rfl, rfl, rfl⟩, rfl⟩, ⟨⟨rfl, rfl, rfl⟩, rfl⟩, ⟨⟨rfl, rfl, rfl⟩, rfl⟩, ⟨⟨rfl, rfl, rfl⟩, rfl⟩,
          ⟨⟨rfl, rfl, rfl⟩, rfl⟩, ⟨⟨rfl, rfl, rfl⟩, rfl⟩⟩
      rw [← hok, ← Bool.not_eq_true]
      exact ⟨hstore.exec_ok h0 hi, hstore.exec_raise h0 hi⟩
    · rintro rfl
      exact State.StoresMsr.exec_iff (t := s.setSys { s.sys with fmask := s.edxEax }) h0 hi ⟨rfl, rfl, rfl⟩ (s.msrWriteOk_fmask _)
    · rintro rfl ok
      exact State.StoresMsr.exec_iff (t := s.setPlat { s.plat with fredConfig := s.edxEax }) h0 hi ⟨rfl, rfl, rfl⟩
        (s.msrWriteOk_fredConfig _)

/-! ## CPUID (R281, R63) -/

/-- Bits 2 and 4 of ECX are bits 66 and 68 of the four answers. -/
theorem cpuidValue_leaf7_sub1 (draw : Nat) :
    (cpuidValue draw 7 1).getLsbD 66 = true ∧ (cpuidValue draw 7 1).getLsbD 68 = true := by
  rw [cpuidValue, if_pos ⟨rfl, rfl⟩, BitVec.getLsbD_or, BitVec.getLsbD_or]
  exact ⟨Bool.or_true _, Bool.or_true _⟩

theorem setWidth32_of_low32 {v : Word} {x : DWord} (h : v &&& 0xFFFFFFFF = x.setWidth 64) : v.setWidth 32 = x := by
  rw [← low32_setWidth, low32, h, BitVec.setWidth_setWidth_of_le x (by decide), BitVec.setWidth_eq]

theorem State.exec_cpuid {s : State} (h : s.nonRoot = false) :
    let v := cpuidValue s.draws ((s.reg .rax).setWidth 32) ((s.reg .rcx).setWidth 32)
    exec .cpuid s = .next { s with
      rip := s.nextRip, draws := s.draws + 1
      gpr := (((s.gpr.set .rax ((v.extractLsb' 0 32).setWidth 64)).set .rbx ((v.extractLsb' 32 32).setWidth 64)).set .rcx
        ((v.extractLsb' 64 32).setWidth 64)).set .rdx ((v.extractLsb' 96 32).setWidth 64) } :=
  congrArg (finish s) (if_neg (Bool.eq_false_iff.1 h))

/-- Settles O49: the four answers are the parts of `cpuidValue`, of which leaf 7 sub-leaf 1 has two bits set. -/
theorem cpuid : Obligations.Cpuid := by
  intro s hroot
  refine ⟨_, _, _, _, State.exec_cpuid hroot, fun hleaf hsub => ?_⟩
  rw [setWidth32_of_low32 (x := 7) hleaf, setWidth32_of_low32 (x := 1) hsub]
  simpa only [BitVec.getLsbD_extractLsb', Nat.reduceLT, decide_true, Bool.true_and, Nat.reduceAdd] using cpuidValue_leaf7_sub1 s.draws

/-! ## Flags (R290 to R297) -/

theorem withIf_eq (s : State) (mask : Word) : withIf s.cpl0 mask = if s.ss.dpl = 0 then mask ||| 0x200 else mask :=
  if_congr beq_iff_eq rfl rfl

namespace State
variable {s : State} {p : Pfx}

theorem rejectCpl3_ok (h : s.ss.dpl ≠ 3) : s.rejectCpl3 = .ok () := raiseIf_pass (beq_eq_false_iff_ne.2 h)

theorem rejectCpl3_raise (h : s.ss.dpl = 3) : s.rejectCpl3 = raise (excGp 0) := raiseIf_raise (beq_iff_eq.2 h)

theorem exec_popf {image : Word} (h : s.popAt (s.stackSize p) 0 = .ok image) :
    exec (.popf p) s = .next { s with
      rip := s.nextRip, gpr := s.gpr.set .rsp (s.spUp (stackBytes s p)), rflags := popfFlags s.cpl0 s.rflags image } := by
  refine finish_of_ok ((Res.bind_of_ok h).trans ?_)
  rw [popped_one_eq, stackSize_bytes]
  rfl

theorem exec_popf16 {image : Word} (h : s.popAt .w16 0 = .ok image) :
    exec (.popf16 p) s = .next { s with
      rip := s.nextRip, gpr := s.gpr.set .rsp (s.spUp 2), rflags := popf16Flags s.cpl0 s.rflags image } :=
  finish_of_ok (Res.bind_of_ok h)

/-- One push is the whole of a meaning. -/
theorem storesTo_of_push {i : Instr} {pas : List Nat} {v : Word} (hw : s.memWf = true)
    (hpas : s.pushPas s.dataAccess s.cs.l s.sp (stackBytes s p) 1 = .ok pas)
    (hexec : exec i s = finish s (s.push (s.stackSize p) v >>= fun t => .ok t.toNext)) :
    storesTo i s { s with rip := s.nextRip, gpr := s.gpr.set .rsp (stackDown s.cs.l s.sp (stackBytes s p)) } pas
      (leBytes (stackBytes s p) v) := by
  rw [pushPas_one, ← stackSize_bytes] at hpas
  rw [← stackSize_bytes]
  have hle : (s.stackSize p).bytes ≤ 4096 := by cases s.stackSize p <;> decide
  exact storesTo_of_storeAt (fun t => (t.setReg .rsp (stackDown s.cs.l s.sp (s.stackSize p).bytes)).toNext) hw hpas hle
    (leBytes_length _ _) (hexec.trans (finish_of_ok (Res.bind_of_ok (push_eq v hpas)))) (fun _ _ _ _ => rfl) fun _ => rfl

end State

/-- Settles O50: POPF is one pop and a merge under the mask that `withIf_eq` gives, PUSHF one push, CLI and STI one flag after a check
of CPL. -/
theorem flagInstructions : Obligations.FlagInstructions := by
  refine ⟨fun p s image => ⟨fun h => ?_, fun h => ?_⟩, ?_, fun s => ⟨fun h3 => ?_, fun h3 => ?_⟩⟩
  · rw [State.exec_popf h, popfFlags, withIf_eq]
    rfl
  · rw [State.exec_popf16 h, popf16Flags, withIf_eq]
    rfl
  · rintro p s pas _ hw rfl hpas
    exact State.storesTo_of_push hw hpas rfl
  · have ok := State.rejectCpl3_ok h3
    exact ⟨finish_of_ok (Res.bind_of_ok ok), finish_of_ok (Res.bind_of_ok ok)⟩
  · have gp := State.rejectCpl3_raise h3
    exact ⟨finish_of_raise (Res.bind_of_raise gp), finish_of_raise (Res.bind_of_raise gp)⟩

/-! ## Ports (R298 to R304) -/

theorem ioSize_bytes (p : Pfx) : (ioSize p).bytes = if p.osz && !p.w then 2 else 4 := by
  unfold ioSize
  split <;> rfl

/-- AX or EAX as OUT sends it. -/
theorem ioSize_trunc_setWidth (p : Pfx) (v : Word) :
    ((ioSize p).trunc v).setWidth 32 = if p.osz && !p.w then v.setWidth 32 &&& 0xFFFF else v.setWidth 32 := by
  unfold ioSize
  split
  · exact BitVec.setWidth_and
  · exact low32_setWidth v

namespace State
variable {s : State} {p : Pfx} {port : Half} {width : Nat} {isIn imm : Bool}

/-- No VM exit comes outside ring 3 where none of the port's bits is set (R298, R374). -/
theorem checkIo_ok (h3 : s.ss.dpl ≠ 3) (hfree : portFree s port width) : s.checkIo width isIn imm port = .ok () := by
  refine (Res.bind_of_ok (rejectCpl3_ok h3)).trans ?_
  split
  · next v hv => rw [hfree v hv]; rfl
  · rfl

theorem checkIo_raise (h3 : s.ss.dpl = 3) : s.checkIo width isIn imm port = raise (excGp 0) :=
  Res.bind_of_raise (rejectCpl3_raise h3)

theorem inAl_eq (h3 : s.ss.dpl ≠ 3) (hfree : portFree s port 1) :
    s.inAl imm port = .ok { s with
      rip := s.nextRip, draws := s.draws + 1
      gpr := s.gpr.set .rax ((s.reg .rax &&& ~~~(0xFF : Word)) ||| ((Config.freePort s.draws port 1).setWidth 64 &&& 0xFF)) } :=
  Res.bind_of_ok (checkIo_ok h3 hfree)

theorem inEax_eq (h3 : s.ss.dpl ≠ 3) (hfree : portFree s port (ioSize p).bytes) :
    s.inEax p imm port = .ok { s with
      rip := s.nextRip, draws := s.draws + 1
      gpr := s.gpr.set .rax (regWritten (s.reg .rax) (ioSize p).bytes
        ((Config.freePort s.draws port (ioSize p).bytes).setWidth 64)) } := by
  refine (Res.bind_of_ok (checkIo_ok h3 hfree)).trans ?_
  rw [setRegSz_eq_regWritten]
  rfl

theorem outAl_eq (h3 : s.ss.dpl ≠ 3) (hfree : portFree s port 1) :
    s.outAl imm port = .ok { s with
      rip := s.nextRip, portWrites := ⟨port, 1, (s.reg .rax).setWidth 32 &&& 0xFF⟩ :: s.portWrites } := by
  have hal : (s.reg .rax &&& 0xFF).setWidth 32 = (s.reg .rax).setWidth 32 &&& 0xFF := BitVec.setWidth_and
  rw [← hal]
  exact Res.bind_of_ok (checkIo_ok h3 hfree)

theorem outEax_eq (h3 : s.ss.dpl ≠ 3) (hfree : portFree s port (ioSize p).bytes) :
    s.outEax p imm port = .ok { s with
      rip := s.nextRip
      portWrites := ⟨port, (ioSize p).bytes,
        if p.osz && !p.w then (s.reg .rax).setWidth 32 &&& 0xFFFF else (s.reg .rax).setWidth 32⟩ :: s.portWrites } := by
  rw [← ioSize_trunc_setWidth]
  exact Res.bind_of_ok (checkIo_ok h3 hfree)

end State

/-- Settles O51: each form is `checkIo`, then one read or one report of its port. -/
theorem ports : Obligations.Ports := by
  refine ⟨?_, ?_, fun p imm s h3 => ?_⟩
  · rintro p imm s n _ _ h3 hn rfl rfl
    obtain rfl : n = (ioSize p).bytes := hn.trans (ioSize_bytes p).symm
    exact ⟨fun h => finish_of_ok (State.inAl_eq h3 h), fun h => finish_of_ok (State.inEax_eq h3 h),
      fun h => finish_of_ok (State.inAl_eq h3 h), fun h => finish_of_ok (State.inEax_eq h3 h)⟩
  · rintro p imm s n _ h3 hn rfl
    obtain rfl : n = (ioSize p).bytes := hn.trans (ioSize_bytes p).symm
    exact ⟨fun h => finish_of_ok (State.outAl_eq h3 h), fun h => finish_of_ok (State.outEax_eq h3 h),
      fun h => finish_of_ok (State.outAl_eq h3 h), fun h => finish_of_ok (State.outEax_eq h3 h)⟩
  · have gp : ∀ {width : Nat} {isIn imm : Bool} {port : Half} {next : Unit → Res State},
        finish s (s.checkIo width isIn imm port >>= next) = s.takeException (excGp 0) :=
      finish_of_raise (Res.bind_of_raise (State.checkIo_raise h3))
    simp only [List.forall_mem_cons, List.not_mem_nil, false_imp_iff, implies_true, and_true]
    exact ⟨gp, gp, gp, gp, gp, gp, gp, gp⟩

end Sys2Proof.Machine

/-! # Far transfers, IRET and software interrupts (O19, O20, O22, O23, O27), system calls, FRED returns and RSM (O35, O36, O37)

Far JMP, CALL and RET share `State.farTarget`: the checks of CS, then of RIP. IRET makes the same checks of CS (`State.fetchCode`), for a
ring that the frame names, and those of R208 on SS. A software interrupt is one delivery. SYSCALL, SYSRET and their kin, ERETU and ERETS
are a row of checks that come before a few assignments, RSM assignments alone. -/

namespace Sys2Proof.Machine

/-! ## The instruction pointer and the code segment of a far transfer (R24, R202 to R205) -/

/-- 32 bits are canonical with four levels of page tables and with five. -/
theorem isCanonical_low32 (la57 : Bool) (v : Word) : isCanonical la57 (low32 v) = true := by
  have hlt : (low32 v).toNat < 2 ^ 32 := (ushiftRight_eq_zero_iff _ _).1 (low32_shiftRight32 v)
  have h47 : low32 v >>> 47 = 0 := (ushiftRight_eq_zero_iff _ _).2 (by omega)
  have h56 : low32 v >>> 56 = 0 := (ushiftRight_eq_zero_iff _ _).2 (by omega)
  rw [isCanonical, h47, h56]
  cases la57 <;> rfl

/-- The tests of R204 and R205 on a descriptor are one, in another order. -/
theorem csDescOk_eq (sel : Half) (d : Word) (newCpl : BitVec 2) : csDescOk sel d newCpl = codeDescriptorOk sel d newCpl := by
  rw [Bool.eq_iff_iff]
  simp only [csDescOk, csDescCommon, codeDescriptorOk, descS, descCode, descL, descDB, descDpl, descP, bit, selRpl,
    ← BitVec.setWidth_eq_extractLsb' (show 2 ≤ 16 by decide), Bool.and_eq_true, Bool.or_eq_true, Bool.not_eq_true',
    Bool.and_eq_false_iff, Bool.not_eq_false', bne_iff_ne, beq_iff_eq, beq_eq_false_iff_ne]
  constructor
  · rintro ⟨⟨⟨⟨⟨⟨⟨hs, hc⟩, hld⟩, hring⟩, hrpl⟩, hl⟩, hp⟩, rfl⟩
    exact ⟨⟨⟨⟨⟨⟨⟨hs, hc⟩, hld⟩, rfl⟩, hrpl⟩, hring⟩, hl.imp_right hring.resolve_left⟩, hp⟩
  · rintro ⟨⟨⟨⟨⟨⟨⟨hs, hc⟩, hld⟩, rfl⟩, hrpl⟩, hring⟩, hl⟩, hp⟩
    exact ⟨⟨⟨⟨⟨⟨⟨hs, hc⟩, hld⟩, hring⟩, hrpl⟩, hl.imp_right fun h3 h0 => absurd (h3.symm.trans h0) (by decide)⟩, hp⟩, rfl⟩

/-- The all-zero descriptor is no code segment (R203). -/
theorem codeDescriptorOk_zero (sel : Half) (newCpl : BitVec 2) : codeDescriptorOk sel 0 newCpl = false := by
  simp [codeDescriptorOk]

namespace State
variable {s : State} {p : Pfx} {sel : Half} {d off t : Word} {l : Bool} {code : DWord} {newCpl : BitVec 2}

theorem returnRip_of_legal (h : legalFarTarget s l off = some t) : s.returnRip l off = .ok t := by
  cases l
  · cases h
    exact if_pos (isCanonical_low32 _ _)
  · unfold legalFarTarget at h
    rw [if_pos rfl] at h
    split at h
    · next hc => cases h; exact if_pos hc
    · cases h

theorem returnRip_of_illegal (h : legalFarTarget s l off = none) : s.returnRip l off = raise (excGp 0) := by
  cases l
  · cases h
  · unfold legalFarTarget at h
    rw [if_pos rfl] at h
    split at h
    · cases h
    · next hc => exact if_neg hc

/-- The descriptor of the code segment `sel` after the checks of R202 to R205 for a transfer to ring `newCpl`. -/
def fetchCode (s : State) (sel : Half) (newCpl : BitVec 2) : Res Word := do
  s.checkSelectorCs sel
  let d ← s.loadDescriptor sel
  if csDescOk sel d newCpl then return d else raiseGpSel sel

theorem fetchCs_eq (s : State) (sel : Half) : s.fetchCs sel = s.fetchCode sel s.ss.dpl := rfl

theorem checkSelectorCs_of_ge (h : 4 ≤ sel.toNat) :
    s.checkSelectorCs sel = if inTable s sel then .ok () else raise (excGp (selCode sel)) := by
  rw [State.checkSelectorCs, isNull_of_ge h, selectorInTable_eq]; rfl

/-- `fetchCode` of a selector that names a descriptor of its table. -/
theorem fetchCode_inside (h8 : 8 ≤ sel.toNat) (ht : inTable s sel = true) (hd : descriptorAt s sel = .ok d) :
    s.fetchCode sel newCpl = if codeDescriptorOk sel d newCpl then .ok d else raise (excGp (selCode sel)) := by
  have hcheck : s.checkSelectorCs sel = .ok () := (checkSelectorCs_of_ge (by omega)).trans (if_pos ht)
  rw [fetchCode, Res.bind_of_ok hcheck, Res.bind_of_ok ((loadDescriptor_of_ge h8).trans hd), csDescOk_eq]
  rfl

/-- `fetchCode` of a selector that names no descriptor of its table. -/
theorem fetchCode_outside (h4 : 4 ≤ sel.toNat) (h : sel.toNat < 8 ∨ inTable s sel = false) :
    s.fetchCode sel newCpl = raise (excGp (selCode sel)) := by
  by_cases ht : inTable s sel = true
  · have h8 : sel.toNat < 8 := h.resolve_right (by rw [ht]; decide)
    rw [fetchCode, Res.bind_of_ok ((checkSelectorCs_of_ge h4).trans (if_pos ht)), Res.bind_of_ok (loadDescriptor_of_lt h8),
      csDescOk_eq, codeDescriptorOk_zero]
    rfl
  · exact Res.bind_of_raise ((checkSelectorCs_of_ge h4).trans (if_neg ht))

theorem fetchCode_of_refused (h : codeRefused s sel d newCpl code) : s.fetchCode sel newCpl = raise (excGp code) := by
  obtain ⟨h4, rfl⟩ | ⟨h4, hout, rfl⟩ | ⟨h8, ht, hd, hnot, rfl⟩ := h
  · exact Res.bind_of_raise (if_pos (isNull_of_lt h4))
  · exact fetchCode_outside h4 hout
  · exact (fetchCode_inside h8 ht hd).trans (if_neg (Bool.eq_false_iff.1 hnot))

/-! ## Far JMP, CALL and RET (R321 to R328) -/

/-- The descriptor and the instruction pointer that far JMP, CALL and RET load: what the three share. -/
def farTarget (s : State) (sel : Half) (off : Word) : Res (Word × Word) := do
  let d ← s.fetchCs sel
  let rip ← s.returnRip (descL d) off
  return (d, rip)

theorem farJmp_eq (s : State) (sel : Half) (off : Word) :
    s.farJmp sel off = s.farTarget sel off >>= fun x => .ok (s.loadTarget sel x.1 x.2) := by
  simp only [State.farJmp, farTarget, bind_assoc, pure_bind]; rfl

theorem farCall_eq (s : State) (sz : OpSize) (sel : Half) (off : Word) :
    s.farCall sz sel off = s.farTarget sel off >>= fun x =>
      s.pushAll sz [zsel s.cs.sel, s.nextRip] >>= fun t => .ok (t.loadTarget sel x.1 x.2) := by
  simp only [State.farCall, farTarget, bind_assoc, pure_bind]; rfl

theorem farTarget_of_refused (h : codeRefused s sel d s.ss.dpl code) : s.farTarget sel off = raise (excGp code) :=
  Res.bind_of_raise ((fetchCs_eq s sel).trans (fetchCode_of_refused h))

theorem fetchCs_of_codeSegment (h : codeSegment s sel d) : s.fetchCs sel = .ok d := by
  obtain ⟨h8, ht, hd, hok⟩ := h
  exact (fetchCs_eq s sel).trans ((fetchCode_inside h8 ht hd).trans (if_pos hok))

theorem farTarget_of_legal (h : codeSegment s sel d) (ht : legalFarTarget s (d.getLsbD 53) off = some t) :
    s.farTarget sel off = .ok (d, t) :=
  (Res.bind_of_ok (fetchCs_of_codeSegment h)).trans (Res.bind_of_ok (returnRip_of_legal ht))

theorem farTarget_of_illegal (h : codeSegment s sel d) (ht : legalFarTarget s (d.getLsbD 53) off = none) :
    s.farTarget sel off = raise (excGp 0) :=
  (Res.bind_of_ok (fetchCs_of_codeSegment h)).trans (Res.bind_of_raise (returnRip_of_illegal ht))

section
variable (hsize : s.cs.l = true ∧ p.w = true ∨ p.osz = false)
include hsize

theorem rejectFar16_pass : s.rejectFar16 p = .ok () := by
  refine raiseIf_pass ?_
  rw [State.opSize, State.mode64]
  rcases hsize with ⟨hl, hw⟩ | ho
  · rw [hl, hw]; rfl
  · rw [ho]; cases s.cs.l && p.w <;> rfl

theorem exec_jmpPtr (hl : s.cs.l = false) (off : BitVec 32) (sel : Half) :
    exec (.jmpPtr p off sel) s = finish s (raiseIf p.asz (excGp 0) >>= fun _ => s.farJmp sel (off.setWidth 64)) := by
  have h16 : s.addrSize16 p = p.asz := by rw [State.addrSize16, State.compat, hl]; rfl
  rw [← h16]
  exact (finish_compatOnly hl _).trans (congrArg (finish s) (Res.bind_of_ok (rejectFar16_pass hsize)))

theorem exec_callPtr (hl : s.cs.l = false) (off : BitVec 32) (sel : Half) :
    exec (.callPtr p off sel) s = finish s (s.farCall .w32 sel (off.setWidth 64)) :=
  (finish_compatOnly hl _).trans (congrArg (finish s) (Res.bind_of_ok (rejectFar16_pass hsize)))

theorem exec_jmpFarM {m : Mem} (hptr : s.readFarPtr p m (s.opSize p) = .ok (off, sel)) :
    exec (.jmpFarM p m) s = finish s (s.farJmp sel off) :=
  congrArg (finish s) ((Res.bind_of_ok (rejectFar16_pass hsize)).trans (Res.bind_of_ok hptr))

theorem exec_callFarM {m : Mem} (hptr : s.readFarPtr p m (s.opSize p) = .ok (off, sel)) :
    exec (.callFarM p m) s = finish s (s.farCall (s.opSize p) sel off) :=
  congrArg (finish s) ((Res.bind_of_ok (rejectFar16_pass hsize)).trans (Res.bind_of_ok hptr))

/-- Both forms of far RET, by what they release. -/
theorem farRet_eq {item0 item1 : Word} (h0 : s.popAt (s.opSize p) 0 = .ok item0) (h1 : s.popAt (s.opSize p) 1 = .ok item1) (n : Nat) :
    s.farRet p n = s.farTarget (item1.setWidth 16) item0 >>= fun x =>
      .ok ((s.popped (s.opSize p) 2 n).loadTarget (item1.setWidth 16) x.1 x.2) := by
  rw [State.farRet, Res.bind_of_ok (rejectFar16_pass hsize), Res.bind_of_ok h0, Res.bind_of_ok h1]
  simp only [farTarget, bind_assoc, pure_bind]; rfl

end

theorem farJmp_of_legal (h : codeSegment s sel d) (ht : legalFarTarget s (d.getLsbD 53) off = some t) :
    s.farJmp sel off = .ok { s with cs := ⟨sel, d.getLsbD 53⟩, rip := t } := by
  rw [farJmp_eq, Res.bind_of_ok (farTarget_of_legal h ht)]; rfl

theorem farJmp_of_raise {e : Exc} (h : s.farTarget sel off = raise e) : s.farJmp sel off = raise e := by
  rw [farJmp_eq, Res.bind_of_raise h]

theorem farCall_of_raise {sz : OpSize} {e : Exc} (h : s.farTarget sel off = raise e) : s.farCall sz sel off = raise e := by
  rw [farCall_eq, Res.bind_of_raise h]

/-- A meaning that is a far CALL to a legal target: CS and the return address are pushed before CS and RIP are loaded. -/
theorem storesTo_of_farCall {i : Instr} {sz : OpSize} {pas : List Nat} (hw : s.memWf = true)
    (hpas : s.pushPas s.dataAccess s.cs.l s.sp sz.bytes 2 = .ok pas) (h : codeSegment s sel d)
    (ht : legalFarTarget s (d.getLsbD 53) off = some t) (hexec : exec i s = finish s (s.farCall sz sel off)) :
    storesTo i s
      { s with cs := ⟨sel, d.getLsbD 53⟩, rip := t, gpr := s.gpr.set .rsp (stackDown s.cs.l s.sp (sz.bytes * 2)) } pas
      (leBytes sz.bytes (s.cs.sel.setWidth 64) ++ leBytes sz.bytes s.nextRip) := by
  have hbytes : pushBytes sz.bytes [zsel s.cs.sel, s.nextRip] =
      leBytes sz.bytes (s.cs.sel.setWidth 64) ++ leBytes sz.bytes s.nextRip := by simp only [pushBytes, List.append_nil]; rfl
  have hpush : s.pushAll sz [zsel s.cs.sel, s.nextRip] = .ok _ := Res.bind_of_ok hpas
  have hfew : sz.bytes * 2 ≤ 4096 := by cases sz <;> decide
  have hsizes : sz.bytes = 2 ∨ sz.bytes = 4 ∨ sz.bytes = 8 := by cases sz <;> decide
  rw [farCall_eq, Res.bind_of_ok (farTarget_of_legal h ht), Res.bind_of_ok hpush, hbytes] at hexec
  obtain ⟨hlen, -⟩ := State.pushPas_spec _ _ _ _ (by omega) _ _ _ hpas
  generalize hbs : leBytes sz.bytes (s.cs.sel.setWidth 64) ++ leBytes sz.bytes s.nextRip = bs at hbytes hexec ⊢
  have hlen' : pas.length = bs.length := by rw [hlen, ← hbytes, pushBytes_length]; rfl
  refine storesTo_of_exec hw (State.pushPas_nodup _ _ _ _ _ _ _ hsizes hfew hpas) hlen' hexec ?_ rfl
  have hstore := State.storeAt_eq s pas bs
  generalize s.storeAt pas bs = w at hstore ⊢
  rw [hstore]
  rfl

end State

/-- Settles O19: the forms in memory and the direct forms are `farJmp` or `farCall` of the pointer they read. -/
theorem farJumpsAndCalls : Obligations.FarJumpsAndCalls := by
  refine ⟨fun p off32 m sel off d s hseg hsize => ⟨fun hl ha t ht => ?_, fun hptr => ⟨fun t ht => ?_, fun ht => ?_⟩⟩,
    fun p off32 m sel off d t s pas hw hseg hsize => ⟨fun hl hpas ht => ?_, fun hptr hpas ht => ?_⟩⟩
  · rw [State.exec_jmpPtr hsize hl, ha]
    exact finish_of_ok (State.farJmp_of_legal hseg ht)
  · rw [State.exec_jmpFarM hsize hptr, State.farJmp_of_legal hseg ht, finish_ok]
  · rw [State.exec_jmpFarM hsize hptr, State.farJmp_of_raise (State.farTarget_of_illegal hseg ht)]
    rfl
  · rw [← hl] at hpas ⊢
    exact State.storesTo_of_farCall (sz := .w32) hw hpas hseg ht (State.exec_callPtr hsize hl off32 sel)
  · rw [← State.opSize_bytes] at hpas ⊢
    exact State.storesTo_of_farCall hw hpas hseg ht (State.exec_callFarM hsize hptr)

/-- Settles O20: both forms are `farRet`, which releases its two slots and what the form names. -/
theorem farReturns : Obligations.FarReturns := by
  intro p imm item0 item1 d t s hsize h0 h1 hseg ht
  have returns : ∀ n, finish s (s.farRet p n) = .next { s with
      cs := ⟨item1.setWidth 16, d.getLsbD 53⟩, rip := t, gpr := s.gpr.set .rsp (s.spUp (dataBytes s p * 2 + n)) } := fun n => by
    rw [State.farRet_eq hsize h0 h1, Res.bind_of_ok (State.farTarget_of_legal hseg ht), ← State.opSize_bytes]
    rfl
  exact ⟨returns 0, returns imm.toNat⟩

/-- Settles O22: `farTarget` raises before anything is pushed or popped. -/
theorem farTransferFaults : Obligations.FarTransferFaults := by
  intro p off32 m sel imm off item0 item1 d code s hsize
  have jmp : ∀ {o e}, s.farTarget sel o = raise e → finish s (s.farJmp sel o) = s.takeException e := fun h =>
    finish_of_raise (State.farJmp_of_raise h)
  have call : ∀ {sz o e}, s.farTarget sel o = raise e → finish s (s.farCall sz sel o) = s.takeException e := fun h =>
    finish_of_raise (State.farCall_of_raise h)
  have ret : ∀ {e}, s.popAt (s.opSize p) 0 = .ok item0 → s.popAt (s.opSize p) 1 = .ok item1 → item1.setWidth 16 = sel →
      s.farTarget sel item0 = raise e → ∀ n, finish s (s.farRet p n) = s.takeException e := fun h0 h1 hsel h n => by
    subst hsel
    rw [State.farRet_eq hsize h0 h1, finish_of_raise (Res.bind_of_raise h)]
  refine ⟨fun href => ?_, fun hseg => ?_, fun hl ha => ?_⟩
  · have refused : ∀ o, s.farTarget sel o = raise (excGp code) := fun _ => State.farTarget_of_refused href
    refine ⟨fun hl ha => ?_, fun hl => ?_, fun hptr => ⟨?_, ?_⟩, fun h0 h1 hsel => ?_⟩
    · rw [State.exec_jmpPtr hsize hl, ha]
      exact jmp (refused _)
    · exact (State.exec_callPtr hsize hl off32 sel).trans (call (refused _))
    · exact (State.exec_jmpFarM hsize hptr).trans (jmp (refused _))
    · exact (State.exec_callFarM hsize hptr).trans (call (refused _))
    · exact ⟨ret h0 h1 hsel (refused _) 0, ret h0 h1 hsel (refused _) imm.toNat⟩
  · refine ⟨fun hptr ht => ?_, fun h0 h1 hsel ht => ?_⟩
    · exact (State.exec_callFarM hsize hptr).trans (call (State.farTarget_of_illegal hseg ht))
    · have illegal := State.farTarget_of_illegal hseg ht
      exact ⟨ret h0 h1 hsel illegal 0, ret h0 h1 hsel illegal imm.toNat⟩
  · rw [State.exec_jmpPtr hsize hl, ha]
    rfl

/-! ## IRET (R330 to R334) -/

/-- IRET takes IF from the image at CPL 0 only. -/
theorem iretFlags_eq (s : State) (old image : Word) :
    iretFlags s.cpl0 old image = (old &&& ~~~(if s.ss.dpl = 0 then (0x254FD5 : Word) else 0x254DD5)) |||
      (image &&& (if s.ss.dpl = 0 then (0x254FD5 : Word) else 0x254DD5)) := by
  rw [iretFlags, withIf_eq]
  rfl

theorem toNat_mod4_eq_iff {sel : Half} {n : BitVec 2} : sel.toNat % 4 = n.toNat ↔ selRpl sel = n := by
  rw [← BitVec.toNat_inj, selRpl_toNat]

/-- Ring 0 is 64-bit mode. -/
theorem codeDescriptorOk_long {sel : Half} {d : Word} (h : codeDescriptorOk sel d 0 = true) : d.getLsbD 53 = true := by
  simp only [codeDescriptorOk, Bool.and_eq_true, Bool.or_eq_true, beq_iff_eq] at h
  exact h.1.2.resolve_right (by decide)

namespace State
variable {s : State} {p : Pfx} {sz : OpSize} {i0 i1 i2 i3 i4 d ds t : Word} {cs ss : Half} {code : DWord}

/-- The image that IRET refuses (R27, R330). -/
theorem iretImageBad_iff (s : State) (cs : Half) (image : Word) :
    (s.cpl0 && selRpl cs != 3 && ioplVifVip image) = true ↔ s.ss.dpl = 0 ∧ cs.toNat % 4 ≠ 3 ∧ image &&& 0x183000 ≠ 0 := by
  have hrpl : cs.toNat % 4 = 3 ↔ selRpl cs = 3 := toNat_mod4_eq_iff (n := 3)
  simp only [Bool.and_eq_true, State.cpl0, ioplVifVip, beq_iff_eq, bne_iff_ne, ne_eq, hrpl, and_assoc]

section
variable (h0 : s.popAt sz 0 = .ok i0) (h1 : s.popAt sz 1 = .ok i1) (h2 : s.popAt sz 2 = .ok i2) (hcs : cs = i1.setWidth 16)
include h0 h1 h2 hcs

/-- R330 up to the dispatch, for a frame that can be read. -/
theorem iretHead_eq :
    s.iretHead sz = raiseIf (s.cpl0 && selRpl cs != 3 && ioplVifVip i2) (excGp 0) >>= fun _ =>
      s.fetchCode cs (selRpl cs) >>= fun d => .ok ⟨i0, cs, i2, d⟩ := by
  subst hcs
  rw [State.iretHead, Res.bind_of_ok h0, Res.bind_of_ok h1, Res.bind_of_ok h2]
  simp only [fetchCode, bind_assoc]
  refine congrArg _ (funext fun _ => congrArg _ (funext fun _ => congrArg _ (funext fun d => ?_)))
  rw [csDescOkIret, ← csDescOk]
  split <;> rfl

theorem iretHead_of_badImage (h : s.ss.dpl = 0 ∧ cs.toNat % 4 ≠ 3 ∧ i2 &&& 0x183000 ≠ 0) : s.iretHead sz = raise (excGp 0) := by
  rw [iretHead_eq h0 h1 h2 hcs, raiseIf_raise ((iretImageBad_iff s cs i2).2 h)]
  rfl

variable (hgood : ¬ (s.ss.dpl = 0 ∧ cs.toNat % 4 ≠ 3 ∧ i2 &&& 0x183000 ≠ 0))
include hgood

theorem iretHead_of_goodImage : s.iretHead sz = s.fetchCode cs (selRpl cs) >>= fun d => .ok ⟨i0, cs, i2, d⟩ := by
  rw [iretHead_eq h0 h1 h2 hcs, raiseIf_pass (Bool.eq_false_iff.2 (mt (iretImageBad_iff s cs i2).1 hgood))]
  rfl

theorem iretHead_of_refused (h : codeRefused s cs d (cs.setWidth 2) code) : s.iretHead sz = raise (excGp code) :=
  (iretHead_of_goodImage h0 h1 h2 hcs hgood).trans (Res.bind_of_raise (fetchCode_of_refused h))

theorem iretHead_of_segment (h8 : 8 ≤ cs.toNat) (ht : inTable s cs = true) (hd : descriptorAt s cs = .ok d)
    (hok : codeDescriptorOk cs d (cs.setWidth 2) = true) : s.iretHead sz = .ok ⟨i0, cs, i2, d⟩ :=
  (iretHead_of_goodImage h0 h1 h2 hcs hgood).trans (Res.bind_of_ok ((fetchCode_inside h8 ht hd).trans (if_pos hok)))

end

/-- The ring decides how a return whose head has been read goes on. -/
theorem returnFromEvent_eq {h : IretHead} (hhead : s.iretHead sz = .ok h) :
    s.returnFromEvent sz =
      if selRpl h.cs > s.ss.dpl then (if s.fred then raise (excGp (selCode h.cs)) else s.iretFull sz h)
      else if selRpl h.cs < s.ss.dpl then raise (excGp (selCode h.cs))
      else if s.cs.l then s.iretFull sz h else s.iretSame sz h :=
  Res.bind_of_ok hhead

theorem returnFromEvent_same {h : IretHead} (hhead : s.iretHead sz = .ok h) (hring : s.ss.dpl = selRpl h.cs) :
    s.returnFromEvent sz = if s.cs.l then s.iretFull sz h else s.iretSame sz h := by
  rw [returnFromEvent_eq hhead, hring, if_neg (BitVec.lt_irrefl _), if_neg (BitVec.lt_irrefl _)]

theorem returnFromEvent_outward {h : IretHead} (hhead : s.iretHead sz = .ok h) (h0 : s.ss.dpl = 0) (h3 : selRpl h.cs = 3) :
    s.returnFromEvent sz = if s.fred then raise (excGp (selCode h.cs)) else s.iretFull sz h := by
  rw [returnFromEvent_eq hhead, h0, h3, if_pos (by decide)]

theorem returnFromEvent_inward {h : IretHead} (hhead : s.iretHead sz = .ok h) (h3 : s.ss.dpl = 3) (h0 : selRpl h.cs = 0) :
    s.returnFromEvent sz = raise (excGp (selCode h.cs)) := by
  rw [returnFromEvent_eq hhead, h3, h0, if_neg (by decide), if_pos (by decide)]

/-! ### The stack segment that IRET loads (R208) -/

section
variable {newCpl : BitVec 2} {long : Bool}

theorem ssDescOkIret_null (h : ss.toNat < 4) : s.ssDescOkIret ss d newCpl long = !(newCpl == 3 || !long) := by
  rw [State.ssDescOkIret, isNull_of_lt h, if_pos rfl]

theorem ssDescOkIret_eq (h : 4 ≤ ss.toNat) :
    s.ssDescOkIret ss ds (selRpl cs) long = (inTable s ss && iretStackDescriptorOk cs ss ds) := by
  have hrpl : ss.toNat % 4 = cs.toNat % 4 ↔ ss.setWidth 2 = cs.setWidth 2 := by
    show _ ↔ selRpl ss = selRpl cs
    rw [← selRpl_toNat cs, toNat_mod4_eq_iff]
  rw [State.ssDescOkIret, isNull_of_ge h, if_neg (by decide), selectorInTable_eq, Bool.eq_iff_iff]
  simp only [iretStackDescriptorOk, descDpl, descS, descP, bit, Bool.and_eq_true, beq_iff_eq, decide_eq_true_eq, hrpl, selRpl]
  constructor
  · rintro ⟨⟨⟨⟨ht, hr⟩, hs⟩, hd⟩, hp⟩
    exact ⟨ht, ⟨⟨hr.trans hd, hd⟩, hs⟩, hp⟩
  · rintro ⟨ht, ⟨⟨hr, hd⟩, hs⟩, hp⟩
    exact ⟨⟨⟨⟨ht, hr.trans hd.symm⟩, hs⟩, hd⟩, hp⟩

theorem checkSelector_of_ge (h : 4 ≤ ss.toNat) :
    s.checkSelector ss = if inTable s ss then .ok () else raise (excGp (selCode ss)) := by
  rw [State.checkSelector, isNull_of_ge h, selectorInTable_eq]; rfl

end

section
variable {h : IretHead} (h3 : s.popAt sz 3 = .ok i3) (h4 : s.popAt sz 4 = .ok i4) (hss : ss = i4.setWidth 16)
include h3 h4 hss

/-- The part of the frame that holds SS and RSP, once both are read. -/
theorem iretStack_eq :
    s.iretStack sz h = s.checkSelector ss >>= fun _ => s.loadDescriptor ss >>= fun d =>
      if s.ssDescOkIret ss d (selRpl h.cs) (descL h.d) then
        .ok (if descL h.d then i3 else low32 i3, ⟨ss, descDpl d, descDB d⟩)
      else raise (excGp (selCode ss)) := by
  subst hss
  rw [State.iretStack, Res.bind_of_ok h3, Res.bind_of_ok h4]
  rfl

theorem iretStack_null (hlt : ss.toNat < 4) :
    s.iretStack sz h = if selRpl h.cs ≠ 3 ∧ descL h.d = true then .ok (if descL h.d then i3 else low32 i3, ⟨ss, 0, false⟩)
      else raise (excGp (selCode ss)) := by
  have hcheck : s.checkSelector ss = .ok () := if_pos (isNull_of_lt hlt)
  rw [iretStack_eq h3 h4 hss, Res.bind_of_ok hcheck, Res.bind_of_ok (loadDescriptor_of_lt (by omega)), ssDescOkIret_null hlt]
  refine if_congr ?_ rfl rfl
  simp only [Bool.not_eq_true', Bool.or_eq_false_iff, beq_eq_false_iff_ne, Bool.not_eq_false', ne_eq]

theorem iretStack_inside (h8 : 8 ≤ ss.toNat) (ht : inTable s ss = true) (hd : descriptorAt s ss = .ok ds) :
    s.iretStack sz h = if iretStackDescriptorOk h.cs ss ds then
      .ok (if descL h.d then i3 else low32 i3, ⟨ss, descDpl ds, descDB ds⟩) else raise (excGp (selCode ss)) := by
  have hcheck : s.checkSelector ss = .ok () := (checkSelector_of_ge (by omega)).trans (if_pos ht)
  rw [iretStack_eq h3 h4 hss, Res.bind_of_ok hcheck, Res.bind_of_ok ((loadDescriptor_of_ge h8).trans hd), ssDescOkIret_eq (by omega),
    ht, Bool.true_and]

theorem iretStack_outside (hge : 4 ≤ ss.toNat) (hout : ss.toNat < 8 ∨ inTable s ss = false) :
    s.iretStack sz h = raise (excGp (selCode ss)) := by
  rw [iretStack_eq h3 h4 hss]
  by_cases ht : inTable s ss = true
  · have hlt : ss.toNat < 8 := hout.resolve_right (by rw [ht]; decide)
    have hzero : iretStackDescriptorOk h.cs ss 0 = false := by simp [iretStackDescriptorOk]
    rw [Res.bind_of_ok ((checkSelector_of_ge hge).trans (if_pos ht)), Res.bind_of_ok (loadDescriptor_of_lt hlt), ssDescOkIret_eq hge,
      hzero, Bool.and_false]
    rfl
  · exact Res.bind_of_raise ((checkSelector_of_ge hge).trans (if_neg ht))

theorem iretStack_of_refused (href : iretStackRefused s h.cs ss ds code) : s.iretStack sz h = raise (excGp code) := by
  obtain ⟨⟨hlt, hring⟩ | ⟨hge, hout⟩ | ⟨h8, ht, hd, hnot⟩, rfl⟩ := href
  · have hrpl : selRpl h.cs = 3 := toNat_mod4_eq_iff (n := 3).1 hring
    exact (iretStack_null h3 h4 hss hlt).trans (if_neg fun hn => hn.1 hrpl)
  · exact iretStack_outside h3 h4 hss hge hout
  · exact (iretStack_inside h3 h4 hss h8 ht hd).trans (if_neg (Bool.eq_false_iff.1 hnot))

theorem iretStack_of_accepted (hacc : Machine.iretStack s h.cs ss ds) (hlong : selRpl h.cs = 0 → descL h.d = true) :
    s.iretStack sz h = .ok (if descL h.d then i3 else low32 i3, ⟨ss, descDpl ds, descDB ds⟩) := by
  obtain ⟨hlt, rfl, hring⟩ | ⟨h8, ht, hd, hok⟩ := hacc
  · have hrpl : selRpl h.cs = 0 := toNat_mod4_eq_iff (n := 0).1 hring
    exact (iretStack_null h3 h4 hss hlt).trans (if_pos ⟨by rw [hrpl]; decide, hlong hrpl⟩)
  · exact (iretStack_inside h3 h4 hss h8 ht hd).trans (if_pos hok)

end

theorem exec_iret (hsize : s.cs.l = true ∧ p.w = true ∨ p.osz = false) :
    exec (.iret p) s = finish s (raiseIf (bit s.rflags 14) (excGp 0) >>= fun _ => s.returnFromEvent (s.opSize p)) :=
  congrArg (finish s) (Res.bind_of_ok (rejectFar16_pass hsize))

/-- R331: only compatibility mode returns without SS and RSP. -/
theorem iretSame_of_legal {h : IretHead} (ht : legalFarTarget s (h.d.getLsbD 53) h.rip = some t) :
    s.iretSame sz h = .ok { s with
      cs := ⟨h.cs, h.d.getLsbD 53⟩, rip := t, rflags := iretFlags s.cpl0 s.rflags h.flags, nmiBlocked := false
      gpr := s.gpr.set .rsp (s.spUp (sz.bytes * 3)) } :=
  Res.bind_of_ok (returnRip_of_legal ht)

/-- R332, R333: SS, RSP and RIP are loaded where SS has passed. -/
theorem iretFull_of_legal {h : IretHead} {rsp : Word} {r : SsReg} (hstack : s.iretStack sz h = .ok (rsp, r))
    (ht : legalFarTarget s (h.d.getLsbD 53) h.rip = some t) :
    s.iretFull sz h = .ok { s with
      cs := ⟨h.cs, h.d.getLsbD 53⟩, rip := t, rflags := iretFlags s.cpl0 s.rflags h.flags, nmiBlocked := false
      ss := r, gpr := s.gpr.set .rsp rsp } :=
  (Res.bind_of_ok hstack).trans (Res.bind_of_ok (returnRip_of_legal ht))

theorem iretFull_of_illegal {h : IretHead} {rsp : Word} {r : SsReg} (hstack : s.iretStack sz h = .ok (rsp, r))
    (ht : legalFarTarget s (h.d.getLsbD 53) h.rip = none) : s.iretFull sz h = raise (excGp 0) :=
  (Res.bind_of_ok hstack).trans (Res.bind_of_raise (returnRip_of_illegal ht))

end State

/-- Settles O23: the head of the frame (`iretHead`) refuses an image or a code segment; then the rings decide whether SS and RSP are
loaded too, whose checks come before that of RIP. -/
theorem iret : Obligations.Iret := by
  intro p i0 i1 i2 d flags cs code s hsize
  refine ⟨fun hnt => ?_, fun hnt h0 h1 h2 hcs hflags => ?_⟩
  · rw [State.exec_iret hsize, hnt]
    rfl
  have returns : exec (.iret p) s = finish s (s.returnFromEvent (s.opSize p)) := by
    rw [State.exec_iret hsize, hnt]
    rfl
  obtain rfl : flags = iretFlags s.cpl0 s.rflags i2 := hflags.trans (iretFlags_eq s _ _).symm
  intro badImage
  refine ⟨fun hbad => ?_, fun hgood href => ?_, fun hgood h8 ht hd hok => ?_⟩
  · exact returns.trans (finish_of_raise (Res.bind_of_raise (State.iretHead_of_badImage h0 h1 h2 hcs hbad)))
  · exact returns.trans (finish_of_raise (Res.bind_of_raise (State.iretHead_of_refused h0 h1 h2 hcs hgood href)))
  have hhead := State.iretHead_of_segment h0 h1 h2 hcs hgood h8 ht hd hok
  have rpl3 : cs.toNat % 4 = 3 → selRpl cs = 3 := toNat_mod4_eq_iff (n := 3).1
  have rpl0 : cs.toNat % 4 = 0 → selRpl cs = 0 := toNat_mod4_eq_iff (n := 0).1
  refine ⟨fun hd0 h3 hfred => ?_, fun hd3 hr0 => ?_, fun t hl hring hlegal => ?_, fun i3 i4 ds ss hl hring h3 h4 hss => ?_⟩
  · exact returns.trans (finish_of_raise ((State.returnFromEvent_outward hhead hd0 (rpl3 h3)).trans (if_pos hfred)))
  · exact returns.trans (finish_of_raise (State.returnFromEvent_inward hhead hd3 (rpl0 hr0)))
  · have hsz : s.opSize p = .w32 := by
      have ho : p.osz = false := hsize.resolve_left fun h => absurd (hl.symm.trans h.1) (by decide)
      rw [State.opSize, State.mode64, hl, ho]; rfl
    have same : s.returnFromEvent (s.opSize p) = s.iretSame (s.opSize p) ⟨i0, cs, i2, d⟩ :=
      (State.returnFromEvent_same hhead hring).trans (if_neg (Bool.eq_false_iff.1 hl))
    rw [hsz] at same returns
    exact returns.trans (finish_of_ok (same.trans (State.iretSame_of_legal hlegal)))
  have full : exec (.iret p) s = finish s (s.iretFull (s.opSize p) ⟨i0, cs, i2, d⟩) := by
    refine returns.trans (congrArg (finish s) ?_)
    obtain hsame | ⟨hd0, hr3, hfred⟩ := hring
    · exact (State.returnFromEvent_same hhead hsame).trans (if_pos hl)
    · exact (State.returnFromEvent_outward hhead hd0 (rpl3 hr3)).trans (if_neg (Bool.eq_false_iff.1 hfred))
  refine ⟨fun href => ?_, fun hacc => ?_⟩
  · exact full.trans (finish_of_raise (Res.bind_of_raise (State.iretStack_of_refused h3 h4 hss href)))
  have hlong : selRpl cs = 0 → descL d = true := fun hr => codeDescriptorOk_long (show codeDescriptorOk cs d 0 = true from hr ▸ hok)
  have hstack := State.iretStack_of_accepted (h := ⟨i0, cs, i2, d⟩) h3 h4 hss hacc hlong
  exact ⟨fun hillegal => full.trans (finish_of_raise (State.iretFull_of_illegal hstack hillegal)),
    fun t hlegal => full.trans (finish_of_ok (State.iretFull_of_legal hstack hlegal))⟩

/-! ## Software interrupts (R340 to R343) -/

theorem State.eventExits_of_not_bitmapped (s : State) (e : Event) : s.eventExits e false = false := by
  unfold State.eventExits
  split <;> rfl

/-- Settles O27: each is one delivery; that of INT n makes no VM exit, since no bit of the exception bitmap is its own. -/
theorem softwareInterrupts : Obligations.SoftwareInterrupts := by
  intro s n p hw
  refine ⟨fun h => ?_, fun hroot h => ?_, fun hroot hl ho h => ?_, fun hl ho => ?_, fun hroot h => ?_⟩
  · exact State.deliver_handled hw (s.eventExits_of_not_bitmapped _) h
  · exact State.deliver_handled hw (State.eventExits_of_root hroot _ _) h
  · have hinto : exec .into s = s.deliver (s.softInt 4) true := (if_neg (Bool.eq_false_iff.1 hl)).trans (if_pos ho)
    rw [hinto]
    exact State.deliver_handled hw (State.eventExits_of_root hroot _ _) h
  · exact (if_neg (Bool.eq_false_iff.1 hl)).trans (if_neg (Bool.eq_false_iff.1 ho))
  · exact State.deliver_handled hw (State.eventExits_of_root hroot _ _) h

/-! ## SYSCALL, SYSENTER, SYSRET, SYSEXIT (R344 to R347) -/

/-- Whether IA32_SYSENTER_CS holds a selector is a matter of its low 16 bits. -/
theorem and_FFFC_eq_zero_iff (v : Word) : v &&& 0xFFFC = 0 ↔ (v.setWidth 16 : Half) &&& 0xFFFC = 0 := by
  have hlow : v &&& (BitVec.allOnes 16).setWidth 64 = (v.setWidth 16).setWidth 64 := and_lowMask v 16
  have hext : ((v.setWidth 16 : Half) &&& 0xFFFC).setWidth 64 = v &&& 0xFFFC := by
    rw [BitVec.setWidth_and, ← hlow, BitVec.and_assoc]
    rfl
  have htrunc : (v &&& 0xFFFC).setWidth 16 = (v.setWidth 16 : Half) &&& 0xFFFC := BitVec.setWidth_and
  exact ⟨fun h => by rw [← htrunc, h]; rfl, fun h => by rw [← hext, h]; rfl⟩

theorem ioplVifVip_of_zero {v : Word} (h : v &&& 0x183000 = 0) : ioplVifVip v = false := bne_eq_false_iff_eq.2 h

theorem ioplVifVip_of_ne {v : Word} (h : v &&& 0x183000 ≠ 0) : ioplVifVip v = true := bne_iff_ne.2 h

namespace State
variable {s : State} {p : Pfx}

theorem rejectFred_ok (h : bit s.cr4 32 = false) : s.rejectFred = .ok () := if_neg (Bool.eq_false_iff.1 h)

theorem exec_syscall (h : bit s.cr4 32 = false) :
    exec .syscall s = .next { s with
      gpr := (s.gpr.set .rcx s.nextRip).set .r11 s.rflags
      rip := if s.cs.l then s.sys.lstar else s.sys.cstar
      rflags := syscallFlags s.rflags s.sys.fmask
      cs := ⟨starKernel s.sys.star &&& 0xFFFC, true⟩, ss := ⟨starKernel s.sys.star + 8, 0, true⟩ } :=
  finish_of_ok (Res.bind_of_ok (rejectFred_ok h))

section
variable {c : Half} (hc : c = s.sys.sysenterCs.setWidth 16)
include hc

/-- IA32_SYSENTER_CS holds a selector. -/
theorem sysenterCs_present (h : c &&& 0xFFFC ≠ 0) : (s.sys.sysenterCs &&& 0xFFFC == 0) = false :=
  beq_eq_false_iff_ne.2 fun hzero => h (hc ▸ (and_FFFC_eq_zero_iff _).1 hzero)

theorem sysenterCs_absent (h : c &&& 0xFFFC = 0) : (s.sys.sysenterCs &&& 0xFFFC == 0) = true :=
  beq_iff_eq.2 ((and_FFFC_eq_zero_iff _).2 (hc ▸ h))

theorem exec_sysenter (hf : bit s.cr4 32 = false) (h : c &&& 0xFFFC ≠ 0) :
    exec .sysenter s = .next { s with
      gpr := s.gpr.set .rsp s.sys.sysenterEsp
      rip := s.sys.sysenterEip
      rflags := s.rflags &&& ~~~(0x10200 : Word)
      cs := ⟨c &&& 0xFFFC, true⟩, ss := ⟨(c &&& 0xFFFC) + 8, 0, true⟩ } := by
  have hpresent := sysenterCs_present hc h
  have hflags : setBit (setBit s.rflags 9 false) 16 false = s.rflags &&& ~~~(0x10200 : Word) := BitVec.and_assoc _ _ _
  subst hc
  rw [← hflags]
  exact finish_of_ok ((Res.bind_of_ok (rejectFred_ok hf)).trans (Res.bind_of_ok (raiseIf_pass hpresent)))

/-- SYSEXIT whose checks pass (R347). -/
theorem exec_sysexit (h0 : s.ss.dpl = 0) (h : c &&& 0xFFFC ≠ 0)
    (hcanon : (p.w && !(s.canonical (s.reg .rcx) && s.canonical (s.reg .rdx))) = false) :
    exec (.sysexit p) s = .next { s with
      rip := if p.w then s.reg .rdx else low32 (s.reg .rdx)
      gpr := s.gpr.set .rsp (if p.w then s.reg .rcx else low32 (s.reg .rcx))
      cs := ⟨(c + (if p.w then 32 else 16)) ||| 3, p.w⟩, ss := ⟨(c + (if p.w then 40 else 24)) ||| 3, 3, true⟩ } := by
  have hkernel : (!s.cpl0 || s.sys.sysenterCs &&& 0xFFFC == 0) = false :=
    Bool.or_eq_false_iff.2 ⟨congrArg not (beq_iff_eq.2 h0), sysenterCs_present hc h⟩
  subst hc
  exact finish_of_ok ((Res.bind_of_ok (raiseIf_pass hkernel)).trans (Res.bind_of_ok (raiseIf_pass hcanon)))

theorem exec_sysexit_absent (h : c &&& 0xFFFC = 0) : exec (.sysexit p) s = s.takeException (excGp 0) :=
  finish_of_raise (Res.bind_of_raise (raiseIf_raise (Bool.or_eq_true_iff.2 (.inr (sysenterCs_absent hc h)))))

end

theorem exec_sysexit_of_user (h : s.ss.dpl ≠ 0) : exec (.sysexit p) s = s.takeException (excGp 0) :=
  finish_of_raise (Res.bind_of_raise (raiseIf_raise (Bool.or_eq_true_iff.2 (.inl (congrArg not (beq_eq_false_iff_ne.2 h))))))

/-- Both checks of SYSEXIT raise #GP(0). -/
theorem exec_sysexit_not_canonical (hw : p.w = true)
    (h : isCanonical (bit s.cr4 12) (s.reg .rcx) = false ∨ isCanonical (bit s.cr4 12) (s.reg .rdx) = false) :
    exec (.sysexit p) s = s.takeException (excGp 0) := by
  have hbad : (p.w && !(s.canonical (s.reg .rcx) && s.canonical (s.reg .rdx))) = true :=
    Bool.and_eq_true_iff.2 ⟨hw, congrArg not (Bool.and_eq_false_iff.2 h)⟩
  exact finish_of_raise (Res.raiseIf_bind _ (Res.bind_of_raise (raiseIf_raise hbad)))

/-- SYSRET at CPL 0 with CR4.FRED = 0: what its last two checks leave (R346). -/
theorem exec_sysret (h0 : s.ss.dpl = 0) (hf : bit s.cr4 32 = false) :
    exec (.sysret p) s = finish s (raiseIf (ioplVifVip (s.reg .r11)) (excGp 0) >>= fun _ =>
      raiseIf (p.w && !s.canonical (s.reg .rcx)) (excGp 0) >>= fun _ => .ok { s with
        rip := if p.w then s.reg .rcx else low32 (s.reg .rcx), rflags := sysretFlags (s.reg .r11)
        cs := ⟨(starUser s.sys.star + (if p.w then 16 else 0)) ||| 3, p.w⟩, ss := ⟨(starUser s.sys.star + 8) ||| 3, 3, true⟩ }) :=
  congrArg (finish s) ((Res.bind_of_ok (requireCpl0_ok h0)).trans (Res.bind_of_ok (raiseIf_pass hf)))

theorem exec_sysret_of_legal (h0 : s.ss.dpl = 0) (hf : bit s.cr4 32 = false) (hflags : s.reg .r11 &&& 0x183000 = 0)
    (hcanon : (p.w && !s.canonical (s.reg .rcx)) = false) :
    exec (.sysret p) s = .next { s with
      rip := if p.w then s.reg .rcx else low32 (s.reg .rcx), rflags := sysretFlags (s.reg .r11)
      cs := ⟨(starUser s.sys.star + (if p.w then 16 else 0)) ||| 3, p.w⟩, ss := ⟨(starUser s.sys.star + 8) ||| 3, 3, true⟩ } :=
  (exec_sysret h0 hf).trans (finish_of_ok ((Res.bind_of_ok (raiseIf_pass (ioplVifVip_of_zero hflags))).trans
    (Res.bind_of_ok (raiseIf_pass hcanon))))

end State

/-- Settles O35: SYSCALL and SYSENTER load what `exec_syscall` and `exec_sysenter` say; of SYSRET and SYSEXIT, the checks in their order,
then the two modes that REX.W selects. -/
theorem systemCallsAndReturns : Obligations.SystemCallsAndReturns := by
  refine ⟨?_, fun p s h3 => ⟨finish_requireCpl0_raise h3, State.exec_sysexit_of_user h3⟩, fun p s u c h0 hu hc =>
    ⟨fun hf => ?_, State.exec_sysexit_absent hc, State.exec_sysexit_not_canonical,
      fun hf hflags => ⟨fun hw hcanon => ?_, fun hw hcanon => ?_, fun hw => ?_⟩, fun hf hflags => ?_,
      fun hsel => ⟨fun hw hrcx hrdx => ?_, fun hw => ?_⟩⟩⟩
  · rintro s k c hf rfl hc
    refine ⟨State.exec_syscall hf, State.exec_sysenter hc hf, fun hsel => ?_⟩
    exact finish_of_raise ((Res.bind_of_ok (State.rejectFred_ok hf)).trans
      (Res.bind_of_raise (raiseIf_raise (State.sysenterCs_absent hc hsel))))
  · exact finish_of_raise ((Res.bind_of_ok (State.requireCpl0_ok h0)).trans (Res.bind_of_raise (raiseIf_raise hf)))
  · have hbad : (p.w && !s.canonical (s.reg .rcx)) = true := Bool.and_eq_true_iff.2 ⟨hw, congrArg not hcanon⟩
    exact (State.exec_sysret h0 hf).trans (finish_of_raise (Res.raiseIf_bind _ (Res.bind_of_raise (raiseIf_raise hbad))))
  · rw [State.exec_sysret_of_legal h0 hf hflags (Bool.and_eq_false_iff.2 (.inr (congrArg not hcanon))), hw, hu]
    rfl
  · have hbase : starUser s.sys.star + (if false then 16 else 0) = u := (BitVec.add_zero _).trans hu.symm
    rw [State.exec_sysret_of_legal h0 hf hflags (Bool.and_eq_false_iff.2 (.inl hw)), hw, hbase, hu]
    rfl
  · exact (State.exec_sysret h0 hf).trans (finish_of_raise (Res.bind_of_raise (raiseIf_raise (ioplVifVip_of_ne hflags))))
  · have hcanon : (s.canonical (s.reg .rcx) && s.canonical (s.reg .rdx)) = true := Bool.and_eq_true_iff.2 ⟨hrcx, hrdx⟩
    rw [State.exec_sysexit hc h0 hsel (Bool.and_eq_false_iff.2 (.inr (congrArg not hcanon))), hw]
    rfl
  · rw [State.exec_sysexit hc h0 hsel (Bool.and_eq_false_iff.2 (.inl hw)), hw]
    rfl

/-! ## ERETU and ERETS (R350, R351) -/

theorem or_three_or_three (sel : Half) : sel ||| 3 ||| 3 = sel ||| 3 := by rw [BitVec.or_assoc, BitVec.or_self]

theorem fredFlagsOk_of_zero {v : Word} (h : v &&& ~~~(0x254FD7 : Word) = 0) : fredFlagsOk v = true := beq_iff_eq.2 h

/-- IOPL, VM, VIF and VIP are among the bits that an image may not hold. -/
theorem fredFlagsOk_of_ne {v : Word} (h : v &&& 0x1A3000 ≠ 0) : fredFlagsOk v = false := by
  refine beq_eq_false_iff_ne.2 fun hzero => h ?_
  calc v &&& 0x1A3000 = v &&& (~~~(definedFlags ||| 2) &&& 0x1A3000) := rfl
    _ = (v &&& ~~~(definedFlags ||| 2)) &&& 0x1A3000 := (BitVec.and_assoc _ _ _).symm
    _ = 0 := by rw [hzero]; exact BitVec.zero_and

/-- Of an image without other bits all flags are taken. -/
theorem legalFlags_of_zero {v : Word} (h : v &&& ~~~(0x254FD7 : Word) = 0) : legalFlags v = v ||| 2 := by
  have hkept : v &&& definedFlags = v := by
    have hsplit := BitVec.and_or_distrib_left (x := v) (y := definedFlags) (z := ~~~definedFlags)
    rw [show definedFlags ||| ~~~definedFlags = BitVec.allOnes 64 from rfl, BitVec.and_allOnes,
      show v &&& ~~~definedFlags = 0#64 from h, BitVec.or_zero] at hsplit
    exact hsplit.symm
  rw [legalFlags, hkept]

namespace State
variable {s : State} {f : FredFrame} {l : Bool} {t : Word} {cs ss : Half}

theorem legalFarTarget_long (h : isCanonical (bit s.cr4 12) t = true) : legalFarTarget s true t = some t :=
  (if_pos rfl).trans (if_pos h)

theorem legalFarTarget_long_none (h : isCanonical (bit s.cr4 12) t = false) : legalFarTarget s true t = none :=
  (if_pos rfl).trans (if_neg (Bool.eq_false_iff.1 h))

theorem requireFred_ok (hl : s.cs.l = true) (hf : bit s.cr4 32 = true) (h0 : s.ss.dpl = 0) : s.requireFred = .ok () :=
  (Res.bind_of_ok (raiseIf_pass (Bool.or_eq_false_iff.2 ⟨congrArg not hl, congrArg not hf⟩))).trans
    (raiseIf_pass (congrArg not (beq_iff_eq.2 h0)))

theorem requireFred_ud (h : s.cs.l = false ∨ bit s.cr4 32 = false) : s.requireFred = raise excUd :=
  Res.bind_of_raise (raiseIf_raise (Bool.or_eq_true_iff.2 (h.imp (congrArg not) (congrArg not))))

theorem requireFred_gp (hl : s.cs.l = true) (hf : bit s.cr4 32 = true) (h0 : s.ss.dpl ≠ 0) : s.requireFred = raise (excGp 0) :=
  (Res.bind_of_ok (raiseIf_pass (Bool.or_eq_false_iff.2 ⟨congrArg not hl, congrArg not hf⟩))).trans
    (raiseIf_raise (congrArg not (beq_eq_false_iff_ne.2 h0)))

/-! ### The selectors of IA32_STAR -/

section
variable {u : Half} (hu : u = s.sys.star.extractLsb' 48 16)
include hu

theorem starCompatible_long (hss : ss = (u + 8) ||| 3) (hcs : cs = (u + 16) ||| 3) : s.starCompatible cs ss = some true := by
  subst hu
  exact (if_pos hss).trans (if_pos hcs)

theorem starCompatible_compat (hss : ss = (u + 8) ||| 3) (hcs : cs = u ||| 3) (hne : u ||| 3 ≠ (u + 16) ||| 3) :
    s.starCompatible cs ss = some false := by
  subst hu
  exact (if_pos hss).trans ((if_neg fun h => hne (hcs.symm.trans h)).trans (if_pos hcs))

theorem starCompatible_none (h : ss ≠ (u + 8) ||| 3 ∨ cs ≠ (u + 16) ||| 3 ∧ cs ≠ u ||| 3) : s.starCompatible cs ss = none := by
  subst hu
  unfold State.starCompatible
  split
  · next hss =>
    obtain ⟨hlong, hcompat⟩ := h.resolve_left (not_not_intro hss)
    exact (if_neg hlong).trans (if_neg hcompat)
  · rfl

end

section
variable (hl : s.cs.l = true) (hf : bit s.cr4 32 = true) (h0 : s.ss.dpl = 0)
include hl hf h0

theorem exec_eretu_of_level (h : s.plat.fredConfig &&& 3 ≠ 0) : exec .eretu s = s.takeException (excGp 0) :=
  finish_of_raise ((Res.bind_of_ok (requireFred_ok hl hf h0)).trans (Res.bind_of_raise (raiseIf_raise (bne_iff_ne.2 h))))

variable (hframe : s.fredFrame = .ok f)
include hframe

/-- ERETS up to its checks of the frame. -/
theorem exec_erets :
    exec .erets s = finish s (raiseIf (!fredFlagsOk f.flags) (excGp 0) >>= fun _ =>
      raiseIf (decide (f.cs >>> 16 &&& 3 > s.stackLevel)) (excGp 0) >>= fun _ =>
      s.returnRip true f.rip >>= fun rip => .ok { s with
        rip := rip, rflags := legalFlags f.flags, gpr := s.gpr.set .rsp f.rsp
        plat := { s.plat with fredConfig := mergeBits s.plat.fredConfig 3 (f.cs >>> 16 &&& 3) }
        stiBlocked := bit f.ss 16, nmiBlocked := s.nmiBlocked && !bit f.ss 18 }) :=
  congrArg (finish s) ((Res.bind_of_ok (requireFred_ok hl hf h0)).trans (Res.bind_of_ok hframe))

theorem exec_erets_of_legal (hflags : f.flags &&& ~~~(0x254FD7 : Word) = 0)
    (hlevel : (f.cs >>> 16 &&& 3).toNat ≤ (s.plat.fredConfig &&& 3).toNat) (hcanon : isCanonical (bit s.cr4 12) f.rip = true) :
    exec .erets s = .next { s with
      rip := f.rip, rflags := f.flags ||| 2, gpr := s.gpr.set .rsp f.rsp
      plat := { s.plat with fredConfig := (s.plat.fredConfig &&& ~~~(3 : Word)) ||| (f.cs >>> 16 &&& 3) }
      stiBlocked := bit f.ss 16, nmiBlocked := s.nmiBlocked && !bit f.ss 18 } := by
  have hlow : decide (f.cs >>> 16 &&& 3 > s.stackLevel) = false := decide_eq_false (Nat.not_lt.2 hlevel)
  have hmerge : mergeBits s.plat.fredConfig 3 (f.cs >>> 16 &&& 3) = (s.plat.fredConfig &&& ~~~(3 : Word)) ||| (f.cs >>> 16 &&& 3) := by
    rw [mergeBits, BitVec.and_assoc, BitVec.and_self]
  rw [exec_erets hl hf h0 hframe, Res.bind_of_ok (raiseIf_pass (congrArg not (fredFlagsOk_of_zero hflags))),
    Res.bind_of_ok (raiseIf_pass hlow), Res.bind_of_ok (returnRip_of_legal (legalFarTarget_long hcanon)), hmerge,
    legalFlags_of_zero hflags]
  rfl

/-- The checks of ERETS on its frame raise the same exception. -/
theorem exec_erets_refused (h : (s.plat.fredConfig &&& 3).toNat < (f.cs >>> 16 &&& 3).toNat ∨ isCanonical (bit s.cr4 12) f.rip = false) :
    exec .erets s = s.takeException (excGp 0) := by
  rw [exec_erets hl hf h0 hframe]
  refine finish_of_raise (Res.raiseIf_bind _ ?_)
  obtain hlevel | hcanon := h
  · exact Res.bind_of_raise (raiseIf_raise (decide_eq_true hlevel))
  · exact Res.raiseIf_bind _ (Res.bind_of_raise (returnRip_of_illegal (legalFarTarget_long_none hcanon)))

theorem exec_erets_badFlags (h : f.flags &&& 0x1A3000 ≠ 0) : exec .erets s = s.takeException (excGp 0) := by
  rw [exec_erets hl hf h0 hframe]
  exact finish_of_raise (Res.bind_of_raise (raiseIf_raise (congrArg not (fredFlagsOk_of_ne h))))

section
variable (hlevel : s.plat.fredConfig &&& 3 = 0)
include hlevel

theorem exec_eretu_of_none (hstar : s.starCompatible (f.cs.setWidth 16) (f.ss.setWidth 16) = none) :
    exec .eretu s = s.takeException (excGp 0) := by
  have hzero : (s.stackLevel != 0) = false := bne_eq_false_iff_eq.2 hlevel
  show finish s (s.requireFred >>= _) = _
  rw [Res.bind_of_ok (requireFred_ok hl hf h0), Res.bind_of_ok (raiseIf_pass hzero), Res.bind_of_ok hframe, hstar]
  rfl

/-- ERETU with selectors that SYSRET would load. -/
theorem exec_eretu_of_some (hstar : s.starCompatible (f.cs.setWidth 16) (f.ss.setWidth 16) = some l) :
    exec .eretu s = finish s (raiseIf (!fredFlagsOk f.flags) (excGp 0) >>= fun _ => s.returnRip l f.rip >>= fun rip => .ok { s with
      rip := rip, rflags := legalFlags f.flags, gpr := s.gpr.set .rsp f.rsp
      cs := ⟨f.cs.setWidth 16 ||| 3, l⟩, ss := ⟨f.ss.setWidth 16 ||| 3, 3, true⟩
      gs := ⟨s.gs.sel, s.sys.kernelGsBase⟩, sys := { s.sys with kernelGsBase := s.gs.base }
      nmiBlocked := s.nmiBlocked && !bit f.ss 18 }) := by
  have hzero : (s.stackLevel != 0) = false := bne_eq_false_iff_eq.2 hlevel
  show finish s (s.requireFred >>= _) = _
  rw [Res.bind_of_ok (requireFred_ok hl hf h0), Res.bind_of_ok (raiseIf_pass hzero), Res.bind_of_ok hframe, hstar]
  rfl

theorem exec_eretu_of_legal {x y : Half} (hstar : s.starCompatible (f.cs.setWidth 16) (f.ss.setWidth 16) = some l)
    (hflags : f.flags &&& ~~~(0x254FD7 : Word) = 0) (ht : legalFarTarget s l f.rip = some t) (hcs : f.cs.setWidth 16 = x ||| 3)
    (hss : f.ss.setWidth 16 = y ||| 3) :
    exec .eretu s = .next { s with
      rip := t, rflags := f.flags ||| 2, gpr := s.gpr.set .rsp f.rsp, cs := ⟨x ||| 3, l⟩, ss := ⟨y ||| 3, 3, true⟩
      gs := ⟨s.gs.sel, s.sys.kernelGsBase⟩, sys := { s.sys with kernelGsBase := s.gs.base }
      nmiBlocked := s.nmiBlocked && !bit f.ss 18 } := by
  rw [exec_eretu_of_some hl hf h0 hframe hlevel hstar, Res.bind_of_ok (raiseIf_pass (congrArg not (fredFlagsOk_of_zero hflags))),
    Res.bind_of_ok (returnRip_of_legal ht), legalFlags_of_zero hflags, hcs, hss, or_three_or_three, or_three_or_three]
  rfl

theorem exec_eretu_of_illegal (hstar : s.starCompatible (f.cs.setWidth 16) (f.ss.setWidth 16) = some l)
    (ht : legalFarTarget s l f.rip = none) : exec .eretu s = s.takeException (excGp 0) := by
  rw [exec_eretu_of_some hl hf h0 hframe hlevel hstar]
  exact finish_of_raise (Res.raiseIf_bind _ (Res.bind_of_raise (returnRip_of_illegal ht)))

end

/-- Whatever its level and its selectors, ERETU refuses an image with IOPL, VM, VIF or VIP. -/
theorem exec_eretu_badFlags (h : f.flags &&& 0x1A3000 ≠ 0) : exec .eretu s = s.takeException (excGp 0) := by
  by_cases hlevel : s.plat.fredConfig &&& 3 = 0
  · cases hstar : s.starCompatible (f.cs.setWidth 16) (f.ss.setWidth 16) with
    | none => exact exec_eretu_of_none hl hf h0 hframe hlevel hstar
    | some l =>
      rw [exec_eretu_of_some hl hf h0 hframe hlevel hstar]
      exact finish_of_raise (Res.bind_of_raise (raiseIf_raise (congrArg not (fredFlagsOk_of_ne h))))
  · exact exec_eretu_of_level hl hf h0 hlevel

end

end State

/-- Settles O36: the checks that both make before the frame; then ERETU by what IA32_STAR makes of the frame's selectors, ERETS by its
level and RIP. -/
theorem fredReturns : Obligations.FredReturns := by
  refine fun s => ⟨fun h => ?_, fun hl hf h3 => ?_, fun hl hf h0 => State.exec_eretu_of_level hl hf h0,
    fun f u h0 hl hf hframe hu => ⟨fun hflags => ⟨fun hlevel hss hcs => ?_, fun hlevel hss hcs hne => ?_, fun hlevel hsel => ?_,
      State.exec_erets_of_legal hl hf h0 hframe hflags⟩, State.exec_erets_refused hl hf h0 hframe, fun hbad => ?_⟩⟩
  · have ud := State.requireFred_ud h
    exact ⟨finish_of_raise (Res.bind_of_raise ud), finish_of_raise (Res.bind_of_raise ud)⟩
  · have gp := State.requireFred_gp hl hf h3
    exact ⟨finish_of_raise (Res.bind_of_raise gp), finish_of_raise (Res.bind_of_raise gp)⟩
  · have hstar := State.starCompatible_long hu hss hcs
    exact ⟨fun hcanon => State.exec_eretu_of_legal hl hf h0 hframe hlevel hstar hflags (State.legalFarTarget_long hcanon) hcs hss,
      fun hcanon => State.exec_eretu_of_illegal hl hf h0 hframe hlevel hstar (State.legalFarTarget_long_none hcanon)⟩
  · exact State.exec_eretu_of_legal hl hf h0 hframe hlevel (State.starCompatible_compat hu hss hcs hne) hflags rfl hcs hss
  · exact State.exec_eretu_of_none hl hf h0 hframe hlevel (State.starCompatible_none hu hsel)
  · exact ⟨State.exec_eretu_badFlags hl hf h0 hframe hbad, State.exec_erets_badFlags hl hf h0 hframe hbad⟩

/-! ## RSM (R353) -/

/-- The forced CPL and CS are those of a legal mode (R410). -/
theorem State.restoreSmm_legalMode (s : State) (m : SmmSave) : (s.restoreSmm m).legalMode = true := by
  show (((legalSs m.ss).dpl == 0 || (legalSs m.ss).dpl == 3) && ((legalCs m.cs m.ss).l || (legalSs m.ss).dpl == 3)) = true
  by_cases h3 : m.ss.dpl = 3
  · have hcpl : (legalSs m.ss).dpl = 3 := if_pos h3
    rw [hcpl]
    simp
  · have hcpl : (legalSs m.ss).dpl = 0 := if_neg h3
    have hlong : (legalCs m.cs m.ss).l = true := Bool.or_eq_true_iff.2 (.inr (congrArg not (beq_eq_false_iff_ne.2 h3)))
    rw [hcpl, hlong]
    rfl

/-- Settles O37: `restoreSmm` spells the fixed bits of CR0 and CR4, the legal flags and the forced mode as the statement does. -/
theorem resumeFromSmm : Obligations.ResumeFromSmm := by
  rintro s t m long rip rfl rfl rfl rfl
  refine ⟨fun h => ?_, fun h => ⟨?_, s.restoreSmm_legalMode s.smmSave⟩⟩
  · exact finish_of_raise (if_neg (Bool.eq_false_iff.1 h))
  · exact finish_of_ok (if_pos h)

end Sys2Proof.Machine

/-! # VM entry and VM exit (O52 to O56)

VM entry is a row of checks (`State.checkedEntry`) before one load of the guest area; a VM exit saves that area and loads the host's. Both
loads are tied once to the states that the statements write out, and every exit of O55 and O56 is then one check that comes first. -/

namespace Sys2Proof.Machine

/-! ## What VM entry and VM exit load and save (R361, R366, R371, R372) -/

namespace State
variable {s : State} {v : Vmcs}

theorem loadGuest_eq (s : State) (g : VmcsGuest) : s.loadGuest g = guestLoaded s g := rfl

theorem loadHost_eq (s : State) (h : VmcsHost) : s.loadHost h = hostLoaded s h := rfl

/-- The bits of the saved CS and SS access rights do not overlap, so that their sum is their disjunction. -/
theorem dpl_or_flag (dpl : BitVec 2) (b : Bool) :
    (dpl.setWidth 32 <<< 5 ||| if b then 0x2000 else 0x4000) = BitVec.ofNat 32 (dpl.toNat * 32 + if b then 8192 else 16384) ∧
    (dpl.setWidth 32 <<< 5 ||| if b then 0x4000 else 0) = BitVec.ofNat 32 (dpl.toNat * 32 + if b then 16384 else 0) := by
  revert dpl b
  decide

theorem saveGuest_eq (s : State) (g : VmcsGuest) : s.saveGuest g = guestSaved s g := by
  have hcs : s.exitCsAr = _ := (dpl_or_flag s.ss.dpl s.cs.l).1
  have hss : s.exitSsAr = _ := (dpl_or_flag s.ss.dpl s.ss.b).2
  rw [State.saveGuest, hcs, hss]
  rfl

/-- A VM exit of a guest. -/
theorem vmExit_of_guest (hv : s.vmx = .nonRoot v) (reason : DWord) (q : Word) (info code : DWord) :
    s.vmExit reason q info code = exited s v reason q info code := by
  rw [State.vmExit, hv]
  show s.exitFrom v _ = _
  rw [State.exitFrom, loadHost_eq, saveGuest_eq]
  rfl

theorem nonRoot_of_guest (hv : s.vmx = .nonRoot v) : s.nonRoot = true := by rw [State.nonRoot, hv]

end State

/-- A meaning that ends in a VM exit of a guest. -/
theorem finish_of_vmExit {s : State} {v : Vmcs} {r : Res State} {reason : DWord} {q : Word} (hv : s.vmx = .nonRoot v)
    (h : r = .error (.vmExit reason q)) : finish s r = .next (exited s v reason q 0 0) := by
  rw [h, finish_vmExit, State.vmExit_of_guest hv]

/-- What follows a part that stops is not reached. -/
theorem Res.bind_of_error {α β : Type} {first : Res α} {next : α → Res β} {x : Stop} (h : first = .error x) :
    first >>= next = .error x := by rw [h]; rfl

/-! ## The checks of the guest area (R367, R368) -/

theorem ring_iff : ∀ dpl : BitVec 2, (dpl == 0 || dpl == 3) = true ↔ dpl ≠ 1 ∧ dpl ≠ 2 := by decide

/-- A guest area is illegal where its segments or the flags of R368 fail their checks. -/
theorem guestIllegal_iff (la57 : Bool) (g : VmcsGuest) :
    guestIllegal la57 g ↔ ¬(g.segmentsOk la57 = true ∧ g.rflags &&& 0x1A3000 = 0) := by
  have hring := ring_iff (arDpl g.ssAr)
  have hlong : (arL g.csAr != arDB g.csAr) = true ↔
      ¬(arL g.csAr = false ∧ arDB g.csAr = false) ∧ ¬(arL g.csAr = true ∧ arDB g.csAr = true) := by
    cases arL g.csAr <;> cases arDB g.csAr <;> decide
  have hnull : (!(!arL g.csAr && arDpl g.ssAr == 0)) = true ↔ ¬(arL g.csAr = false ∧ arDpl g.ssAr = 0) := by
    rw [Bool.not_eq_true', Bool.eq_false_iff, Ne, Bool.and_eq_true, Bool.not_eq_true', beq_iff_eq]
  simp only [guestIllegal, VmcsGuest.segmentsOk, Bool.and_eq_true, hring, hlong, hnull, Bool.not_eq_true', beq_iff_eq, not_and_or,
    not_or, not_not, or_assoc, Bool.not_eq_true, Bool.not_eq_false, Ne]
  rfl

/-- Flags that VM entry accepts have IOPL, VM, VIF and VIP clear (R368). -/
theorem flags_of_guestFlagsOk {v : Word} (h : guestFlagsOk v = true) : v &&& 0x1A3000 = 0 := by
  obtain ⟨hres, -⟩ : v &&& ~~~definedFlags = 0 ∧ bit v 1 = true := by simpa [guestFlagsOk] using h
  by_contra hbad
  exact absurd (fredFlagsOk_of_zero hres) (Bool.eq_false_iff.1 (fredFlagsOk_of_ne hbad))

theorem guestActivityOk_waitForSipi {s : State} {g : VmcsGuest} (h : g.activity = 3) : s.guestActivityOk g = false := by
  rw [State.guestActivityOk, h]
  rfl

theorem guestCrOk_of_bad {s : State} {g : VmcsGuest}
    (h : bit g.cr4 5 = false ∨ s.cfg.vmentryFixedCrFail = true ∧ s.fixedCrOk g.cr0 g.cr4 = false) : s.guestCrOk g = false := by
  rw [State.guestCrOk]
  obtain hpae | ⟨hfail, hfixed⟩ := h
  · simp only [hpae, Bool.false_and]
  · simp only [hfail, hfixed, Bool.not_true, Bool.or_self, Bool.and_false]

/-- The guest areas that O53 names fail VM entry. -/
theorem guestOk_of_bad {s : State} {g : VmcsGuest}
    (h : guestIllegal (bit (guestCr4 s.cfg g.cr4) 12) g ∨ g.activity = 3 ∨ bit g.cr4 5 = false ∨
      s.cfg.vmentryFixedCrFail = true ∧ s.fixedCrOk g.cr0 g.cr4 = false) : s.guestOk g = false := by
  rw [Bool.eq_false_iff]
  intro hok
  simp only [State.guestOk, Bool.and_eq_true] at hok
  obtain ⟨⟨⟨⟨hseg, hflags⟩, hcr⟩, hact⟩, -⟩ := hok
  obtain hillegal | hsipi | hbad := h
  · exact (guestIllegal_iff _ g).1 hillegal ⟨hseg, flags_of_guestFlagsOk hflags⟩
  · exact absurd hact (Bool.eq_false_iff.1 (guestActivityOk_waitForSipi hsipi))
  · exact absurd hcr (Bool.eq_false_iff.1 (guestCrOk_of_bad hbad))

/-- A guest area whose parts pass their checks passes VM entry. -/
theorem guestOk_of_legal {s : State} {g : VmcsGuest} (hlegal : ¬guestIllegal (bit (guestCr4 s.cfg g.cr4) 12) g)
    (hflags : guestFlagsOk g.rflags = true) (hcr : s.guestCrOk g = true) (hact : s.guestActivityOk g = true)
    (haddr : g.addressesOk (bit (guestCr4 s.cfg g.cr4) 12) = true) : s.guestOk g = true := by
  obtain ⟨hseg, -⟩ := not_not.1 (mt (guestIllegal_iff _ g).2 hlegal)
  simp only [State.guestOk, Bool.and_eq_true]
  exact ⟨⟨⟨⟨hseg, hflags⟩, hcr⟩, hact⟩, haddr⟩

/-! ## VM entry (R360 to R370, R376, R377) -/

/-- `i` is the instruction that enters the guest of `v`, by its launch state. -/
def entersBy (v : Vmcs) (i : Instr) : Prop := i = .vmlaunch ∧ v.ctl.launched = false ∨ i = .vmresume ∧ v.ctl.launched = true

namespace State
variable {s : State} {v : Vmcs} {i : Instr}

/-- VM entry after the checks of the mode and of the launch state: the controls, the host area, the guest area. -/
def checkedEntry (s : State) (v : Vmcs) : Host.Outcome State Fault Refusal :=
  if !s.ctlOk v.ctl then .next (s.vmFailValid v 7)
  else if !s.hostOk v.host then .next (s.vmFailValid v 8)
  else if !(s.guestOk v.guest && injectedActivityOk v.guest.activity v.ctl.entryIntrInfo) then .next (s.entryFailure v)
  else s.enterGuest v

/-- The guest of `v` entered, before an injected event is taken. -/
def entered (s : State) (v : Vmcs) : State :=
  { guestLoaded s v.guest with vmx := .nonRoot { v with ctl := { v.ctl with launched := true } } }

/-- What a failing check of the controls or of the host area leaves (entry 26). -/
theorem vmFailValid_eq (s : State) (v : Vmcs) (n : DWord) :
    s.vmFailValid v n = { s with
      rip := s.nextRip, rflags := (s.rflags &&& ~~~(0x8D5 : Word)) ||| 0x40
      vmx := .root (some { v with exit := { v.exit with instructionError := n } }) } := rfl

/-- What a guest area that fails leaves (R367). -/
theorem entryFailure_eq (s : State) (v : Vmcs) :
    s.entryFailure v = { hostLoaded s v.host with
      vmx := .root (some { v with exit := { v.exit with reason := 0x80000021, qualification := 0 } }) } := rfl

theorem enterGuest_eq (s : State) (v : Vmcs) :
    s.enterGuest v =
      if v.ctl.entryIntrInfo.getLsbD 31 then (s.entered v).deliver (v.ctl.injected v.guest.rip) false else .next (s.entered v) := by
  rw [State.enterGuest, loadGuest_eq]
  rfl

theorem enterGuest_plain (h : v.ctl.entryIntrInfo.getLsbD 31 = false) : s.enterGuest v = .next (s.entered v) :=
  (s.enterGuest_eq v).trans (if_neg (Bool.eq_false_iff.1 h))

theorem enterGuest_injects (h : v.ctl.entryIntrInfo.getLsbD 31 = true) :
    s.enterGuest v = (s.entered v).deliver (v.ctl.injected v.guest.rip) false := (s.enterGuest_eq v).trans (if_pos h)

section
variable (hv : s.vmx = .root (some v)) (hl : s.cs.l = true) (h0 : s.ss.dpl = 0)
include hv hl h0

/-- The checks of the mode and of the launch state pass. -/
theorem vmEntry_eq_checkedEntry {launch : Bool} (h : v.ctl.launched = !launch) : s.vmEntry launch = s.checkedEntry v := by
  have hcompat : s.compat = false := congrArg not hl
  have hcpl : s.cpl0 = true := beq_iff_eq.2 h0
  simp only [State.vmEntry, hv, hcompat, hcpl, h, Bool.not_true, Bool.not_not, Bool.and_not_self, Bool.not_and_self,
    Bool.false_eq_true, if_false]
  rfl

theorem exec_entry (h : entersBy v i) : exec i s = s.checkedEntry v := by
  obtain ⟨rfl, hlaunched⟩ | ⟨rfl, hlaunched⟩ := h
  · exact vmEntry_eq_checkedEntry hv hl h0 (launch := true) hlaunched
  · exact vmEntry_eq_checkedEntry hv hl h0 (launch := false) hlaunched

theorem exec_seamret (hseam : s.inSeam = true) :
    exec .seamret s = if s.guestOk v.guest then .next { guestLoaded s v.guest with inSeam := false } else .next (s.entryFailure v) := by
  have hcompat : s.compat = false := congrArg not hl
  have hcpl : s.cpl0 = true := beq_iff_eq.2 h0
  show execSeamret s = _
  simp only [execSeamret, hv, hseam, hcompat, hcpl, Bool.not_true, Bool.or_self, Bool.false_eq_true, if_false, loadGuest_eq]

/-- The controls are checked first (R362 to R364). -/
theorem exec_entry_controls (h : entersBy v i) (hctl : s.ctlOk v.ctl = false) : exec i s = .next (s.vmFailValid v 7) := by
  rw [exec_entry hv hl h0 h, State.checkedEntry, hctl]
  rfl

/-- Then the host area (R369, R372). -/
theorem exec_entry_host (h : entersBy v i) (hctl : s.ctlOk v.ctl = true) (hhost : s.hostOk v.host = false) :
    exec i s = .next (s.vmFailValid v 8) := by
  rw [exec_entry hv hl h0 h, State.checkedEntry, hctl, hhost]
  rfl

/-- Then the guest area (R365 to R369). -/
theorem exec_entry_guest (h : entersBy v i) (hctl : s.ctlOk v.ctl = true) (hhost : s.hostOk v.host = true)
    (hguest : s.guestOk v.guest = false) : exec i s = .next (s.entryFailure v) := by
  rw [exec_entry hv hl h0 h, State.checkedEntry, hctl, hhost, hguest]
  rfl

/-- Where all of them pass the guest is entered. -/
theorem exec_entry_enters (h : entersBy v i) (hctl : s.ctlOk v.ctl = true) (hhost : s.hostOk v.host = true)
    (hguest : s.guestOk v.guest = true) (hact : injectedActivityOk v.guest.activity v.ctl.entryIntrInfo = true) :
    exec i s = s.enterGuest v := by
  rw [exec_entry hv hl h0 h, State.checkedEntry, hctl, hhost, hguest, hact]
  rfl

end

/-- Controls that are not as X86S fixes them (R362 to R364). -/
theorem ctlOk_of_bad {c : VmcsControls} (h : c.hostAddressSpaceSize = false ∨ c.ia32eGuest = false ∨ c.unrestrictedGuest = true) :
    s.ctlOk c = false := by
  have hbad : c.ok = false := by obtain h | h | h := h <;> simp [VmcsControls.ok, h]
  simp only [State.ctlOk, hbad, Bool.false_and]

/-- A host area whose CR0 or CR4 differs from its FIXED MSRs (R369). -/
theorem hostOk_of_bad {h : VmcsHost} (hbad : s.fixedCrOk h.cr0 h.cr4 = false) : s.hostOk h = false := by
  simp only [State.hostOk, hbad, Bool.false_and, Bool.and_false]

end State

/-- Without an event to inject the activity state is no obstacle. -/
theorem injectedActivityOk_plain (activity : DWord) {info : DWord} (h : info.getLsbD 31 = false) :
    injectedActivityOk activity info = true := by simp only [injectedActivityOk, h, Bool.not_false, Bool.true_or]

/-- Any event may be injected into an active guest. -/
theorem injectedActivityOk_active (info : DWord) : injectedActivityOk 0 info = true := by
  simp only [injectedActivityOk, BEq.rfl, Bool.or_true, Bool.true_or]

/-- Settles O52: each instruction makes the checks of `exec_entry` or `exec_seamret`, which all pass, and loads `guestLoaded`. -/
theorem vmEntry : Obligations.VmEntry := by
  intro s v hv hl h0 hlegal hflags hcr hact haddr
  have hguest : s.guestOk v.guest = true := guestOk_of_legal hlegal hflags hcr hact haddr
  refine ⟨fun hctl hhost hnone => ?_, fun hseam => ?_⟩
  · have enters {i : Instr} (h : entersBy v i) : exec i s = .next (s.entered v) :=
      (State.exec_entry_enters hv hl h0 h hctl hhost hguest (injectedActivityOk_plain _ hnone)).trans (State.enterGuest_plain hnone)
    exact ⟨fun hlaunch => enters (.inl ⟨rfl, hlaunch⟩), fun hlaunch => enters (.inr ⟨rfl, hlaunch⟩)⟩
  · exact (State.exec_seamret hv hl h0 hseam).trans (if_pos hguest)

/-- Settles O53: the three groups of checks in their order, each with what it leaves; SEAMRET makes the last alone. -/
theorem vmEntryFails : Obligations.VmEntryFails := by
  intro s v i hv hl h0
  refine ⟨fun hi hbad => ?_, fun hi hctl hbad => ?_, fun hi hbad => ?_⟩
  · have hfails := State.exec_entry_controls hv hl h0 hi (State.ctlOk_of_bad hbad)
    rwa [State.vmFailValid_eq] at hfails
  · have hfails := State.exec_entry_host hv hl h0 hi hctl (State.hostOk_of_bad hbad)
    rwa [State.vmFailValid_eq] at hfails
  · have hguest : s.guestOk v.guest = false := guestOk_of_bad hbad
    rw [← State.entryFailure_eq]
    obtain ⟨hentry, hctl, hhost⟩ | ⟨rfl, hseam⟩ := hi
    · exact State.exec_entry_guest hv hl h0 hentry hctl hhost hguest
    · exact (State.exec_seamret hv hl h0 hseam).trans (if_neg (Bool.eq_false_iff.1 hguest))

/-! ## Event injection (R370) -/

/-- The types of interruption information that name an event, with its kind, its EXT and the length that its saved RIP counts
(entry 26). -/
theorem injected_eq {c : VmcsControls} {rip : Word} {type : BitVec 3} {kind : EventKind} {ext : Bool} {length : DWord}
    (hrow : (type, kind, ext, length) ∈ [(0, EventKind.external, true, 0), (2, .nmi, true, 0), (3, .exception, true, 0),
      (4, .softInt, false, c.entryInstrLen), (5, .int1, true, c.entryInstrLen), (6, .softInt, false, c.entryInstrLen)])
    (htype : c.entryIntrInfo.extractLsb' 8 3 = type) :
    c.injected rip = ⟨c.entryIntrInfo.setWidth 8, kind, ext, if c.entryIntrInfo.getLsbD 11 then some c.entryErrorCode else none,
      rip + length.setWidth 64⟩ := by
  have hzero : rip = rip + (0 : DWord).setWidth 64 := (BitVec.add_zero rip).symm
  rw [VmcsControls.injected, htype]
  simp only [List.mem_cons, Prod.mk.injEq, List.not_mem_nil, or_false] at hrow
  obtain ⟨rfl, rfl, rfl, rfl⟩ | ⟨rfl, rfl, rfl, rfl⟩ | ⟨rfl, rfl, rfl, rfl⟩ |
    ⟨rfl, rfl, rfl, rfl⟩ | ⟨rfl, rfl, rfl, rfl⟩ | ⟨rfl, rfl, rfl, rfl⟩ := hrow
  · rw [← hzero]; rfl
  · rw [← hzero]; rfl
  · rw [← hzero]; rfl
  · rfl
  · rfl
  · rfl

/-- Settles O54: every check passes, so that the guest is entered and the event of `injected_eq` is taken there, which no bit of the
exception bitmap stops. -/
theorem eventInjection : Obligations.EventInjection := by
  rintro s v i type kind ext length e p hv hl h0 hw hi hctl hhost hguest hactive hvalid hrow htype rfl entered hreach
  have hact : injectedActivityOk v.guest.activity v.ctl.entryIntrInfo = true := by
    rw [hactive]; exact injectedActivityOk_active _
  rw [State.exec_entry_enters hv hl h0 hi hctl hhost hguest hact, State.enterGuest_injects hvalid, injected_eq hrow htype]
  exact State.deliver_handled hw (State.eventExits_of_not_bitmapped _ _) hreach

/-! ## The exits of a guest (R270 to R273, R281, R298, R374, R377, R380, R390) -/

/-- The task-priority register is virtualized by the TPR shadow (R380). -/
theorem apicVirtualized_tpr {c : VmcsControls} {a : Access} {off : Nat} (ha : a.fetch = false) (h : c.useTprShadow = true)
    (hlo : 0x80 ≤ off) (hhi : off < 0x84) : apicVirtualized c a off = true := by
  have hreg : off / 16 = 8 := by omega
  have hbyte : off % 16 < 4 := by omega
  simp only [apicVirtualized, ha, h, hreg, hbyte, decide_true, Bool.not_false, Bool.and_self, Bool.true_or]

namespace State
variable {s : State} {v : Vmcs} {a : Access} {la : Word} {pa : Nat}

/-- A byte of a page whose address is below 2^MAXPA. -/
theorem checkPa_of_page {base off : Nat} (hbase : base < 2 ^ s.cfg.maxPA) (hpa : 12 ≤ s.cfg.maxPA) (hoff : off < 4096) :
    s.checkPa (base / 4096 * 4096 + off) = .ok () := by
  obtain ⟨k, hk⟩ : 4096 ∣ 2 ^ s.cfg.maxPA := pow_dvd_pow 2 hpa
  rw [State.checkPa, hk]
  rw [hk] at hbase
  exact if_pos (by omega)

/-- A translated byte is where the virtual APIC puts it. -/
theorem linear_of_translate (hla : s.canonical la = true) (ht : s.translate a la = .ok pa) :
    s.linear a la = s.apicRedirect a pa >>= fun q => s.checkPa q >>= fun _ => .ok q :=
  (Res.bind_of_ok (raiseIf_pass (congrArg not hla))).trans (Res.bind_of_ok ht)

/-- An access of ring 0 stops where the translation of its first byte does. -/
theorem memRead_of_linear {x : Stop} {n : Nat} (h0 : s.ss.dpl = 0) (hla : s.canonical la = true)
    (h : s.linear s.dataAccess la = .error x) : s.memRead la (n + 1) = .error x := by
  have haligned : s.alignOk s.dataAccess la (n + 1) = true := by
    refine alignOk_dataAccess_of_unchecked (fun hchecked => ?_) la _
    obtain ⟨h3, -⟩ := hchecked
    rw [h0] at h3
    exact absurd h3 (by decide)
  have hpas : s.accessPas s.dataAccess la (n + 1) (n + 1) = .error x :=
    (Res.bind_of_ok (raiseIf_pass (congrArg not hla))).trans
      ((Res.bind_of_ok (raiseIf_pass (congrArg not haligned))).trans (Res.bind_of_error h))
  exact Res.bind_of_error (Res.bind_of_error hpas)

variable (hv : s.vmx = .nonRoot v)
include hv

theorem vmEntry_of_guest (hl : s.cs.l = true) (launch : Bool) :
    s.vmEntry launch = .next (exited s v (if launch then 20 else 24) 0 0 0) := by
  have hcompat : s.compat = false := congrArg not hl
  simp only [State.vmEntry, hv, hcompat, vmExit_of_guest hv, Bool.false_eq_true, if_false]

theorem vmEntry_of_compat_guest (hl : s.cs.l = false) (launch : Bool) : s.vmEntry launch = s.takeException excUd := by
  have hcompat : s.compat = true := congrArg not hl
  simp only [State.vmEntry, hv, hcompat, if_true]
  rfl

theorem exec_getsec_of_guest (hsmx : bit s.cr4 14 = true) : exec .getsec s = .next (exited s v 11 0 0 0) := by
  have hon : ¬s.smxe = false := ne_false_of_eq_true hsmx
  exact finish_of_vmExit hv ((if_neg hon).trans (if_pos (nonRoot_of_guest hv)))

theorem exec_cpuid_of_guest : exec .cpuid s = .next (exited s v 10 0 0 0) :=
  finish_of_vmExit hv (if_pos (nonRoot_of_guest hv))

/-- INIT of a guest (R375). -/
theorem step_init_of_guest (hdue : s.due = some .init) :
    step s = .next (exited { s with pending := { s.pending with init := false } } v 3 0 0 0) := by
  have hexit := vmExit_of_guest (s := { s with pending := { s.pending with init := false } }) hv 3 0 0 0
  rw [step, hdue, ← hexit]
  exact congrArg Host.Outcome.next (if_pos (nonRoot_of_guest (s := { s with pending := _ }) hv))

/-! ### The virtual APIC (R380) -/

theorem apicControls_of_guest (h : v.ctl.virtualizeApicAccesses = true) : s.apicControls = some v.ctl := by
  rw [State.apicControls, hv]
  exact if_pos h

/-- An access to the APIC-access page reaches the virtual-APIC page or exits. -/
theorem apicRedirect_of_page (h : v.ctl.virtualizeApicAccesses = true)
    (hpage : pa / 4096 = v.ctl.apicAccessAddr.toNat / 4096) :
    s.apicRedirect a pa =
      if apicVirtualized v.ctl a (pa % 4096) then .ok (v.ctl.virtualApicAddr.toNat / 4096 * 4096 + pa % 4096)
      else .error (.vmExit 44 (apicQualification a (pa % 4096))) := by
  rw [State.apicRedirect, apicControls_of_guest hv h]
  exact if_pos hpage

/-- An operand of VERR on the APIC-access page that is not virtualized. -/
theorem exec_verr_of_guest {p : Pfx} {m : Mem} (hl : s.cs.l = true) (h0 : s.ss.dpl = 0) (h : v.ctl.virtualizeApicAccesses = true)
    (hla : s.canonical (s.linAddr p m) = true) (ht : s.translate s.dataAccess (s.linAddr p m) = .ok pa)
    (hpage : pa / 4096 = v.ctl.apicAccessAddr.toNat / 4096) (hout : apicVirtualized v.ctl s.dataAccess (pa % 4096) = false) :
    exec (.verr p (.mem m)) s = .next (exited s v 44 (BitVec.ofNat 64 (pa % 4096)) 0 0) := by
  have hexit : s.apicRedirect s.dataAccess pa = .error (.vmExit 44 (BitVec.ofNat 64 (pa % 4096))) :=
    (apicRedirect_of_page hv h hpage).trans (if_neg (Bool.eq_false_iff.1 hout))
  have hread : s.memRead (s.linAddr p m) 2 = _ :=
    memRead_of_linear h0 hla ((linear_of_translate hla ht).trans (Res.bind_of_error hexit))
  have hoperand : s.readRM p .w16 (.mem m) = _ := (Res.bind_of_ok (memOperand_eq (.inl hl) m)).trans hread
  exact finish_of_vmExit hv (Res.bind_of_error (Res.bind_of_error hoperand))

/-- A virtualized access reaches the virtual-APIC page. -/
theorem linear_of_virtualized (h : v.ctl.virtualizeApicAccesses = true) (hla : s.canonical la = true)
    (ht : s.translate a la = .ok pa) (hpage : pa / 4096 = v.ctl.apicAccessAddr.toNat / 4096)
    (hin : apicVirtualized v.ctl a (pa % 4096) = true) (hbase : v.ctl.virtualApicAddr.toNat < 2 ^ s.cfg.maxPA)
    (hpa : 12 ≤ s.cfg.maxPA) : s.linear a la = .ok (v.ctl.virtualApicAddr.toNat / 4096 * 4096 + pa % 4096) := by
  have hredirect := (apicRedirect_of_page hv h hpage).trans (if_pos hin)
  exact (linear_of_translate hla ht).trans ((Res.bind_of_ok hredirect).trans
    (Res.bind_of_ok (checkPa_of_page hbase hpa (Nat.mod_lt _ (by decide)))))

/-- MOV from CR8 with the TPR shadow. -/
theorem exec_movRCr8_of_guest (h0 : s.ss.dpl = 0) (h : v.ctl.useTprShadow = true) (r : Reg) :
    exec (.movRCr 8 r) s =
      .next (s.freeStatus.setReg r ((s.byteAt v.ctl.tprAt).setWidth 64 >>> 4)).toNext := by
  refine exec_movRCr h0 (congrArg some ?_)
  rw [State.readCr8, tprShadow_some hv h]

end State

/-- Settles O55: the instructions and INIT are each one VM exit (`State.vmExit_of_guest`); an access to the APIC-access page is
`State.apicRedirect_of_page`. -/
theorem vmExits : Obligations.VmExits := by
  intro s v hv
  refine ⟨fun hl => ?_, fun hl => ?_, State.exec_getsec_of_guest hv, State.step_init_of_guest hv, ?_, ?_, ?_⟩
  · exact ⟨State.vmEntry_of_guest hv hl true, State.vmEntry_of_guest hv hl false⟩
  · exact ⟨State.vmEntry_of_compat_guest hv hl true, State.vmEntry_of_compat_guest hv hl false⟩
  · intro p m pa hl h0 h hla ht hpage hout
    exact State.exec_verr_of_guest hv hl h0 h hla ht hpage hout
  · intro a la pa h hla ht hpage hbase hpa hfetch htpr hlo hhi
    exact State.linear_of_virtualized hv h hla ht hpage (apicVirtualized_tpr hfetch htpr hlo hhi) hbase hpa
  · intro r h0 htpr
    exact State.exec_movRCr8_of_guest hv h0 htpr r

/-! ### CR0, CR4 and ports (R270, R271, R273, R298) -/

theorem ioQualification_eq (width : Nat) (isIn imm : Bool) (port : Half) :
    ioQualification width isIn imm port =
      BitVec.ofNat 64 (width - 1) ||| ((if isIn then (8 : Word) else 0) ||| if imm then (0x40 : Word) else 0) |||
        (port.setWidth 64 <<< 16) := by
  rw [ioQualification, BitVec.or_assoc (BitVec.ofNat 64 (width - 1))]
  cases isIn <;> cases imm <;> rfl

namespace State
variable {s : State} {c : VmcsControls} {port : Half} {width : Nat}

/-- Without the I/O bitmaps. -/
theorem ioExits_plain (h : c.useIoBitmaps = false) : s.ioExits c port width = c.ioExiting := if_neg (Bool.eq_false_iff.1 h)

/-- With the I/O bitmaps. -/
theorem ioExits_iff (h : c.useIoBitmaps = true) :
    s.ioExits c port width = true ↔ 0x10000 < port.toNat + width ∨ ∃ k, k < width ∧ s.ioBit c (port.toNat + k) = true := by
  rw [State.ioExits, h, if_pos rfl, Bool.or_eq_true, decide_eq_true_iff, List.any_eq_true]
  simp only [List.mem_range]

variable {v : Vmcs} (hv : s.vmx = .nonRoot v)
include hv

/-- A guest reads CR0 and CR4 with the bits of the shadow under the mask. -/
theorem readCr_of_guest :
    s.readCr 0 = some (mergeBits s.cr0 v.ctl.cr0Mask v.ctl.cr0Shadow) ∧
    s.readCr 4 = some (mergeBits s.cr4 v.ctl.cr4Mask v.ctl.cr4Shadow) := by
  have h0 : s.readCr0 = mergeBits s.cr0 v.ctl.cr0Mask v.ctl.cr0Shadow := by rw [State.readCr0, hv]
  have h4 : s.readCr4 = mergeBits s.cr4 v.ctl.cr4Mask v.ctl.cr4Shadow := by rw [State.readCr4, hv]
  exact ⟨congrArg some h0, congrArg some h4⟩

section
variable {r : Reg} (h0 : s.ss.dpl = 0)
include h0

/-- A part of a MOV to CR0 or CR4 that a guest reaches. -/
theorem finish_guestCrWrite_exits {n x old : Word} {mask shadow : VmcsControls → Word} {next : Word → Res State}
    (h : (x ^^^ shadow v.ctl) &&& mask v.ctl ≠ 0) :
    finish s (s.requireCpl0 >>= fun _ => s.guestCrWrite n r x old mask shadow >>= next) =
      .next (exited s v 28 (crQualification n r) 0 0) := by
  have hwrite : s.guestCrWrite n r x old mask shadow = .error (.vmExit 28 (crQualification n r)) := by
    rw [State.guestCrWrite, hv]
    exact if_pos (bne_iff_ne.2 h)
  exact finish_of_vmExit hv ((Res.bind_of_ok (requireCpl0_ok h0)).trans (Res.bind_of_error hwrite))

/-- Where the masked bits are those of the shadow, the value with the bits of the register under the mask is checked. -/
theorem finish_guestCrWrite_merges {n x old : Word} {mask shadow : VmcsControls → Word} {t : Word → State} {ok : Word → Bool}
    (h : (x ^^^ shadow v.ctl) &&& mask v.ctl = 0) :
    finish s (s.requireCpl0 >>= fun _ => s.guestCrWrite n r x old mask shadow >>= fun w =>
        raiseIf (!ok w) (excGp 0) >>= fun _ => .ok (t w)) =
      if ok (mergeBits x (mask v.ctl) old) then .next (t (mergeBits x (mask v.ctl) old)) else s.takeException (excGp 0) := by
  have hwrite : s.guestCrWrite n r x old mask shadow = .ok (mergeBits x (mask v.ctl) old) := by
    rw [State.guestCrWrite, hv]
    exact if_neg fun hne => bne_iff_ne.1 hne h
  rw [hwrite]
  refine (finish_cpl0_raiseIf h0 _ _).trans (if_congr ?_ rfl rfl)
  rw [Bool.not_eq_false']

theorem exec_movCr0R_exits (h : (s.reg r ^^^ v.ctl.cr0Shadow) &&& v.ctl.cr0Mask ≠ 0) :
    exec (.movCr0R r) s = .next (exited s v 28 (crQualification 0 r) 0 0) :=
  finish_guestCrWrite_exits (mask := (·.cr0Mask)) (shadow := (·.cr0Shadow)) hv h0 h

theorem exec_movCr4R_exits (h : (s.reg r ^^^ v.ctl.cr4Shadow) &&& v.ctl.cr4Mask ≠ 0) :
    exec (.movCr4R r) s = .next (exited s v 28 (crQualification 4 r) 0 0) :=
  finish_guestCrWrite_exits (mask := (·.cr4Mask)) (shadow := (·.cr4Shadow)) hv h0 h

theorem exec_movCr0R_of_guest (h : (s.reg r ^^^ v.ctl.cr0Shadow) &&& v.ctl.cr0Mask = 0) {w : Word}
    (hw : w = mergeBits (s.reg r) v.ctl.cr0Mask s.cr0) :
    exec (.movCr0R r) s = if s.cr0WriteOk w then .next (s.freeStatus.setCr0 (cr0Of w)).toNext else s.takeException (excGp 0) := by
  subst hw
  exact finish_guestCrWrite_merges (mask := (·.cr0Mask)) (shadow := (·.cr0Shadow)) hv h0 h

theorem exec_movCr4R_of_guest (h : (s.reg r ^^^ v.ctl.cr4Shadow) &&& v.ctl.cr4Mask = 0) {w : Word}
    (hw : w = mergeBits (s.reg r) v.ctl.cr4Mask s.cr4) :
    exec (.movCr4R r) s =
      if s.cr4WriteOk w then .next ((s.freeStatus.setCr4 w).setTlb (s.tlbAfterCr4 w)).toNext else s.takeException (excGp 0) := by
  subst hw
  exact finish_guestCrWrite_merges (mask := (·.cr4Mask)) (shadow := (·.cr4Shadow)) hv h0 h

/-- A port access of ring 0 that the controls exit for; `how` is direction and immediate form. -/
theorem finish_checkIo_exits {isIn imm : Bool} {how : Word} {next : Unit → Res State} (h : s.ioExits v.ctl port width = true)
    (hhow : ((if isIn then (8 : Word) else 0) ||| if imm then (0x40 : Word) else 0) = how) :
    finish s (s.checkIo width isIn imm port >>= next) =
      .next (exited s v 30 (BitVec.ofNat 64 (width - 1) ||| how ||| (port.setWidth 64 <<< 16)) 0 0) := by
  have h3 : s.ss.dpl ≠ 3 := by rw [h0]; decide
  have hcheck : s.checkIo width isIn imm port = .error (.vmExit 30 (ioQualification width isIn imm port)) := by
    refine (Res.bind_of_ok (rejectCpl3_ok h3)).trans ?_
    rw [hv]
    exact if_pos h
  rw [← hhow, ← ioQualification_eq]
  exact finish_of_vmExit hv (Res.bind_of_error hcheck)

end

end State

/-! ### Exceptions (R374, R423) -/

theorem contributory_iff (vector : BitVec 8) : contributory vector = true ↔ vector.toNat ∈ [0, 10, 11, 12, 13, 14] := by
  rw [contributory, List.contains_iff_mem]

namespace State
variable {s : State} {v : Vmcs} {e : Event} {x : Exc} {b : Bool}

/-- CR2 takes the address of a page fault and keeps its value otherwise (R31). -/
theorem noteCr2_eq (s : State) (x : Exc) : s.noteCr2 x = { s with cr2 := x.cr2.getD s.cr2 } := by
  rw [State.noteCr2]
  cases x.cr2 <;> rfl

/-- A delivery that the checks of its event stop with the exception `x`. -/
theorem deliver_of_plan_raises (hfred : bit s.cr4 32 = false) (hplan : s.plan e = .error (.exc x)) (hexit : s.eventExits e b = false) :
    s.deliver e b = s.orExit x fun u =>
      if e.kind = .exception ∧ e.vector = 8 then .next u.tripleFault
      else if e.kind = .exception ∧ contributory e.vector = true ∧ contributory x.vector = true then u.deliverDf
      else u.deliverNested x (decide (e.kind ≠ .softInt)) := by
  have hoff : s.fred = false := hfred
  have honce : s.deliverOnce e = .error (.exc x, s) := by
    simp only [State.deliverOnce, hoff, hplan, Bool.false_eq_true, if_false]
  simp only [State.deliver, hexit, honce, Bool.false_eq_true, if_false]

/-- Where that exception makes no exit: a triple fault, #DF, or its own delivery (R423, R430). -/
theorem deliver_of_nested {t : State} (hfred : bit s.cr4 32 = false) (hplan : s.plan e = .error (.exc x))
    (hexit : s.eventExits e b = false) (hstays : s.eventExits (x.event false s.rip) true = false)
    (ht : t = { s with cr2 := x.cr2.getD s.cr2 }) :
    s.deliver e b =
      if e.kind = .exception ∧ e.vector = 8 then .next t.tripleFault
      else if e.kind = .exception ∧ e.vector.toNat ∈ [0, 10, 11, 12, 13, 14] ∧ x.vector.toNat ∈ [0, 10, 11, 12, 13, 14] then
        t.deliverDf
      else t.deliverNested x (decide (e.kind ≠ .softInt)) := by
  rw [deliver_of_plan_raises hfred hplan hexit]
  refine (if_neg (Bool.eq_false_iff.1 hstays)).trans ?_
  rw [noteCr2_eq, ← ht]
  exact if_congr Iff.rfl rfl (if_congr (and_congr_right' (and_congr (contributory_iff _) (contributory_iff _))) rfl rfl)

/-- A nested exception that reaches its handler is taken as any other event. -/
theorem deliverNested_handled {p : Plan} {ext : Bool} (hw : s.memWf = true) (h : reachesHandler s (x.event ext s.rip) p) :
    handled s (x.event ext s.rip) p (s.deliverNested x ext) := by
  have hsame : s.deliverNested x ext = s.deliver (x.event ext s.rip) false := by
    rw [State.deliverNested, State.deliver, eventExits_of_not_bitmapped, deliverOnce_of_reachesHandler h]
    rfl
  rw [hsame]
  exact deliver_handled hw (eventExits_of_not_bitmapped _ _) h

variable (hv : s.vmx = .nonRoot v)
include hv

/-- The exception bitmap (R374). -/
theorem eventExits_of_guest (e : Event) (b : Bool) :
    s.eventExits e b = (b && decide (e.vector.toNat < 32) && v.ctl.exceptionBitmap.getLsbD e.vector.toNat) := by
  rw [State.eventExits, hv]

theorem eventExits_of_set (hlt : e.vector.toNat < 32) (hbit : v.ctl.exceptionBitmap.getLsbD e.vector.toNat = true) :
    s.eventExits e true = true := by rw [eventExits_of_guest hv, hbit, decide_eq_true hlt]; rfl

theorem eventExits_of_clear (h : b = false ∨ 32 ≤ e.vector.toNat ∨ v.ctl.exceptionBitmap.getLsbD e.vector.toNat = false) :
    s.eventExits e b = false := by
  rw [eventExits_of_guest hv]
  obtain rfl | hge | hclear := h
  · rfl
  · rw [decide_eq_false (not_lt.2 hge), Bool.and_false, Bool.false_and]
  · rw [hclear, Bool.and_false]

/-- INT3, INTO and INT1, which have no error code, exit where the bit of their vector is set; `info` is the interruption information. -/
theorem deliver_exits {vector : BitVec 8} {kind : EventKind} {info : DWord} (hlt : vector.toNat < 32)
    (hbit : v.ctl.exceptionBitmap.getLsbD vector.toNat = true)
    (hinfo : vector.setWidth 32 ||| (kind.infoType <<< 8) ||| 0 ||| 0x80000000 = info) (ext : Bool) (rip : Word) :
    s.deliver ⟨vector, kind, ext, none, rip⟩ true = .next (exited s v 0 0 info 0) := by
  rw [State.deliver, if_pos (eventExits_of_set hv hlt hbit), State.exitOnEvent, vmExit_of_guest hv, ← hinfo]
  rfl

/-- An exception whose bit is set exits. -/
theorem orExit_of_set (hlt : x.vector.toNat < 32) (hbit : v.ctl.exceptionBitmap.getLsbD x.vector.toNat = true)
    (go : State → Host.Outcome State Fault Refusal) :
    s.orExit x go = .next (exited s v 0 (x.cr2.getD 0)
      (x.vector.setWidth 32 ||| 0x300 ||| (if x.err.isSome then 0x800 else 0) ||| 0x80000000) (x.err.getD 0)) := by
  have hexits : s.eventExits (x.event false s.rip) true = true := eventExits_of_set hv hlt hbit
  rw [State.orExit]
  refine (if_pos hexits).trans ?_
  rw [State.exitOnEvent, vmExit_of_guest hv]
  rfl

/-- A triple fault of a guest (R423). -/
theorem tripleFault_of_guest : s.tripleFault = exited s v 2 0 0 0 := by
  rw [State.tripleFault, nonRoot_of_guest hv, if_pos rfl, vmExit_of_guest hv]

/-- A double fault of a guest whose bit is set. -/
theorem deliverDf_exits (hbit : v.ctl.exceptionBitmap.getLsbD 8 = true) : s.deliverDf = .next (exited s v 0 0 0x80000B08 0) :=
  orExit_of_set (x := doubleFault) hv (by decide) hbit _

end State

/-- Settles O56: the masks and shadows are `guestCrWrite` and `readCr`, ports `checkIo`, exceptions `orExit` or the start of `deliver`; an
exception in a delivery is `deliver_of_plan_raises`. -/
theorem guestExits : Obligations.GuestExits := by
  intro s v hv
  refine ⟨?_, ?_, fun port width => ⟨State.ioExits_plain, State.ioExits_iff⟩, State.exec_cpuid_of_guest hv,
    fun x hlt hbit => State.orExit_of_set hv hlt hbit _, ?_, fun hbit => ?_, fun hbit hl ho => ?_, fun hbit => ?_⟩
  · rintro _ r new0 new4 h0 rfl hnew0 hnew4
    obtain ⟨hread0, hread4⟩ := State.readCr_of_guest hv
    refine ⟨State.exec_movCr0R_exits hv h0, fun heq => ?_, State.exec_movCr4R_exits hv h0, fun heq => ?_,
      State.exec_movRCr h0 hread0, State.exec_movRCr h0 hread4⟩
    · have mov := State.exec_movCr0R_of_guest hv h0 heq hnew0
      exact ⟨fun hok => mov.trans (if_pos ((s.cr0WriteOk_iff _).2 hok)),
        fun hbad => mov.trans (if_neg (mt (s.cr0WriteOk_iff _).1 hbad))⟩
    · have mov := State.exec_movCr4R_of_guest hv h0 heq hnew4
      exact ⟨fun hok => mov.trans (if_pos hok), fun hbad => mov.trans (if_neg (Bool.eq_false_iff.1 hbad))⟩
  · intro p imm n h0 hn
    obtain rfl : n = (ioSize p).bytes := hn.trans (ioSize_bytes p).symm
    exact ⟨fun h => ⟨State.finish_checkIo_exits hv h0 h rfl, State.finish_checkIo_exits hv h0 h rfl⟩,
      fun h => ⟨State.finish_checkIo_exits hv h0 h rfl, State.finish_checkIo_exits hv h0 h rfl⟩,
      fun h => ⟨State.finish_checkIo_exits hv h0 h rfl, State.finish_checkIo_exits hv h0 h rfl⟩,
      fun h => ⟨State.finish_checkIo_exits hv h0 h rfl, State.finish_checkIo_exits hv h0 h rfl⟩⟩
  · intro e b x t hfred hplan hlt hclear ht
    have hguest : t.vmx = .nonRoot v := by rw [ht]; exact hv
    have hrip : t.rip = s.rip := by rw [ht]
    have hexit : s.eventExits e b = false := State.eventExits_of_clear hv hclear
    refine ⟨fun hbit => ?_, fun hbit => ?_⟩
    · exact (State.deliver_of_plan_raises hfred hplan hexit).trans (State.orExit_of_set hv hlt hbit _)
    have hstays : s.eventExits (x.event false s.rip) true = false := State.eventExits_of_clear hv (.inr (.inr hbit))
    have hnested := State.deliver_of_nested hfred hplan hexit hstays ht
    refine ⟨fun hdouble => ?_, fun hpair hdf => ?_, fun p hw hsingle hunpaired hreach => ?_⟩
    · rw [hnested, if_pos hdouble, State.tripleFault_of_guest hguest]
    · have hsingle : ¬(e.kind = .exception ∧ e.vector = 8) := by
        rintro ⟨-, h8⟩
        obtain ⟨-, he, -⟩ := hpair
        rw [h8] at he
        exact absurd he (by decide)
      rw [hnested, if_neg hsingle, if_pos hpair, State.deliverDf_exits hguest hdf]
    · rw [hnested, if_neg hsingle, if_neg hunpaired]
      rw [← hrip] at hreach ⊢
      exact State.deliverNested_handled (by rw [ht]; exact hw) hreach
  · exact State.deliver_exits (vector := 3) (kind := .softInt) hv (by decide) hbit (by decide) false s.nextRip
  · have hinto : exec .into s = s.deliver (s.softInt 4) true := (if_neg (Bool.eq_false_iff.1 hl)).trans (if_pos ho)
    rw [hinto]
    exact State.deliver_exits (vector := 4) (kind := .softInt) hv (by decide) hbit (by decide) false s.nextRip
  · exact State.deliver_exits (vector := 1) (kind := .int1) hv (by decide) hbit (by decide) true s.nextRip

end Sys2Proof.Machine

/-! # SMX (O57 to O60)

GETSEC is its leaf's meaning behind the common checks (`State.exec_getsec`). ENTERACCS and SENTER are a row of checks, each of which
stops them with #GP(0) or in a shutdown, around the copy of the module into ACRAM (`State.holdsHeader`) and the six stores of the save
area, which are one store (`State.saveSsa_eq`). -/

namespace Sys2Proof.Machine

/-! ## The leaves of GETSEC (R390) -/

namespace State
variable {s : State}

/-- The meaning of each leaf. -/
def leafMeaning (s : State) : Nat → Res State
  | 0 => .ok s.getsecCapabilities
  | 2 => s.enterAccs
  | 3 => s.exitAc
  | 4 => s.enterAccs >>= fun t => .ok (t.setSmx { t.smx with senter := true })
  | 5 => s.sexit
  | 6 => .ok s.getsecParameters
  | 7 => s.smctrl
  | 8 => s.wakeupIlp
  | _ => raiseUd

theorem smxe_ne_false (h : bit s.cr4 14 = true) : ¬s.smxe = false := ne_false_of_eq_true h

theorem exec_getsec_of_smxe_clear (h : bit s.cr4 14 = false) : exec .getsec s = s.takeException excUd :=
  congrArg (finish s) (if_pos h)

theorem exec_getsec_unsupported (hsmx : bit s.cr4 14 = true) (hroot : s.nonRoot = false) (hleaf : s.leaf32 ∉ s.cfg.getsecLeaves) :
    exec .getsec s = s.takeException excUd := by
  refine congrArg (finish s) ((if_neg (smxe_ne_false hsmx)).trans ((if_neg (Bool.eq_false_iff.1 hroot)).trans (if_pos ?_)))
  rwa [Bool.eq_false_iff, ne_eq, List.contains_iff_mem]

/-- A supported leaf, outside non-root operation. -/
theorem exec_getsec (hsmx : bit s.cr4 14 = true) (hroot : s.nonRoot = false) {leaf : Nat} (hleaf : s.leaf32 = leaf)
    (hmem : leaf ∈ s.cfg.getsecLeaves) : exec .getsec s = finish s (s.leafMeaning leaf) := by
  have hsupported : ¬s.cfg.getsecLeaves.contains s.leaf32 = false := by
    rwa [Bool.not_eq_false, List.contains_iff_mem, hleaf]
  refine congrArg (finish s) ((if_neg (smxe_ne_false hsmx)).trans ((if_neg (Bool.eq_false_iff.1 hroot)).trans
    ((if_neg hsupported).trans ?_)))
  rw [hleaf]
  match leaf with
  | 0 | 1 | 2 | 3 | 4 | 5 | 6 | 7 | 8 => rfl
  | n + 9 => simp [leafMeaning]

/-! ## The checks of ENTERACCS and SENTER (R395) -/

theorem cpl0_iff (s : State) : s.cpl0 = true ↔ s.ss.dpl = 0 := beq_iff_eq

theorem inVmx_eq_false_iff (s : State) : s.inVmx = false ↔ s.vmx = .off := by
  rw [Bool.eq_false_iff, ne_eq, inVmx_iff, not_not]

theorem acmPlaceOk_iff (s : State) : s.acmPlaceOk = true ↔ modulePlaced s s.ebx s.ecx := by
  simp only [State.acmPlaceOk, modulePlaced, Bool.and_eq_true, beq_iff_eq, decide_eq_true_eq, and_assoc]

/-- What ENTERACCS and SENTER ask for. -/
def mayEnter (s : State) : Prop :=
  ¬moduleForbidden s ∧ s.machineCheckClear = true ∧ modulePlaced s s.ebx s.ecx ∧ s.txt.secondaryReady = true

theorem enterChecks_ok (h : s.mayEnter) : s.enterChecks = .ok () := by
  obtain ⟨hallowed, hmc, hplace, hready⟩ := h
  simp only [moduleForbidden, not_or, not_not, Bool.not_eq_true, Bool.not_eq_false] at hallowed
  obtain ⟨hvmx, hcd, h0, hbsp, htxt, hac, hsmm⟩ := hallowed
  have hfirst : (s.inVmx || bit s.cr0 30 || !s.cpl0 || !bit s.plat.apicBase 8 || !s.txt.present || s.smx.acMode || s.inSmm) = false := by
    simp [(inVmx_eq_false_iff s).2 hvmx, hcd, (cpl0_iff s).2 h0, hbsp, htxt, hac, hsmm]
  exact (Res.bind_of_ok (raiseIf_pass hfirst)).trans ((Res.bind_of_ok (raiseIf_pass (congrArg not hmc))).trans
    ((Res.bind_of_ok (raiseIf_pass (congrArg not ((acmPlaceOk_iff s).2 hplace)))).trans (raiseIf_pass (congrArg not hready))))

theorem enterChecks_raise
    (h : moduleForbidden s ∨ s.machineCheckClear = false ∨ ¬modulePlaced s s.ebx s.ecx ∨ s.txt.secondaryReady = false) :
    s.enterChecks = raise (excGp 0) := by
  obtain hforbidden | hmc | hplace | hready := h
  · refine Res.bind_of_raise (raiseIf_raise ?_)
    simp only [moduleForbidden, ← inVmx_iff, ne_eq, ← cpl0_iff] at hforbidden
    simpa [or_assoc] using hforbidden
  · exact Res.raiseIf_bind _ (Res.bind_of_raise (raiseIf_raise (congrArg not hmc)))
  · rw [← acmPlaceOk_iff, Bool.not_eq_true] at hplace
    exact Res.raiseIf_bind _ (Res.raiseIf_bind _ (Res.bind_of_raise (raiseIf_raise (congrArg not hplace))))
  · exact Res.raiseIf_bind _ (Res.raiseIf_bind _ (Res.raiseIf_bind _ (raiseIf_raise (congrArg not hready))))

end State

/-- Settles O57: each clause is the first check that fails. -/
theorem getsecChecks : Obligations.GetsecChecks := by
  intro s leaf hleaf
  refine ⟨State.exec_getsec_of_smxe_clear, fun hsmx hroot hmem => State.exec_getsec_unsupported hsmx hroot (by rwa [hleaf] at hmem),
    fun hsmx hroot hmem => ?_⟩
  have hexec := State.exec_getsec hsmx hroot hleaf.symm hmem
  refine ⟨fun henter hbad => ?_, fun h0 => ?_⟩
  · have hstops : s.enterAccs = raise (excGp 0) := Res.bind_of_raise (State.enterChecks_raise hbad)
    obtain h2 | h4 := henter
    · rw [h2] at hexec
      exact hexec.trans (finish_of_raise hstops)
    · rw [h4] at hexec
      exact hexec.trans (finish_of_raise (Res.bind_of_raise hstops))
  · rw [h0] at hexec
    exact hexec

/-! ## EXITAC (R398) -/

namespace State
variable {s : State}

/-- Where EXITAC is allowed. -/
def mayExit (s : State) : Prop :=
  s.vmx = .off ∧ (s.cs.l = true → isCanonical (bit s.cr4 12) (s.reg .rbx) = true) ∧ s.ss.dpl = 0 ∧ s.smx.acMode = true ∧
    s.inSmm = false ∧ s.reg .rdx &&& 0xFFFFFFFF = 0

/-- The first check of EXITAC. -/
theorem exitForbidden_eq_false_iff (s : State) :
    (s.inVmx || (s.mode64 && !s.canonical (s.reg .rbx)) || !s.cpl0 || !s.smx.acMode || s.inSmm || low32 (s.reg .rdx) != 0) = false ↔
      s.mayExit := by
  simp only [Bool.or_eq_false_iff, Bool.and_eq_false_imp, Bool.not_eq_false', bne_eq_false_iff_eq, inVmx_eq_false_iff, cpl0_iff, and_assoc]
  rfl

theorem exitAc_forbidden (h : ¬s.mayExit) : s.exitAc = raise (excGp 0) :=
  Res.bind_of_raise (raiseIf_raise (Bool.ne_false_iff.1 (mt (exitForbidden_eq_false_iff s).1 h)))

/-- The base of the save area is checked next. -/
theorem exitAc_badBase (h : (s.reg .r8).toNat % 64 ≠ 0 ∨ 2 ^ s.cfg.maxPA ≤ (s.reg .r8).toNat) : s.exitAc = raise (excGp 0) := by
  refine Res.raiseIf_bind _ (Res.bind_of_raise (raiseIf_raise ?_))
  simpa using h

/-- The six slots of a save area. -/
structure SsaSlots where
  rip : Word
  rsp : Word
  cr4 : Word
  cr3 : Word
  config : Word
  levels : Word

/-- What the save area at `a` holds. -/
structure SsaHolds (s : State) (a : Nat) (v : SsaSlots) : Prop where
  offsets : s.cfg.ssaOffsets = [0, 8, 16, 24, 32, 40]
  rip : s.physRead8 a = .ok v.rip
  rsp : s.physRead8 (a + 8) = .ok v.rsp
  cr4 : s.physRead8 (a + 16) = .ok v.cr4
  cr3 : s.physRead8 (a + 24) = .ok v.cr3
  config : s.physRead8 (a + 32) = .ok v.config
  levels : s.physRead8 (a + 40) = .ok v.levels

/-- The slots that EXITAC accepts. -/
def ssaLegal (s : State) (v : SsaSlots) : Prop :=
  v.cr3.toNat < 2 ^ s.cfg.maxPA ∧ isCanonical (bit v.cr4 12) v.rip = true ∧ isCanonical (bit v.cr4 12) v.rsp = true ∧
    v.cr4 &&& s.cfg.cr4MaskConst = 0 ∧ s.cr4Reserved v.cr4 = false ∧ v.config &&& s.cfg.fredConfigReserved = 0 ∧
    isCanonical (bit v.cr4 12) v.config = true

theorem cr3Reserved_eq_false_iff (s : State) (v : Word) : s.cr3Reserved v = false ↔ v.toNat < 2 ^ s.cfg.maxPA := by
  rw [State.cr3Reserved, decide_eq_false_iff_not, not_le]

/-- The check of the slots, as EXITAC makes it. -/
def ssaIllegal (s : State) (v : SsaSlots) : Bool :=
  s.cr3Reserved v.cr3 || !isCanonical (bit v.cr4 12) v.rip || !isCanonical (bit v.cr4 12) v.rsp || v.cr4 &&& s.cfg.cr4MaskConst != 0 ||
    s.cr4Reserved v.cr4 || v.config &&& s.cfg.fredConfigReserved != 0 || !isCanonical (bit v.cr4 12) v.config

theorem ssaIllegal_eq_false_iff (s : State) (v : SsaSlots) : s.ssaIllegal v = false ↔ s.ssaLegal v := by
  simp only [ssaIllegal, Bool.or_eq_false_iff, Bool.not_eq_false', bne_eq_false_iff_eq, cr3Reserved_eq_false_iff, ssaLegal, and_assoc]

/-- The state after EXITAC with the slots `v`. -/
def leftModule (s : State) (v : SsaSlots) : State :=
  let t := ((((s.setAcram []).setTlb Tlb.empty).signal .closeLocality3).signal .lockSMRAM).signal .processorRelease
  let t := t.setSmx s.exitMasks
  let t := ((t.setCr3 v.cr3).setCr4 v.cr4).setReg .rsp v.rsp
  let t := t.setPlat { s.plat with fredConfig := v.config, fredStkLvls := v.levels }
  t.setRip v.rip

theorem leftModule_eq (s : State) (v : SsaSlots) : s.leftModule v = { s with
    acram := [], tlb := Tlb.empty, cr3 := v.cr3, cr4 := v.cr4, rip := v.rip, gpr := s.gpr.set .rsp v.rsp
    plat := { s.plat with fredConfig := v.config, fredStkLvls := v.levels }
    txt := { s.txt with messages := .processorRelease :: .lockSMRAM :: .closeLocality3 :: s.txt.messages }
    smx := s.exitMasks } := by
  simp only [leftModule, State.setRip, State.setPlat, State.setReg, State.setGpr, State.setCr4, State.setCr3, State.setSmx,
    State.signal, State.setTxt, State.setTlb, State.setAcram]

/-- EXITAC from a save area at a legal address. -/
theorem exitAc_eq {a : Nat} {v : SsaSlots} (hmay : s.mayExit) (ha : a = (s.reg .r8).toNat) (h64 : a % 64 = 0) (hpa : a < 2 ^ s.cfg.maxPA)
    (h : s.SsaHolds a v) : s.exitAc =
      raiseIf (s.ssaIllegal v) (excGp 0) >>= fun _ =>
      if cr4FixedOk v.cr4 = false then .error (.refuse .exitacFixedBits) else .ok (s.leftModule v) := by
  have hbase : (a % 64 != 0 || decide (2 ^ s.cfg.maxPA ≤ a)) = false := by simpa using ⟨h64, hpa⟩
  have hslot : ∀ k, s.ssaRead a k = s.physRead8 (a + [0, 8, 16, 24, 32, 40].getD k 0) := fun k => by
    rw [State.ssaRead, State.ssaSlot, h.offsets]
  have h0 : s.ssaRead a 0 = .ok v.rip := (hslot 0).trans h.rip
  have h1 : s.ssaRead a 1 = .ok v.rsp := (hslot 1).trans h.rsp
  have h2 : s.ssaRead a 2 = .ok v.cr4 := (hslot 2).trans h.cr4
  have h3 : s.ssaRead a 3 = .ok v.cr3 := (hslot 3).trans h.cr3
  have h4 : s.ssaRead a 4 = .ok v.config := (hslot 4).trans h.config
  have h5 : s.ssaRead a 5 = .ok v.levels := (hslot 5).trans h.levels
  subst ha
  exact (Res.bind_of_ok (raiseIf_pass ((exitForbidden_eq_false_iff s).2 hmay))).trans ((Res.bind_of_ok (raiseIf_pass hbase)).trans
    ((Res.bind_of_ok h0).trans ((Res.bind_of_ok h1).trans ((Res.bind_of_ok h2).trans ((Res.bind_of_ok h3).trans
      ((Res.bind_of_ok h4).trans (Res.bind_of_ok h5)))))))

/-- The masks that EXITAC leaves, each by itself. -/
theorem exitMasks_eq (s : State) : s.exitMasks = { s.smx with
    maskInit := false, acMode := false
    maskSmi := s.smx.maskSmi && s.smx.senter && bit s.plat.smmMonitorCtl 0
    maskNmi := s.smx.maskNmi && s.smx.senter
    maskA20m := s.smx.maskA20m && s.smx.senter } := by
  unfold State.exitMasks
  cases hsenter : s.smx.senter
  · simp
  · cases hsmi : bit s.plat.smmMonitorCtl 0 <;> simp

end State

/-- Settles O59: the checks of EXITAC in their order, and `State.leftModule` where all of them pass. -/
theorem exitModule : Obligations.ExitModule := by
  intro s a rip rsp cr4 cr3 config levels hrax hmem hsmx hroot ha
  have hleaf : s.leaf32 = 3 := congrArg BitVec.toNat hrax
  have hexec : exec .getsec s = finish s s.exitAc := State.exec_getsec hsmx hroot hleaf hmem
  refine ⟨fun hforbidden => ?_, fun hvmx hrbx h0 hac hsmm hrdx hoffsets => ?_⟩
  · refine hexec.trans (finish_of_raise (State.exitAc_forbidden ?_))
    simp only [State.mayExit, not_and_or, Classical.not_imp, Bool.not_eq_true, Bool.not_eq_false]
    exact hforbidden
  have hmay : s.mayExit := ⟨hvmx, hrbx, h0, hac, hsmm, hrdx⟩
  refine ⟨fun hbase => hexec.trans (finish_of_raise (State.exitAc_badBase (ha ▸ hbase))), ?_⟩
  intro h64 hpa hrip hrsp hcr4 hcr3 hconfig hlevels
  have hexit := State.exitAc_eq hmay ha h64 hpa (v := ⟨rip, rsp, cr4, cr3, config, levels⟩)
    ⟨hoffsets, hrip, hrsp, hcr4, hcr3, hconfig, hlevels⟩
  have hlegal := State.ssaIllegal_eq_false_iff s ⟨rip, rsp, cr4, cr3, config, levels⟩
  refine ⟨fun hbad => ?_, fun hok hbits => ?_, fun hok hbits => ?_⟩ <;> rw [hexec, hexit]
  · exact finish_of_raise (Res.bind_of_raise (raiseIf_raise (Bool.ne_false_iff.1 (mt hlegal.1 hbad))))
  · have hfixed : cr4FixedOk cr4 = false := Bool.eq_false_iff.2 (mt (cr4FixedOk_iff cr4).1 hbits)
    rw [Res.bind_of_ok (raiseIf_pass (hlegal.2 hok)), if_pos hfixed]
    rfl
  · have hfixed : ¬cr4FixedOk cr4 = false := ne_false_of_eq_true ((cr4FixedOk_iff cr4).2 hbits)
    rw [Res.bind_of_ok (raiseIf_pass (hlegal.2 hok)), if_neg hfixed, finish_ok, State.leftModule_eq, State.exitMasks_eq]

/-! ## The other leaves, the wake-up and STM activation (R373, R399, R400) -/

namespace State
variable {s : State}

theorem inSenter_iff (s : State) : s.inSenter = true ↔ s.vmx = .off ∧ s.ss.dpl = 0 ∧ bit s.plat.apicBase 8 = true ∧
    s.txt.present = true ∧ s.smx.senter = true ∧ s.smx.acMode = false ∧ s.inSmm = false := by
  simp only [State.inSenter, Bool.and_eq_true, Bool.not_eq_true', inVmx_eq_false_iff, cpl0_iff, and_assoc]

/-- A meaning that SEXIT and WAKEUP put behind their check. -/
theorem senterCheck_raise {next : Unit → Res State} (h : s.inSenter = false) :
    raiseIf (!s.inSenter) (excGp 0) >>= next = raise (excGp 0) := Res.bind_of_raise (raiseIf_raise (congrArg not h))

theorem senterCheck_pass {next : Unit → Res State} (h : s.inSenter = true) :
    raiseIf (!s.inSenter) (excGp 0) >>= next = next () := Res.bind_of_ok (raiseIf_pass (congrArg not h))

theorem smctrl_eq (s : State) : s.smctrl =
    if s.ss.dpl = 0 ∧ s.reg .rbx &&& 0xFFFFFFFF = 0 ∧ s.smx.senter = true ∧ s.smx.acMode = false ∧ s.inSmm = false ∧
      (s.vmx = .off ∨ bit s.plat.smmMonitorCtl 0 = false)
    then .ok (s.setSmx { s.smx with maskSmi := false }).toNext else raise (excGp 0) := by
  have hebx : s.ebx = 0 ↔ s.reg .rbx &&& 0xFFFFFFFF = 0 := BitVec.toNat_inj (y := 0)
  refine (raiseIf_bind_ite raiseIf_bind_ok).trans (if_congr ?_ rfl rfl)
  simp only [Bool.not_eq_false', Bool.and_eq_true, Bool.or_eq_true, Bool.not_eq_true', beq_iff_eq, inVmx_eq_false_iff, cpl0_iff, hebx,
    and_assoc]

/-- The JOIN structure that the wake-up reads. -/
def joinLegal (s : State) (rip cr3 cr4 : Word) : Prop :=
  cr3.toNat < 2 ^ s.cfg.maxPA ∧ isCanonical (bit cr4 12) rip = true ∧ cr4 &&& s.cfg.cr4ReservedBitMask = 0 ∧ s.cr4Reserved cr4 = false

theorem joinIllegal_iff (s : State) (rip cr3 cr4 : Word) :
    (s.cr3Reserved cr3 = true ∨ isCanonical (bit cr4 12) rip = false ∨ cr4 &&& s.cfg.cr4ReservedBitMask ≠ 0 ∨ s.cr4Reserved cr4 = true) ↔
      ¬s.joinLegal rip cr3 cr4 := by
  simp only [joinLegal, ← cr3Reserved_eq_false_iff, not_and_or, Bool.not_eq_false, Bool.not_eq_true, ne_eq]

/-- The processor as the wake-up leaves it, whether it starts or shuts down (R399). -/
def woken (s : State) : State := (s.setSmx s.wakeMasks).setTlb Tlb.empty

/-- The processor that starts from the JOIN structure. -/
def started (s : State) (rip cr3 cr4 : Word) : State :=
  (((s.woken.setCr3 cr3).setCr4 (cr4Of cr4)).setRip rip).setActivity .running

theorem started_eq (s : State) (rip cr3 cr4 : Word) : s.started rip cr3 cr4 =
    { s.woken with cr3 := cr3, cr4 := (cr4 ||| 0x20) &&& ~~~(2 : Word), rip := rip, activity := .running } := by
  simp only [started, State.setCr3, State.setCr4, State.setRip, State.setActivity, cr4Of]

theorem rlpWake_eq {rip cr3 cr4 : Word} (hilp : bit s.plat.smmMonitorCtl 0 = s.txt.ilpSmmMonitorCtl0)
    (h0 : s.physRead8 s.txt.mleJoin.toNat = .ok rip) (h8 : s.physRead8 (s.txt.mleJoin.toNat + 8) = .ok cr3)
    (h16 : s.physRead8 (s.txt.mleJoin.toNat + 16) = .ok cr4) :
    (¬s.joinLegal rip cr3 cr4 → s.rlpWake = .ok (s.woken.txtShutdown .badJOINFormat)) ∧
    (s.joinLegal rip cr3 cr4 → s.rlpWake = .ok (s.started rip cr3 cr4)) := by
  have h0 : s.joinField 0 = .ok rip := h0
  have hread : s.rlpWake = _ :=
    (if_neg (not_not_intro hilp)).trans ((Res.bind_of_ok h0).trans ((Res.bind_of_ok h8).trans (Res.bind_of_ok h16)))
  exact ⟨fun hbad => hread.trans (if_pos ((joinIllegal_iff ..).2 hbad)),
    fun hok => hread.trans (if_neg (mt (joinIllegal_iff ..).1 (not_not_intro hok)))⟩

end State

/-- Settles O60: SEXIT and WAKEUP are one check (`State.inSenter_iff`), SMCTRL another; the wake-up is what it reads of the JOIN structure
(`State.rlpWake_eq`), and STM activation is one update. -/
theorem otherSmxFlows : Obligations.OtherSmxFlows := by
  refine ⟨?_, ?_, fun s hdue => ?_⟩
  · rintro s _ leaf hleaf hsmx hroot hmem rfl
    have hexec := State.exec_getsec hsmx hroot hleaf.symm hmem
    refine ⟨fun h5 henv => ?_, fun h8 henv => ?_, fun h58 henv => ?_, fun h6 => ?_, fun h7 hsmi => ?_, fun h7 hsmi => ?_⟩
    · rw [h5] at hexec
      exact hexec.trans (finish_of_ok (State.senterCheck_pass ((s.inSenter_iff).2 henv)))
    · rw [h8] at hexec
      exact hexec.trans (finish_of_ok (State.senterCheck_pass ((s.inSenter_iff).2 henv)))
    · have hout : s.inSenter = false := Bool.eq_false_iff.2 (mt (s.inSenter_iff).1 henv)
      obtain h5 | h8 := h58
      · rw [h5] at hexec
        exact hexec.trans (finish_of_raise (State.senterCheck_raise hout))
      · rw [h8] at hexec
        exact hexec.trans (finish_of_raise (State.senterCheck_raise hout))
    · rw [h6] at hexec
      exact hexec
    · rw [h7] at hexec
      exact hexec.trans (finish_of_ok (s.smctrl_eq.trans (if_pos hsmi)))
    · rw [h7] at hexec
      exact hexec.trans (finish_of_raise (s.smctrl_eq.trans (if_neg hsmi)))
  · rintro s t u _ rip cr3 cr4 hdue ht rfl hu
    have hstep : step s = finish t t.rlpWake := by rw [step, hdue, ht]; rfl
    have hwoken : t.woken = u := by rw [hu, ht]; rfl
    refine ⟨fun hilp => ?_, fun hilp h0 h8 h16 => ?_⟩
    · rw [hstep, ht]
      exact finish_of_ok (if_pos hilp)
    · obtain ⟨hstops, hstarts⟩ := State.rlpWake_eq (s := t) (by rw [ht]; exact hilp) (by rw [ht]; exact h0) (by rw [ht]; exact h8)
        (by rw [ht]; exact h16)
      rw [hwoken] at hstops
      rw [State.started_eq, hwoken] at hstarts
      rw [ht] at hstops hstarts
      rw [hstep, ht]
      exact ⟨fun hbad => finish_of_ok (hstops hbad), fun hok => finish_of_ok (hstarts hok)⟩
  · rw [step, hdue]
    rfl

/-! ## Bytes and quadwords of physical memory (R90, R93) -/

theorem leNat_lt (bs : List Byte) : leNat bs < 256 ^ bs.length := by
  induction bs with
  | nil => exact Nat.one_pos
  | cons b bs ih =>
    have hb : b.toNat < 256 := b.isLt
    rw [leNat, List.length_cons, Nat.pow_succ]
    omega

theorem leNat_leBytes (n : Nat) (v : Word) : leNat (leBytes n v) = v.toNat % 256 ^ n := by
  induction n generalizing v with
  | zero => exact (Nat.mod_one _).symm
  | succ n ih =>
    rw [leBytes, leNat, ih, BitVec.toNat_setWidth, BitVec.toNat_ushiftRight, Nat.shiftRight_eq_div_pow, Nat.pow_succ' (m := 256)]
    exact (Nat.mod_mul (x := v.toNat) (a := 256)).symm

@[simp] theorem leWord_leBytes (v : Word) : leWord (leBytes 8 v) = v := by
  rw [leWord, leNat_leBytes, Nat.mod_eq_of_lt (show v.toNat < 256 ^ 8 from v.isLt), BitVec.ofNat_toNat, BitVec.setWidth_eq]

/-- The bytes that a list of bytes leaves in memory, and the bytes around them. -/
theorem Memory.read_writeFrom (bs : List Byte) (m : List Host.Cell) (a c : Nat) (h : Memory.wf m = true) :
    Memory.read (Memory.writeFrom m a bs) c = if a ≤ c ∧ c < a + bs.length then bs.getD (c - a) 0 else Memory.read m c := by
  induction bs generalizing m a with
  | nil => exact (if_neg (by simp)).symm
  | cons b bs ih =>
    rw [Memory.writeFrom, ih _ _ (Memory.wf_write m a b h), List.length_cons]
    obtain hlt | rfl | hgt := Nat.lt_trichotomy c a
    · rw [if_neg (by omega), if_neg (by omega), Memory.read_write_other _ _ _ _ (by omega) h]
    · rw [if_neg (by omega), if_pos (by omega), Memory.read_write_same _ _ _ h, Nat.sub_self, List.getD_cons_zero]
    · obtain ⟨k, rfl⟩ := Nat.exists_eq_add_of_lt hgt
      rw [show a + k + 1 - a = k + 1 from by omega, show a + k + 1 - (a + 1) = k from by omega, List.getD_cons_succ]
      refine if_congr (by omega) rfl (Memory.read_write_other _ _ _ _ (by omega) h)

/-- The copy of a module reads as the module, and as unlisted around it (R396). -/
theorem read_copyCells (mem : List Host.Cell) (n src dst c : Nat) :
    Memory.read (copyCells mem src dst n) c = if dst ≤ c ∧ c < dst + n then Memory.read mem (src + (c - dst)) else unlistedByte := by
  induction n generalizing src dst with
  | zero => exact (if_neg (by omega)).symm
  | succ n ih =>
    have hrest := ih (src + 1) (dst + 1)
    obtain rfl | hne := eq_or_ne dst c
    · rw [if_pos (by omega), Nat.sub_self, Nat.add_zero, copyCells]
      split
      · next hzero => rw [hrest, if_neg (by omega)]; exact hzero.symm
      · exact if_pos rfl
    · have htail : Memory.read (copyCells mem src dst (n + 1)) c = Memory.read (copyCells mem (src + 1) (dst + 1) n) c := by
        rw [copyCells]
        split
        · rfl
        · exact if_neg hne
      rw [htail, hrest]
      refine if_ctx_congr (by omega) (fun hin => ?_) fun _ => rfl
      rw [show src + 1 + (c - (dst + 1)) = src + (c - dst) from by omega]

/-- The addresses of the quadword at `pa`. -/
def quadAddrs (pa : Nat) : List Nat := (List.range 8).map (pa + ·)

theorem mem_quadAddrs {a pa : Nat} : a ∈ quadAddrs pa ↔ pa ≤ a ∧ a < pa + 8 := by
  simp only [quadAddrs, List.mem_map, List.mem_range]
  exact ⟨by rintro ⟨k, hk, rfl⟩; omega, fun h => ⟨a - pa, by omega, by omega⟩⟩

theorem quadAddrs_nodup (pa : Nat) : (quadAddrs pa).Nodup := List.nodup_range.map fun _ _ => Nat.add_left_cancel

/-- Two concatenations are equal part by part where the parts are as long as each other. -/
theorem eq_of_flatMap_eq {α β : Type} {f g : α → List β} {l : List α} (hlen : ∀ x, (f x).length = (g x).length)
    (h : l.flatMap f = l.flatMap g) : ∀ x ∈ l, f x = g x := by
  induction l with
  | nil => nofun
  | cons y l ih =>
    rw [List.flatMap_cons, List.flatMap_cons] at h
    obtain ⟨hy, hl⟩ := List.append_inj h (hlen y)
    exact List.forall_mem_cons.2 ⟨hy, ih hl⟩

namespace State
variable {s t : State} {pa : Nat} {v : Word}

theorem physRead_eq (n pa : Nat) (h : pa + n ≤ 2 ^ s.cfg.maxPA) :
    s.physRead pa n = .ok ((List.range n).map fun k => s.byteAt (pa + k)) := by
  induction n generalizing pa with
  | zero => rfl
  | succ n ih =>
    have hbyte : s.physReadByte pa = .ok (s.byteAt pa) := Res.bind_of_ok (if_pos (show pa < _ from by omega))
    rw [State.physRead, Res.bind_of_ok hbyte, Res.bind_of_ok (ih (pa + 1) (by omega)), List.range_succ_eq_map, List.map_cons, List.map_map]
    refine congrArg (fun bs => Except.ok (s.byteAt pa :: bs)) (List.map_congr_left fun k _ => ?_)
    exact congrArg s.byteAt (by omega)

theorem physRead8_eq (h : pa + 8 ≤ 2 ^ s.cfg.maxPA) : s.physRead8 pa = .ok (s.quadAt pa) := Res.bind_of_ok (physRead_eq 8 pa h)

theorem physWrite8_eq (h : pa + 8 ≤ 2 ^ s.cfg.maxPA) (v : Word) :
    s.physWrite8 pa v = .ok (s.putBytes (quadAddrs pa) (leBytes 8 v)) :=
  Res.bind_of_ok (if_pos (show pa + 7 < _ from by omega))

theorem putBytes_append (s : State) {p : List Nat} {b : List Byte} (h : p.length = b.length) (p' : List Nat) (b' : List Byte) :
    s.putBytes (p ++ p') (b ++ b') = (s.putBytes p b).putBytes p' b' := by
  induction p generalizing s b with
  | nil => rw [List.eq_nil_of_length_eq_zero h.symm]; rfl
  | cons pa p ih =>
    cases b with
    | nil => cases h
    | cons x b => exact ih _ (Nat.succ.inj h)

/-- Quadwords put at their addresses in order. -/
def putQuads (s : State) (qs : List (Nat × Word)) : State :=
  s.putBytes (qs.flatMap fun q => quadAddrs q.1) (qs.flatMap fun q => leBytes 8 q.2)

theorem putQuads_nil (s : State) : s.putQuads [] = s := rfl

theorem putQuads_cons (s : State) (q : Nat × Word) (qs : List (Nat × Word)) :
    s.putQuads (q :: qs) = (s.putBytes (quadAddrs q.1) (leBytes 8 q.2)).putQuads qs := putBytes_append s rfl _ _

theorem putBytes_cfg (s : State) (pas : List Nat) (bs : List Byte) : (s.putBytes pas bs).cfg = s.cfg := by
  rw [State.putBytes_eq]

theorem putQuads_eq (s : State) (qs : List (Nat × Word)) :
    s.putQuads qs = { s with mem := (s.putQuads qs).mem, acram := (s.putQuads qs).acram } := State.putBytes_eq _ _ _

theorem putQuads_cfg (s : State) (qs : List (Nat × Word)) : (s.putQuads qs).cfg = s.cfg := putBytes_cfg _ _ _

theorem putQuads_smx (s : State) (qs : List (Nat × Word)) : (s.putQuads qs).smx = s.smx := by rw [putQuads_eq]

theorem byteAt_putQuads_other {qs : List (Nat × Word)} {a : Nat} (h : s.memOk) (ha : ∀ q ∈ qs, a < q.1 ∨ q.1 + 8 ≤ a) :
    (s.putQuads qs).byteAt a = s.byteAt a := by
  refine State.byteAt_putBytes_other s _ _ a (fun hmem => ?_) h
  obtain ⟨q, hq, hin⟩ := List.mem_flatMap.1 hmem
  have hout := ha q hq
  rw [mem_quadAddrs] at hin
  omega

/-- A quadword put where no other one lies is what is read there. -/
theorem quadAt_putQuads {qs : List (Nat × Word)} (h : s.memOk) (hapart : qs.Pairwise fun q r => q.1 + 8 ≤ r.1 ∨ r.1 + 8 ≤ q.1)
    (hq : (pa, v) ∈ qs) : (s.putQuads qs).quadAt pa = v := by
  have hdisjoint : qs.Pairwise (Function.onFun List.Disjoint fun q => quadAddrs q.1) := hapart.imp fun hqr a hq hr => by
    rw [mem_quadAddrs] at hq hr
    omega
  have hbytes : (qs.flatMap fun q => quadAddrs q.1).map (s.putQuads qs).byteAt = qs.flatMap fun q => leBytes 8 q.2 :=
    State.byteAt_putBytes_same s _ _ (List.nodup_flatMap.2 ⟨fun q _ => quadAddrs_nodup q.1, hdisjoint⟩)
      (by simp [quadAddrs, List.length_flatMap]) h
  rw [List.map_flatMap] at hbytes
  have hquad := eq_of_flatMap_eq (fun q => by simp [quadAddrs]) hbytes (pa, v) hq
  rw [quadAddrs, List.map_map] at hquad
  exact (congrArg leWord hquad).trans (leWord_leBytes v)

/-! ## The module in ACRAM (R392, R396) -/

/-- The ACRAM of `t` begins with the header of the module that `s` names. -/
def holdsHeader (s t : State) : Prop := ∀ k < 48, Memory.read t.acram (acramBase + k) = Memory.read s.mem (s.ebx + k)

theorem holdsHeader.acmField_eq (h : s.holdsHeader t) {off n : Nat} (hle : off + n ≤ 48) : t.acmField off n = moduleField s off n := by
  refine congrArg leWord (List.map_congr_left fun k hk => ?_)
  have hk : k < n := List.mem_range.1 hk
  rw [Nat.add_assoc, Nat.add_assoc]
  exact h (off + k) (by omega)

theorem read_loadAcm (s : State) (k : Nat) :
    Memory.read s.loadAcm.acram (acramBase + k) = if k < s.ecx then Memory.read s.mem (s.ebx + k) else unlistedByte := by
  refine (read_copyCells s.mem s.ecx s.ebx acramBase _).trans ?_
  rw [Nat.add_sub_cancel_left]
  exact if_congr (by omega) rfl rfl

theorem loadAcm_holdsHeader (hsize : 48 ≤ s.ecx) : s.holdsHeader s.loadAcm := fun k hk =>
  (read_loadAcm s k).trans (if_pos (by omega))

theorem fitSignature_length (s : State) (sig : List Byte) : (s.fitSignature sig).length = s.cfg.signatureLen := by
  rw [State.fitSignature, List.length_map, List.length_range]

theorem getD_fitSignature (sig : List Byte) {k : Nat} (hk : k < s.cfg.signatureLen) : (s.fitSignature sig).getD k 0 = sig.getD k 0 := by
  simp [State.fitSignature, List.getD_eq_getElem?_getD, hk]

theorem fitSignature_eq_iff (s : State) (a b : List Byte) :
    s.fitSignature a = s.fitSignature b ↔ ∀ k, k < s.cfg.signatureLen → a.getD k 0 = b.getD k 0 :=
  List.map_inj_left.trans (forall_congr' fun _ => imp_congr_left List.mem_range)

/-- The scratch area of the module, and the bytes around it. -/
theorem read_copySignatures (hwf : Memory.wf s.acram = true) (k : Nat) :
    Memory.read s.copySignatures.acram (acramBase + k) =
      if s.cfg.acmScratch ≤ k ∧ k < s.cfg.acmScratch + s.cfg.signatureLen then s.txt.signature.getD (k - s.cfg.acmScratch) 0
      else if s.cfg.acmScratch + s.cfg.signatureLen ≤ k ∧ k < s.cfg.acmScratch + s.cfg.signatureLen + s.cfg.signatureLen then
        s.txt.computedSignature.getD (k - s.cfg.acmScratch - s.cfg.signatureLen) 0
      else Memory.read s.acram (acramBase + k) := by
  refine (Memory.read_writeFrom _ _ _ _ (Memory.wf_writeFrom _ _ _ hwf)).trans ?_
  rw [Memory.read_writeFrom _ _ _ _ hwf, fitSignature_length, fitSignature_length]
  by_cases hfirst : s.cfg.acmScratch ≤ k ∧ k < s.cfg.acmScratch + s.cfg.signatureLen
  · rw [if_neg (by omega), if_pos (by omega), if_pos hfirst, getD_fitSignature _ (by omega)]
    exact congrArg (s.txt.signature.getD · 0) (by omega)
  · rw [if_neg hfirst, if_neg (c := acramBase + s.cfg.acmScratch ≤ _ ∧ _) (by omega)]
    refine if_ctx_congr (by omega) (fun hsecond => ?_) fun _ => rfl
    rw [getD_fitSignature _ (by omega)]
    exact congrArg (s.txt.computedSignature.getD · 0) (by omega)

theorem holdsHeader.copySignatures (h : s.holdsHeader t) (hwf : Memory.wf t.acram = true) (hscratch : 48 ≤ t.cfg.acmScratch) :
    s.holdsHeader t.copySignatures := fun k hk => by
  rw [read_copySignatures hwf, if_neg (by omega), if_neg (by omega), h k hk]

/-- The module in ACRAM, its two signatures in its scratch area. -/
def loadedModule (s : State) : State := s.loadAcm.copySignatures

theorem loadAcm_wf (s : State) : Memory.wf s.loadAcm.acram = true := copyCells_wf s.mem s.ecx s.ebx acramBase

theorem loadAcm_eq (s : State) : s.loadAcm = { s with
    smx := { s.smx with maskSmi := true, maskInit := true, maskA20m := true, maskNmi := true, acMode := true }
    plat := { s.plat with miscEnable := s.plat.miscEnable &&& s.cfg.maskConst, debugCtl := 0 }
    tlb := Tlb.empty, txt := { s.txt with messages := .processorHold :: s.txt.messages }
    acram := copyCells s.mem s.ebx acramBase s.ecx } := by
  simp only [State.loadAcm, State.setSmx, State.setPlat, State.setTlb, State.signal, State.setTxt, State.setAcram]

theorem loadedModule_eq (s : State) : s.loadedModule = { s.loadAcm with acram := s.loadedModule.acram } := by
  simp only [State.loadedModule, State.copySignatures, State.setAcram]

theorem loadedModule_cfg (s : State) : s.loadedModule.cfg = s.cfg := by rw [loadedModule_eq, loadAcm_eq]

theorem loadedModule_acMode (s : State) : s.loadedModule.smx.acMode = true := by rw [loadedModule_eq, loadAcm_eq]

theorem loadedModule_signature (s : State) : s.loadedModule.txt.signature = s.txt.signature := by rw [loadedModule_eq, loadAcm_eq]

theorem loadedModule_computedSignature (s : State) : s.loadedModule.txt.computedSignature = s.txt.computedSignature := by
  rw [loadedModule_eq, loadAcm_eq]

theorem loadedModule_fitSignature (s : State) (sig : List Byte) : s.loadedModule.fitSignature sig = s.fitSignature sig := by
  rw [State.fitSignature, loadedModule_cfg, ← State.fitSignature]

theorem loadedModule_holdsHeader (hsize : 48 ≤ s.ecx) (hscratch : 48 ≤ s.cfg.acmScratch) : s.holdsHeader s.loadedModule :=
  (loadAcm_holdsHeader hsize).copySignatures s.loadAcm_wf hscratch

/-! ## What is wrong with a module (R396, R401) -/

/-- The module is an ACM of the supported version. -/
def namesAcm (s : State) : Prop := moduleField s 8 4 = s.cfg.acmHeaderVersion.setWidth 64 ∧ moduleField s 0 2 = 2

/-- The two signatures agree. -/
def moduleSigned (s : State) : Prop :=
  ∀ k, k < s.cfg.signatureLen → s.txt.signature.getD k 0 = s.txt.computedSignature.getD k 0

theorem moduleField_lt (s : State) (off n : Nat) : (moduleField s off n).toNat < 256 ^ n := by
  have hlt := leNat_lt ((List.range n).map fun k => Memory.read s.mem ((s.reg .rbx &&& 0xFFFFFFFF).toNat + off + k))
  rw [List.length_map, List.length_range] at hlt
  exact (Nat.mod_le _ _).trans_lt hlt

/-- The 32 bits of a version field. -/
theorem setWidth_eq_iff_of_lt {f : Word} (hf : f.toNat < 2 ^ 32) (d : DWord) : f.setWidth 32 = d ↔ f = d.setWidth 64 := by
  have hd := d.isLt
  rw [← BitVec.toNat_inj, ← BitVec.toNat_inj, BitVec.toNat_setWidth, BitVec.toNat_setWidth, Nat.mod_eq_of_lt hf,
    Nat.mod_eq_of_lt (by omega)]

theorem namesAcm_iff (hsize : 48 ≤ s.ecx) :
    ((s.loadAcm.acmField 8 4).setWidth 32 ≠ s.cfg.acmHeaderVersion ∨ s.loadAcm.acmField 0 2 ≠ 2) ↔ ¬s.namesAcm := by
  have hheader := loadAcm_holdsHeader hsize
  rw [hheader.acmField_eq (by omega), hheader.acmField_eq (by omega), ne_eq, setWidth_eq_iff_of_lt (s.moduleField_lt 8 4), namesAcm,
    not_and_or]

/-- What the checks before the signature's find. -/
theorem acmKeyError_eq (hsize : 48 ≤ s.ecx) :
    (¬s.namesAcm → s.loadAcm.acmKeyError = some .unsupportedACM) ∧
    (s.namesAcm → s.txt.keyMatches = false → s.loadAcm.acmKeyError = some .authenticateFail) ∧
    (s.namesAcm → s.txt.keyMatches = true → s.loadAcm.acmKeyError = none) := by
  have hnames := namesAcm_iff hsize
  refine ⟨fun h => if_pos (hnames.2 h), fun h hkey => ?_, fun h hkey => ?_⟩
  · exact (if_neg (mt hnames.1 (not_not_intro h))).trans (if_pos hkey)
  · exact (if_neg (mt hnames.1 (not_not_intro h))).trans (if_neg (ne_false_of_eq_true hkey))

/-- What the checks of the signature and of the save area find. -/
theorem acmError_eq (hsize : 48 ≤ s.ecx) (hscratch : 48 ≤ s.cfg.acmScratch) :
    (¬s.moduleSigned → s.loadedModule.acmError = some .authenticateFail) ∧
    (s.moduleSigned → (moduleField s 32 4).toNat % 64 ≠ 0 ∨ moduleField s 40 4 &&& s.cfg.fredConfigReserved ≠ 0 →
      s.loadedModule.acmError = some .badACMFormat) ∧
    (s.moduleSigned → (moduleField s 32 4).toNat % 64 = 0 → moduleField s 40 4 &&& s.cfg.fredConfigReserved = 0 →
      s.loadedModule.acmError = none) := by
  have hheader := loadedModule_holdsHeader hsize hscratch
  have hsigned : s.fitSignature s.txt.signature ≠ s.fitSignature s.txt.computedSignature ↔ ¬s.moduleSigned :=
    not_congr (fitSignature_eq_iff s _ _)
  have herror : s.loadedModule.acmError =
      if s.fitSignature s.txt.signature ≠ s.fitSignature s.txt.computedSignature then some .authenticateFail
      else if (moduleField s 32 4).toNat % 64 ≠ 0 then some .badACMFormat
      else if moduleField s 40 4 &&& s.cfg.fredConfigReserved ≠ 0 then some .badACMFormat
      else none := by
    rw [State.acmError, hheader.acmField_eq (by omega), hheader.acmField_eq (by omega), loadedModule_fitSignature,
      loadedModule_fitSignature, loadedModule_cfg, loadedModule_signature, loadedModule_computedSignature]
  refine ⟨fun h => herror.trans (if_pos (hsigned.2 h)), fun h hbad => ?_, fun h h64 hfred => ?_⟩
  · refine herror.trans ((if_neg (mt hsigned.1 (not_not_intro h))).trans ?_)
    by_cases h64 : (moduleField s 32 4).toNat % 64 = 0
    · exact (if_neg (not_not_intro h64)).trans (if_pos (hbad.resolve_left (not_not_intro h64)))
    · exact if_pos h64
  · exact herror.trans ((if_neg (mt hsigned.1 (not_not_intro h))).trans
      ((if_neg (not_not_intro h64)).trans (if_neg (not_not_intro hfred))))

/-! ## The launch (R394 to R397) -/

/-- The checks of R395 pass, and the module lies in physical memory, with a header before its scratch area. -/
structure EntersModule (s : State) : Prop where
  may : s.mayEnter
  size : 48 ≤ s.ecx
  scratch : 48 ≤ s.cfg.acmScratch
  inMemory : s.ebx + s.ecx ≤ 2 ^ s.cfg.maxPA

namespace EntersModule
variable (h : s.EntersModule)
include h

theorem checkPa_last : s.checkPa (s.ebx + s.ecx - 1) = .ok () := by
  have hsize := h.size
  have hmemory := h.inMemory
  exact if_pos (by omega)

theorem enterAccs_of_keyError {e : TxtError} (he : s.loadAcm.acmKeyError = some e) : s.enterAccs = .ok (s.loadAcm.txtShutdown e) := by
  rw [State.enterAccs, Res.bind_of_ok (enterChecks_ok h.may), Res.bind_of_ok h.checkPa_last, he]
  rfl

theorem enterAccs_of_key (he : s.loadAcm.acmKeyError = none) : s.enterAccs = s.loadedModule.runAcm := by
  rw [State.enterAccs, Res.bind_of_ok (enterChecks_ok h.may), Res.bind_of_ok h.checkPa_last, he]
  rfl

end EntersModule

theorem runAcm_of_error {e : TxtError} (he : s.acmError = some e) : s.runAcm = .ok (s.txtShutdown e) := by rw [State.runAcm, he]

theorem runAcm_of_saved {u : State} (he : s.acmError = none) (hu : s.saveSsa (s.acmField 32 4).toNat = .ok u) :
    s.runAcm = .ok { u.enterAcm with dbPending := false, bpHits := 0, stored := [] } := by
  rw [State.runAcm, he]
  exact Res.bind_of_ok hu

/-- SENTER, of leaf 4, sets SENTERFLAG beside what ENTERACCS does. -/
def launchedBy (s : State) (leaf : Nat) : State := { s with smx := { s.smx with senter := s.smx.senter || leaf == 4 } }

theorem exec_getsec_enter {leaf : Nat} (hsmx : bit s.cr4 14 = true) (hroot : s.nonRoot = false) (hleaf : s.leaf32 = leaf)
    (hmem : leaf ∈ s.cfg.getsecLeaves) (henter : leaf = 2 ∨ leaf = 4) (h : s.enterAccs = .ok t) :
    exec .getsec s = .next (t.launchedBy leaf) := by
  have hexec := exec_getsec hsmx hroot hleaf hmem
  obtain rfl | rfl := henter
  · refine hexec.trans ((finish_of_ok h).trans ?_)
    simp [launchedBy]
  · have hmeaning : s.leafMeaning 4 = .ok (t.setSmx { t.smx with senter := true }) := Res.bind_of_ok h
    refine hexec.trans ((finish_of_ok hmeaning).trans ?_)
    simp [State.setSmx, launchedBy]

/-! ### The state save area (R397) -/

/-- The slots in the order in which they are written. -/
def ssaSlots (s : State) (base : Nat) : List (Nat × Word) :=
  [(base + 32, s.plat.fredConfig), (base + 40, s.plat.fredStkLvls), (base + 16, s.cr4), (base + 24, s.cr3), (base, s.nextRip),
    (base + 8, s.reg .rsp)]

theorem saveSsa_eq {base : Nat} (hoff : s.cfg.ssaOffsets = [0, 8, 16, 24, 32, 40]) (hbase : base + 48 ≤ 2 ^ s.cfg.maxPA) :
    s.saveSsa base = .ok (s.putQuads (s.ssaSlots base)) := by
  have hslot : ∀ k, s.ssaSlot base k = base + [0, 8, 16, 24, 32, 40].getD k 0 := fun k => by rw [State.ssaSlot, hoff]
  have hwrite : ∀ {t : State} {pa : Nat} {v : Word}, t.cfg = s.cfg → pa + 8 ≤ base + 48 →
      t.physWrite8 pa v = .ok (t.putBytes (quadAddrs pa) (leBytes 8 v)) := fun ht hpa => physWrite8_eq (by rw [ht]; omega) _
  simp only [State.saveSsa, hslot, ssaSlots, putQuads_cons, putQuads_nil]
  refine (Res.bind_of_ok (hwrite rfl (by simp))).trans ((Res.bind_of_ok (hwrite ?_ (by simp))).trans
    ((Res.bind_of_ok (hwrite ?_ (by simp))).trans ((Res.bind_of_ok (hwrite ?_ (by simp))).trans
      ((Res.bind_of_ok (hwrite ?_ (by simp))).trans (hwrite ?_ (by simp))))))
  all_goals simp only [putBytes_cfg]

theorem ssaSlots_apart (s : State) (base : Nat) :
    (s.ssaSlots base).Pairwise fun q r => q.1 + 8 ≤ r.1 ∨ r.1 + 8 ≤ q.1 := by
  simp [ssaSlots]

/-- Every slot lies in the 48 bytes from the base on. -/
theorem ssaSlots_inside (s : State) (base : Nat) : ∀ q ∈ s.ssaSlots base, base ≤ q.1 ∧ q.1 + 8 ≤ base + 48 := by
  simp [ssaSlots]

/-- The module in ACRAM and the state of its caller in the save area at `ssa`. -/
def savedModule (s : State) (ssa : Nat) : State := s.loadedModule.putQuads (s.loadedModule.ssaSlots ssa)

theorem loadedModule_memOk (hw : s.memWf = true) : s.loadedModule.memOk :=
  (s.memWf_iff.1 hw).loadAcm.copySignatures

theorem byteAt_savedModule_other {ssa a : Nat} (hw : s.memWf = true) (ha : a < ssa ∨ ssa + 48 ≤ a) :
    (s.savedModule ssa).byteAt a = s.loadedModule.byteAt a := by
  refine byteAt_putQuads_other (loadedModule_memOk hw) fun q hq => ?_
  have hinside := s.loadedModule.ssaSlots_inside ssa q hq
  omega

/-- The slots are those of the caller: the copy of the module changes none of the registers saved. -/
theorem ssaSlots_loadedModule (s : State) (ssa : Nat) : s.loadedModule.ssaSlots ssa = s.ssaSlots ssa := by
  rw [loadedModule_eq, loadAcm_eq]
  rfl

theorem quadAt_savedModule {ssa pa : Nat} {v : Word} (hw : s.memWf = true) (hq : (pa, v) ∈ s.ssaSlots ssa) :
    (s.savedModule ssa).quadAt pa = v :=
  quadAt_putQuads (loadedModule_memOk hw) (ssaSlots_apart _ _) (by rwa [ssaSlots_loadedModule])

/-- A byte of ACRAM in the module. -/
theorem byteAt_acram (hac : s.smx.acMode = true) {k : Nat} (hk : k < s.cfg.acramCapacity) :
    s.byteAt (acramBase + k) = Memory.read s.acram (acramBase + k) := by
  have hin : s.inAcram (acramBase + k) = true := by
    rw [State.inAcram, hac, Bool.true_and, Bool.and_eq_true, decide_eq_true_eq, decide_eq_true_eq]
    exact ⟨Nat.le_add_right _ _, Nat.add_lt_add_left hk _⟩
  exact if_pos hin

theorem byteAt_outside {a : Nat} (ha : a < acramBase ∨ acramBase + s.cfg.acramCapacity ≤ a) : s.byteAt a = Memory.read s.mem a := by
  have hout : ¬s.inAcram a = true := by
    rw [State.inAcram, Bool.and_eq_true, Bool.and_eq_true, decide_eq_true_eq, decide_eq_true_eq]
    rintro ⟨⟨-, hge⟩, hlt⟩
    exact ha.elim (Nat.not_lt.2 hge) (Nat.not_le.2 hlt)
  exact if_neg hout

theorem byteAt_of_acMode_clear (hac : s.smx.acMode = false) (a : Nat) : s.byteAt a = Memory.read s.mem a := by
  refine if_neg ?_
  rw [State.inAcram, hac]
  exact Bool.false_ne_true

/-- What the save area leaves of the rest of ACRAM. -/
theorem read_acram_savedModule {ssa k : Nat} (hw : s.memWf = true) (hk : k < s.cfg.acramCapacity)
    (ha : acramBase + k < ssa ∨ ssa + 48 ≤ acramBase + k) :
    Memory.read (s.savedModule ssa).acram (acramBase + k) = Memory.read s.loadedModule.acram (acramBase + k) := by
  have hac : (s.savedModule ssa).smx.acMode = true := by rw [savedModule, putQuads_smx, loadedModule_acMode]
  have hcap : (s.savedModule ssa).cfg = s.cfg := by rw [savedModule, putQuads_cfg, loadedModule_cfg]
  rw [← byteAt_acram s.loadedModule_acMode (by rwa [loadedModule_cfg]), ← byteAt_acram hac (by rwa [hcap]),
    byteAt_savedModule_other hw ha]

/-- A save area that does not lie over the header keeps it. -/
theorem savedModule_holdsHeader {ssa : Nat} (hw : s.memWf = true) (hsize : 48 ≤ s.ecx) (hscratch : 48 ≤ s.cfg.acmScratch)
    (hcap : s.ecx ≤ s.cfg.acramCapacity) (h64 : ssa % 64 = 0) (hne : ssa ≠ acramBase) : s.holdsHeader (s.savedModule ssa) := by
  intro k hk
  rw [read_acram_savedModule hw (by omega) (by unfold acramBase at *; omega)]
  exact loadedModule_holdsHeader hsize hscratch k hk

/-! ### The module entered -/

/-- CR0 of the module has WP set and AM clear, whatever it was (R396). -/
theorem acmCr0_eq (v : Word) : cr0Of (setBit (setBit v 18 false) 16 true) = 0x80010033 ||| (v &&& 0x40000008) := by
  have hmask : ~~~((1 : Word) <<< 18) &&& 0x40050008 = 0x10000 ||| 0x40000008 := by decide
  have hset : (1 : Word) <<< 16 &&& 0x40050008 = 0x10000 := by decide
  have habsorbed : 0x10000 &&& v ||| 0x10000 = (0x10000 : Word) := and_or_self 0x10000 v
  calc cr0Of (setBit (setBit v 18 false) 16 true)
      = (0x80000033 : Word) ||| ((v &&& ~~~((1 : Word) <<< 18) ||| (1 : Word) <<< 16) &&& 0x40050008) := rfl
    _ = (0x80000033 : Word) ||| (0x10000 &&& v ||| 0x10000 ||| v &&& 0x40000008) := by
        rw [BitVec.and_or_distrib_right, BitVec.and_assoc, hmask, hset, BitVec.and_or_distrib_left, BitVec.and_comm v 0x10000,
          BitVec.or_assoc, BitVec.or_assoc, BitVec.or_comm (v &&& _)]
    _ = (0x80010033 : Word) ||| (v &&& 0x40000008) := by
        rw [habsorbed, ← BitVec.or_assoc]
        rfl

theorem enterAcm_eq (s : State) : s.enterAcm = { s with
    cr0 := 0x80010033 ||| (s.cr0 &&& 0x40000008), cr4 := acmCr4, rflags := 2, gpr := s.gpr.set .rsp 0xFEB00400
    cr3 := s.acmField 36 4
    plat := { s.plat with fredStkLvls := 0, fredConfig := s.acmField 40 4, debugCtl := 0 }
    dbg := { s.dbg with dr7 := 0x400 }
    txt := { s.txt with messages := .openLocality3 :: .openPrivate :: s.txt.messages }
    rip := s.acmField 44 4 } := by
  simp only [State.enterAcm, acmCr0_eq, State.setCr0, State.setCr4, State.setRflags, State.setReg, State.setGpr, State.setCr3,
    State.setPlat, State.setDbg, State.signal, State.setTxt, State.setRip]

/-- The module's environment, where `leaf` launched it and `s` has saved its caller's. -/
def moduleEntered (s : State) (leaf : Nat) : State :=
  launchedBy { s.enterAcm with dbPending := false, bpHits := 0, stored := [] } leaf

theorem moduleEntered_eq (s : State) (leaf : Nat) : s.moduleEntered leaf = { s with
    cr0 := 0x80010033 ||| (s.cr0 &&& 0x40000008), cr4 := acmCr4, rflags := 2, gpr := s.gpr.set .rsp 0xFEB00400
    cr3 := s.acmField 36 4
    plat := { s.plat with fredStkLvls := 0, fredConfig := s.acmField 40 4, debugCtl := 0 }
    dbg := { s.dbg with dr7 := 0x400 }
    txt := { s.txt with messages := .openLocality3 :: .openPrivate :: s.txt.messages }
    rip := s.acmField 44 4
    smx := { s.smx with senter := s.smx.senter || leaf == 4 }
    dbPending := false, bpHits := 0, stored := [] } := by
  rw [moduleEntered, enterAcm_eq, launchedBy]

theorem byteAt_moduleEntered (s : State) (leaf a : Nat) : (s.moduleEntered leaf).byteAt a = s.byteAt a := by
  rw [moduleEntered_eq, State.byteAt, State.inAcram, State.byteAt, State.inAcram]

theorem quadAt_moduleEntered (s : State) (leaf pa : Nat) : (s.moduleEntered leaf).quadAt pa = s.quadAt pa :=
  congrArg leWord (List.map_congr_left fun _ _ => byteAt_moduleEntered s leaf _)

theorem savedModule_eq (s : State) (ssa : Nat) : ∃ mem acram, s.savedModule ssa = { s with
    smx := { s.smx with maskSmi := true, maskInit := true, maskA20m := true, maskNmi := true, acMode := true }
    plat := { s.plat with miscEnable := s.plat.miscEnable &&& s.cfg.maskConst, debugCtl := 0 }
    tlb := Tlb.empty, txt := { s.txt with messages := .processorHold :: s.txt.messages }
    mem := mem, acram := acram } := by
  have hput := putQuads_eq s.loadedModule (s.loadedModule.ssaSlots ssa)
  rw [← savedModule] at hput
  rw [hput]
  generalize (s.savedModule ssa).mem = mem, (s.savedModule ssa).acram = acram
  refine ⟨mem, acram, ?_⟩
  rw [loadedModule_eq, loadAcm_eq]

/-- The registers of the module's environment (Table 19). -/
theorem moduleEntered_registers {leaf ssa : Nat} (h : s.holdsHeader (s.savedModule ssa)) :
    State.sameButMem { s with
      cr0 := 0x80010033 ||| (s.cr0 &&& 0x40000008), cr3 := moduleField s 36 4, cr4 := 0x100004020, rflags := 2
      gpr := s.gpr.set .rsp 0xFEB00400, rip := moduleField s 44 4, dbg := { s.dbg with dr7 := 0x400 }
      plat := { s.plat with miscEnable := s.plat.miscEnable &&& s.cfg.maskConst, debugCtl := 0, fredStkLvls := 0,
                            fredConfig := moduleField s 40 4 }
      smx := { s.smx with maskSmi := true, maskInit := true, maskA20m := true, maskNmi := true, acMode := true,
                          senter := s.smx.senter || leaf == 4 }
      txt := { s.txt with messages := .openLocality3 :: .openPrivate :: .processorHold :: s.txt.messages }
      tlb := Tlb.empty, dbPending := false, bpHits := 0, stored := [] } ((s.savedModule ssa).moduleEntered leaf) := by
  rw [moduleEntered_eq, h.acmField_eq (by omega), h.acmField_eq (by omega), h.acmField_eq (by omega)]
  obtain ⟨mem, acram, hsaved⟩ := s.savedModule_eq ssa
  simp only [State.sameButMem, hsaved, acmCr4]

/-- The launch of a module that passes every check. -/
theorem EntersModule.exec_getsec_launch {leaf ssa : Nat} (h : s.EntersModule) (hsmx : bit s.cr4 14 = true) (hroot : s.nonRoot = false)
    (hleaf : s.leaf32 = leaf) (hmem : leaf ∈ s.cfg.getsecLeaves) (henter : leaf = 2 ∨ leaf = 4)
    (hkey : s.loadAcm.acmKeyError = none) (hsigned : s.loadedModule.acmError = none) (hssa : ssa = (moduleField s 32 4).toNat)
    (hoff : s.cfg.ssaOffsets = [0, 8, 16, 24, 32, 40]) (hpa : ssa + 48 ≤ 2 ^ s.cfg.maxPA) :
    exec .getsec s = .next ((s.savedModule ssa).moduleEntered leaf) := by
  have hfield : (s.loadedModule.acmField 32 4).toNat = ssa := by
    rw [(loadedModule_holdsHeader h.size h.scratch).acmField_eq (by omega), hssa]
  have hsave : s.loadedModule.saveSsa (s.loadedModule.acmField 32 4).toNat = .ok (s.savedModule ssa) := by
    rw [hfield]
    exact saveSsa_eq (by rwa [loadedModule_cfg]) (by rwa [loadedModule_cfg])
  exact exec_getsec_enter hsmx hroot hleaf hmem henter ((h.enterAccs_of_key hkey).trans (runAcm_of_saved hsigned hsave))

/-- ACRAM outside the save area (R396). -/
theorem byteAt_savedModule_acram {ssa a k : Nat} (hw : s.memWf = true) (ha : a < ssa ∨ ssa + 48 ≤ a) (hk : k < s.cfg.acramCapacity)
    (hak : a = acramBase + k) :
    (s.savedModule ssa).byteAt a =
      if s.cfg.acmScratch ≤ k ∧ k < s.cfg.acmScratch + s.cfg.signatureLen then s.txt.signature.getD (k - s.cfg.acmScratch) 0
      else if s.cfg.acmScratch + s.cfg.signatureLen ≤ k ∧ k < s.cfg.acmScratch + s.cfg.signatureLen + s.cfg.signatureLen then
        s.txt.computedSignature.getD (k - s.cfg.acmScratch - s.cfg.signatureLen) 0
      else if k < s.ecx then Memory.read s.mem (s.ebx + k) else 0 := by
  have hloaded := read_copySignatures s.loadAcm_wf k
  rw [read_loadAcm, loadAcm_eq, ← loadAcm_eq] at hloaded
  rw [byteAt_savedModule_other hw ha, hak, byteAt_acram s.loadedModule_acMode (by rwa [loadedModule_cfg])]
  exact hloaded

/-- Memory outside ACRAM and the save area. -/
theorem byteAt_savedModule_outside {ssa a : Nat} (hw : s.memWf = true) (hac : s.smx.acMode = false) (ha : a < ssa ∨ ssa + 48 ≤ a)
    (hout : a < acramBase ∨ acramBase + s.cfg.acramCapacity ≤ a) : (s.savedModule ssa).byteAt a = s.byteAt a := by
  have hmem : s.loadedModule.mem = s.mem := by rw [loadedModule_eq, loadAcm_eq]
  rw [byteAt_savedModule_other hw ha, byteAt_outside (by rwa [loadedModule_cfg]), hmem, byteAt_of_acMode_clear hac]

/-- The slots of the save area (R397). -/
theorem physRead8_moduleEntered {leaf ssa pa : Nat} {v : Word} (hw : s.memWf = true) (hpa : ssa + 48 ≤ 2 ^ s.cfg.maxPA)
    (hq : (pa, v) ∈ s.ssaSlots ssa) : ((s.savedModule ssa).moduleEntered leaf).physRead8 pa = .ok v := by
  have hin := s.ssaSlots_inside ssa _ hq
  have hcfg : ((s.savedModule ssa).moduleEntered leaf).cfg = s.cfg := by
    rw [moduleEntered_eq, savedModule, putQuads_cfg, loadedModule_cfg]
  rw [physRead8_eq (by rw [hcfg]; omega), quadAt_moduleEntered, quadAt_savedModule hw hq]

end State

/-- Settles O58: each check that fails shuts the processor down; where none does, the module is entered from `State.savedModule`. -/
theorem enterModule : Obligations.EnterModule := by
  intro s base size ssa leaf n hbase hsize hleaf henter hsmx hmem hallowed hmc hplace hsize48 hscratch hn hready hpa hssa
    isAcm signed fails
  have hroot : s.nonRoot = false := by
    have hoff : s.vmx = .off := not_not.1 fun hvmx => hallowed (.inl hvmx)
    rw [State.nonRoot, hoff]
  have hmay : s.mayEnter := ⟨hallowed, hmc, by rw [hbase, hsize] at hplace; exact hplace, hready⟩
  have h : s.EntersModule := ⟨hmay, hsize48.trans_eq hsize, hscratch, by rw [hbase, hsize] at hpa; exact hpa⟩
  have hac : s.smx.acMode = false := by
    simp only [moduleForbidden, not_or, Bool.not_eq_true] at hallowed
    obtain ⟨-, -, -, -, -, hac, -⟩ := hallowed
    exact hac
  have hstops : ∀ {e t}, s.enterAccs = .ok (State.txtShutdown t e) → fails e := fun he =>
    ⟨_, State.exec_getsec_enter hsmx hroot hleaf.symm hmem henter he, rfl⟩
  have hsigned : signed ↔ s.moduleSigned := by rw [State.moduleSigned, ← hn]
  obtain ⟨hforeign, hbadKey, hkey⟩ := State.acmKeyError_eq h.size
  obtain ⟨hbadSignature, hbadFormat, hpasses⟩ := State.acmError_eq h.size hscratch
  have hruns : ∀ {e}, isAcm → s.txt.keyMatches = true → s.loadedModule.acmError = some e → fails e := fun hacm hmatches he =>
    hstops ((h.enterAccs_of_key (hkey hacm hmatches)).trans (State.runAcm_of_error he))
  refine ⟨fun hacm => hstops (h.enterAccs_of_keyError (hforeign hacm)),
    fun hacm hmatches => hstops (h.enterAccs_of_keyError (hbadKey hacm hmatches)),
    fun hacm hmatches hs => hruns hacm hmatches (hbadSignature (mt hsigned.2 hs)),
    fun hacm hmatches hs hbad => hruns hacm hmatches (hbadFormat (hsigned.1 hs) (hssa ▸ hbad)), ?_⟩
  intro hacm hmatches hs h64 hne hfred hoff hssaPa hw
  have hcap : s.ecx ≤ s.cfg.acramCapacity := by
    obtain ⟨-, -, -, hcap, -⟩ := hplace
    exact hsize.symm.trans_le hcap
  have hheader := State.savedModule_holdsHeader hw h.size hscratch hcap h64 hne
  have slot : ∀ {pa v}, (pa, v) ∈ s.ssaSlots ssa → ((s.savedModule ssa).moduleEntered leaf).physRead8 pa = .ok v :=
    State.physRead8_moduleEntered hw hssaPa
  refine ⟨(s.savedModule ssa).moduleEntered leaf,
    h.exec_getsec_launch hsmx hroot hleaf.symm hmem henter (hkey hacm hmatches) (hpasses (hsigned.1 hs) (hssa ▸ h64) hfred)
      hssa hoff hssaPa,
    State.moduleEntered_registers hheader, slot ?_, slot ?_, slot ?_, slot ?_, slot ?_, slot ?_, fun a k ha hak hk => ?_,
    fun a ha hout => ?_⟩
  iterate 6 simp [State.ssaSlots]
  · rw [State.byteAt_moduleEntered, State.byteAt_savedModule_acram hw ha hk hak, hn, hbase, hsize]
    rfl
  · exact (State.byteAt_moduleEntered _ _ _).trans (State.byteAt_savedModule_outside hw hac ha hout)

end Sys2Proof.Machine

/-! # Rings and modes (O7, O11, O12, O13)

One relation, `RingMove`, says how an instruction can leave ring, mode and system registers; each instruction is shown to satisfy it
once, and the four statements are read off `exec_ringMove`. -/

namespace Sys2Proof.Machine

/-! ## Events that end in a VM exit

`EventClosed` keeps one property through an event. A VM exit ends an event, so what holds on the way, `P`, may be more than what holds
at the end, `Q`. -/

/-- `P` is kept by each piece of the taking of an event, and `Q` holds of what it ends in. -/
structure EventEnds (P Q : State → Prop) : Prop where
  once : ∀ s e, P s → P (onceState (s.deliverOnce e))
  cr2 : ∀ s v, P s → P (s.setCr2 v)
  shut : ∀ s, P s → P (s.setActivity (.shutdown .tripleFault))
  exits : ∀ s r q i c, P s → Q (s.vmExit r q i c)
  done : ∀ s, P s → Q s

namespace EventEnds
variable {P Q : State → Prop} (h : EventEnds P Q) {s t : State}
include h

theorem once_ok {e : Event} (hs : P s) (ht : s.deliverOnce e = .ok t) : P t := by
  have := h.once s e hs
  rwa [ht] at this

theorem once_error {e : Event} {x : Stop} (hs : P s) (ht : s.deliverOnce e = .error (x, t)) : P t := by
  have := h.once s e hs
  rwa [ht] at this

theorem noteCr2 (x : Exc) (hs : P s) : P (s.noteCr2 x) := by
  unfold State.noteCr2
  split
  · exact h.cr2 _ _ hs
  · exact hs

theorem tripleFault (hs : P s) : Q s.tripleFault := by
  unfold State.tripleFault
  split
  · exact h.exits _ _ _ _ _ hs
  · exact h.done _ (h.shut _ hs)

theorem stopOutcome {x : Stop} (hs : P s) (ht : Machine.stopOutcome s x = .next t) : Q t := by
  cases x with
  | exc e => cases ht; exact h.done _ hs
  | fault f => cases ht
  | refuse f => cases ht
  | vmExit r q => cases ht; exact h.exits _ _ _ _ _ hs

theorem orExit {x : Exc} {go : State → Host.Outcome State Fault Refusal} (hs : P s) (hgo : ∀ u, P u → go u = .next t → Q t)
    (ht : s.orExit x go = .next t) : Q t := by
  unfold State.orExit at ht
  dsimp only at ht
  split at ht
  · cases ht; exact h.exits _ _ _ _ _ hs
  · exact hgo _ (h.noteCr2 x hs) ht

theorem deliverDf (hs : P s) (ht : s.deliverDf = .next t) : Q t := by
  refine h.orExit hs (fun u hu ht => ?_) ht
  split at ht
  · next h1 => cases ht; exact h.done _ (h.once_ok hu h1)
  · next h1 => exact h.orExit (h.once_error hu h1) (fun v hv ht => by cases ht; exact h.tripleFault hv) ht
  · next h1 => exact h.stopOutcome (h.once_error hu h1) ht

theorem deliverNested {x : Exc} {ext : Bool} (hs : P s) (ht : s.deliverNested x ext = .next t) : Q t := by
  unfold State.deliverNested at ht
  split at ht
  · next h1 => cases ht; exact h.done _ (h.once_ok hs h1)
  · next h1 => exact h.orExit (h.once_error hs h1) (fun _ hu ht => h.deliverDf hu ht) ht
  · next h1 => exact h.stopOutcome (h.once_error hs h1) ht

theorem deliver {e : Event} {b : Bool} (hs : P s) (ht : s.deliver e b = .next t) : Q t := by
  unfold State.deliver at ht
  split at ht
  · cases ht; exact h.exits _ _ _ _ _ hs
  · split at ht
    · next h1 => cases ht; exact h.done _ (h.once_ok hs h1)
    · next h1 =>
      refine h.orExit (h.once_error hs h1) (fun u hu ht => ?_) ht
      split at ht
      · cases ht; exact h.tripleFault hu
      · split at ht
        · exact h.deliverDf hu ht
        · exact h.deliverNested hu ht
    · next h1 => exact h.stopOutcome (h.once_error hs h1) ht

theorem finish {r : Res State} (hs : P s) (hr : Res.Ends Q r) (ht : Machine.finish s r = .next t) : Q t := by
  rcases finish_next ht with h1 | ⟨e, -, h1⟩ | ⟨x, q, -, h1⟩
  · exact hr t h1
  · exact h.orExit hs (fun _ hu ht => h.deliver hu ht) h1
  · rw [h1]; exact h.exits _ _ _ _ _ hs

end EventEnds

/-! ## What ring 3 may not change -/

/-- The system registers of R411. -/
structure SystemState where
  cr0 : Word
  cr3 : Word
  cr4 : Word
  cr8 : Word
  efer : Word
  xcr0 : Word
  gdtr : TableReg
  idtr : TableReg
  ldtr : SysReg
  tr : SysReg
  sys : SyscallMsrs
  plat : PlatformMsrs
  dbg : DebugRegs
  cet : CetState
  cnt : CounterMsrs
  vmx : VmxMode
  smx : SmxFlags
  portWrites : List PortWrite
  apicWrites : List ApicWrite

/-- Those of a state. -/
def State.system (s : State) : SystemState where
  cr0 := s.cr0
  cr3 := s.cr3
  cr4 := s.cr4
  cr8 := s.cr8
  efer := s.efer
  xcr0 := s.xcr0
  gdtr := s.gdtr
  idtr := s.idtr
  ldtr := s.ldtr
  tr := s.tr
  sys := s.sys
  plat := s.plat
  dbg := s.dbg
  cet := s.cet
  cnt := s.cnt
  vmx := s.vmx
  smx := s.smx
  portWrites := s.portWrites
  apicWrites := s.apicWrites

/-- The ring, the mode within it, and the system registers. -/
structure RingState where
  dpl : BitVec 2
  long : Bool
  system : SystemState

/-- Those of a state. -/
def State.rings (s : State) : RingState := ⟨s.ss.dpl, s.cs.l, s.system⟩

@[simp] theorem State.rings_setReg (s : State) (r : Reg) (v : Word) : (s.setReg r v).rings = s.rings := rfl
@[simp] theorem State.rings_setRip (s : State) (v : Word) : (s.setRip v).rings = s.rings := rfl
@[simp] theorem State.rings_toNext (s : State) : s.toNext.rings = s.rings := rfl
@[simp] theorem State.rings_popped (s : State) (sz : OpSize) (k n : Nat) : (s.popped sz k n).rings = s.rings := rfl
@[simp] theorem State.rings_setRflags (s : State) (v : Word) : (s.setRflags v).rings = s.rings := rfl
@[simp] theorem State.rings_setZf (s : State) (b : Bool) : (s.setZf b).rings = s.rings := rfl
@[simp] theorem State.rings_setDraws (s : State) (n : Nat) : (s.setDraws n).rings = s.rings := rfl
@[simp] theorem State.rings_setTlb (s : State) (v : Tlb) : (s.setTlb v).rings = s.rings := rfl
@[simp] theorem State.rings_setAcram (s : State) (v : List Host.Cell) : (s.setAcram v).rings = s.rings := rfl
@[simp] theorem State.rings_signal (s : State) (m : TxtMsg) : (s.signal m).rings = s.rings := rfl

@[simp] theorem State.rings_setRegSz (s : State) (sz : OpSize) (r : Reg) (v : Word) : (s.setRegSz sz r v).rings = s.rings := by
  rw [State.setRegSz_eq]; rfl

@[simp] theorem State.rings_blockAfterSs (s : State) (r : Sreg) : (s.blockAfterSs r).rings = s.rings := by
  unfold State.blockAfterSs
  split <;> rfl

theorem State.storedFrom.rings_eq {s t : State} (h : s.storedFrom t) : t.rings = s.rings := by
  rw [State.storedFrom] at h
  rw [h]
  rfl

@[simp] theorem State.rings_storeAt (s : State) (pas : List Nat) (bs : List Byte) : (s.storeAt pas bs).rings = s.rings :=
  (s.storedFrom_storeAt pas bs).rings_eq

@[simp] theorem State.rings_putBytes (s : State) (pas : List Nat) (bs : List Byte) : (s.putBytes pas bs).rings = s.rings := by
  rw [State.putBytes_eq]
  rfl

theorem State.pushAll_rings {s t : State} {sz : OpSize} {vs : List Word} (h : s.pushAll sz vs = .ok t) : t.rings = s.rings := by
  obtain ⟨pas, -, rfl⟩ := State.pushAll_spec h
  simp

theorem State.memWrite_rings {s t : State} {la : Word} {n : Nat} {v : Word} (h : s.memWrite la n v = .ok t) : t.rings = s.rings :=
  (State.writeBytes_eq h).rings_eq

theorem State.writeRMSel_rings (s : State) (p : Pfx) (rm : RM) (v : Half) :
    Res.Ends (fun t => t.rings = s.rings) (s.writeRMSel p rm v) := by
  cases rm with
  | reg r => exact .ok (s.rings_setRegSz _ _ _)
  | mem m => exact .bind fun _ _ _ h => State.memWrite_rings h

theorem State.writeRM16_rings (s : State) (p : Pfx) (rm : RM) (v : Half) :
    Res.Ends (fun t => t.rings = s.rings) (s.writeRM16 p rm v) := by
  cases rm with
  | reg r => exact .ok (s.rings_setRegSz _ _ _)
  | mem m => exact .bind fun _ _ _ h => State.memWrite_rings h

/-! ## The relations -/

/-- The ring stays, and with it the mode of ring 0; in ring 3 the system registers stay too. -/
structure State.StaysInRing (s t : State) : Prop where
  dpl : t.ss.dpl = s.ss.dpl
  long : t.cs.l = s.cs.l ∨ t.cs.l = true ∨ s.ss.dpl = 3
  system : s.ss.dpl = 3 → t.system = s.system

namespace State.StaysInRing
variable {s t : State}

theorem of_rings (h : t.rings = s.rings) : s.StaysInRing t :=
  ⟨congrArg RingState.dpl h, .inl (congrArg RingState.long h), fun _ => congrArg RingState.system h⟩

/-- What an instruction does that ring 3 may not execute. -/
theorem of_privileged (h3 : s.ss.dpl ≠ 3) (hdpl : t.ss.dpl = s.ss.dpl) (hl : t.cs.l = s.cs.l) : s.StaysInRing t :=
  ⟨hdpl, .inl hl, fun h => absurd h h3⟩

end State.StaysInRing

/-- An event on its way: nothing delivered yet, or a delivery to 64-bit ring 0. -/
inductive State.Delivering (s t : State) : Prop
  | untouched (hvmx : t.vmx = s.vmx) (hss : t.ss = s.ss) (h : t.rings = s.rings)
  | delivered (hvmx : t.vmx = s.vmx) (hl : t.cs.l = true) (hrpl : t.cs.sel.extractLsb' 0 2 = 0) (h0 : t.ss.dpl = 0)
      (hnull : s.ss.dpl ≠ 0 → t.ss = ⟨0, 0, false⟩)

/-- What an event ends in: its delivery, or a VM exit. -/
inductive State.Interrupted (s t : State) : Prop
  | delivering (h : s.Delivering t)
  | exited (v : Vmcs) (hv : s.vmx = .nonRoot v) (hrip : t.rip = v.host.rip) (hl : t.cs.l = true) (h0 : t.ss.dpl = 0)

/-- The instructions that return from ring 0 to ring 3 or enter a guest (R412). -/
def State.leavesRingZero (s : State) (i : Instr) : Prop :=
  ((∃ p, i = .iret p) ∧ s.fred = false) ∨ (∃ p, i = .sysret p) ∨ (∃ p, i = .sysexit p) ∨ i = .eretu ∨
  i = .vmlaunch ∨ i = .vmresume ∨ i = .seamret

/-- How the instruction `i` can move from `s` to `t`. -/
inductive RingMove (i : Instr) (s t : State) : Prop
  | stays (h : s.StaysInRing t)
  | interrupted (h : s.Interrupted t)
  | returns (hi : s.leavesRingZero i) (h3 : s.ss.dpl ≠ 3) (hmode : s.legalMode = true → t.legalMode = true)
  | calls (hi : i = .syscall ∨ i = .sysenter) (hl : t.cs.l = true) (h0 : t.ss.dpl = 0)
  | resumes (hi : i = .rsm) (hsmm : s.inSmm = true) (hmode : t.legalMode = true)

/-! ## Events -/

theorem and_FFFC_rpl (sel : Half) : (sel &&& 0xFFFC).extractLsb' 0 2 = 0 := by
  apply BitVec.eq_of_getLsbD_eq
  intro k hk
  have : k = 0 ∨ k = 1 := by omega
  rcases this with rfl | rfl <;> simp

/-- The segments that a delivery loads (R434, R435). -/
theorem State.Delivering.of_handler {s u t : State} {sel : Half} (h : s.Delivering u) (hvmx : t.vmx = u.vmx)
    (hcs : t.cs = ⟨sel &&& 0xFFFC, true⟩) (hss : t.ss = if u.inter then ⟨0, 0, false⟩ else u.ss) : s.Delivering t := by
  have hl : t.cs.l = true := by rw [hcs]
  have hrpl : t.cs.sel.extractLsb' 0 2 = 0 := by rw [hcs]; exact and_FFFC_rpl sel
  have hdpl : t.ss.dpl = 0 := by
    rw [hss]
    split
    · rfl
    · next hi => simpa [State.inter, State.cpl0] using hi
  refine .delivered (hvmx.trans ?_) hl hrpl hdpl fun h0 => ?_
  · cases h <;> assumption
  · cases h with
    | untouched _ hu _ =>
      have hi : u.inter = true := by simpa [State.inter, State.cpl0, hu] using h0
      rw [hss, if_pos hi]
    | delivered _ _ _ hu0 hnull =>
      have hi : ¬u.inter = true := by simp [State.inter, State.cpl0, hu0]
      rw [hss, if_neg hi, hnull h0]

theorem State.Delivering.refl (s : State) : s.Delivering s := .untouched rfl rfl rfl

theorem State.Delivering.congr {s u t : State} (h : s.Delivering u) (hss : t.ss = u.ss) (hcs : t.cs = u.cs)
    (hsys : t.system = u.system) : s.Delivering t := by
  have hvmx : t.vmx = u.vmx := congrArg SystemState.vmx hsys
  cases h with
  | untouched hv hs hr => exact .untouched (hvmx.trans hv) (hss.trans hs) (by rw [← hr, State.rings, hss, hcs, hsys]; rfl)
  | delivered hv hl hrpl h0 hnull =>
    rw [← hss] at h0 hnull
    rw [← hcs] at hl hrpl
    exact .delivered (hvmx.trans hv) hl hrpl h0 hnull

theorem State.Delivering.once {s u : State} (e : Event) (h : s.Delivering u) : s.Delivering (onceState (u.deliverOnce e)) := by
  match hd : u.deliverOnce e with
  | .ok t =>
    obtain ⟨p, -, -, ht⟩ := State.deliverOnce_ok hd
    refine h.of_handler (sel := gateSel p.lo) ?_ ?_ ?_ <;> rw [onceState, ht]
  | .error (x, t) =>
    rcases State.deliverOnce_error hd with rfl | ⟨p, -, rfl⟩
    · exact h
    · have hl : u.landed e p = _ := (State.landed_eq u e p).trans (by rw [State.switch_eq])
      refine h.of_handler (sel := gateSel p.lo) ?_ ?_ ?_ <;> rw [onceState, hl]

theorem State.Delivering.vmx_eq {s t : State} (h : s.Delivering t) : t.vmx = s.vmx := by
  cases h <;> assumption

/-- Every event moves so. -/
theorem State.interrupted_ends (s : State) : EventEnds s.Delivering s.Interrupted where
  once _ e h := h.once e
  cr2 _ _ h := h.congr rfl rfl rfl
  shut _ h := h.congr rfl rfl rfl
  done _ h := .delivering h
  exits u r q i c h := by
    have hv := h.vmx_eq
    unfold State.vmExit
    split
    · next v hu => exact .exited v (hv ▸ hu) rfl rfl rfl
    · exact .delivering h

variable {i : Instr} {s t : State}

theorem finish_ringMove {r : Res State} (h : finish s r = .next t) (hr : Res.Ends (RingMove i s) r) : RingMove i s t := by
  have hends : EventEnds s.Delivering (RingMove i s) :=
    { s.interrupted_ends with
      exits := fun u r q i c h => .interrupted (s.interrupted_ends.exits u r q i c h)
      done := fun u h => .interrupted (.delivering h) }
  exact hends.finish (.refl s) hr h

theorem finish_stays {r : Res State} (h : finish s r = .next t) (hr : Res.Ends s.StaysInRing r) : RingMove i s t :=
  finish_ringMove h fun u hu => .stays (hr u hu)

theorem deliver_ringMove {e : Event} {b : Bool} (h : s.deliver e b = .next t) : RingMove i s t :=
  .interrupted (s.interrupted_ends.deliver (.refl s) h)

end Sys2Proof.Machine

namespace Sys2Proof.Machine

/-! ## Guards -/

theorem State.ne3_of_cpl0 {s : State} (h : s.cpl0 = true) : s.ss.dpl ≠ 3 := by
  rw [(State.cpl0_iff s).1 h]
  decide

theorem State.ne3_of_requireCpl0 {s : State} {u : Unit} (h : s.requireCpl0 = .ok u) : s.ss.dpl ≠ 3 :=
  s.ne3_of_cpl0 (by simpa using raiseIf_ok.1 h)

theorem State.ne3_of_checkIo {s : State} {n : Nat} {i imm : Bool} {port : Half} {u : Unit} (h : s.checkIo n i imm port = .ok u) :
    s.ss.dpl ≠ 3 := by
  obtain ⟨_, -, h3⟩ := (Res.then_ok _ _ _).1 h
  simpa [State.cpl3, State.cpl] using raiseIf_ok.1 h3

/-! ## Code and stack segments -/

/-- A code segment that passes the checks of R204 or R205 is one of ring 0 in 64-bit mode or of ring 3. -/
theorem codeDescriptorOk_legal {sel : Half} {d : Word} {cpl : BitVec 2} (h : codeDescriptorOk sel d cpl = true) :
    (cpl = 0 ∨ cpl = 3) ∧ (descL d = true ∨ cpl = 3) := by
  simp only [codeDescriptorOk, Bool.and_eq_true, Bool.or_eq_true, beq_iff_eq] at h
  obtain ⟨⟨⟨-, hring⟩, hlong⟩, -⟩ := h
  exact ⟨hring, hlong⟩

theorem State.fetchCs_legal (s : State) (sel : Half) : Res.Ends (fun d => descL d = true ∨ s.ss.dpl = 3) (s.fetchCs sel) :=
  .bind fun _ _ => .bind fun d _ => .ite (fun hok => .ok (codeDescriptorOk_legal (csDescOk_eq sel d _ ▸ hok)).2) fun _ => .error _

theorem toNat_lt_of_isNull {sel : Half} (h : isNull sel = true) : sel.toNat < 4 := by
  by_contra hge
  rw [isNull_of_ge (by omega)] at h
  cases h

/-- A NULL selector has the all-zero descriptor (R203). -/
theorem State.loadDescriptor_of_isNull {s : State} {sel : Half} (h : isNull sel = true) : s.loadDescriptor sel = .ok 0 := by
  have := toNat_lt_of_isNull h
  exact State.loadDescriptor_of_lt (by omega)

/-- A segment that a load of SS accepts is of the current ring (R207). -/
theorem State.fetchData_ss_dpl (s : State) (sel : Half) : Res.Ends (fun d => descDpl d = s.ss.dpl) (s.fetchData .ss sel) := by
  refine .bind fun _ _ => .bind fun d hd => .ite (fun hok => .ok ?_) fun _ => .error _
  simp only [if_true, State.ssDescOk, Bool.or_eq_true, Bool.and_eq_true] at hok
  rcases hok with ⟨⟨hnull, h0⟩, -⟩ | hok
  · cases (State.loadDescriptor_of_isNull hnull).symm.trans hd
    exact ((State.cpl0_iff s).1 h0).symm
  · simp only [State.ssDescPrinted, Bool.and_eq_true, beq_iff_eq] at hok
    obtain ⟨⟨-, hdpl⟩, -⟩ := hok
    exact hdpl

variable (s : State) (p : Pfx)

/-- A load of a segment register keeps ring, mode and system registers. -/
theorem State.storeSreg_rings (r : Sreg) (sel : Half) :
    Res.Ends (fun d => ∀ u : State, u.rings = s.rings → (u.storeSreg r sel d).rings = s.rings) (s.fetchData r sel) := by
  intro d hd u hu
  cases r with
  | ss =>
    have hdpl : descDpl d = s.rings.dpl := s.fetchData_ss_dpl sel d hd
    rw [← hu]
    exact congrArg (fun x => { u.rings with dpl := x }) (hdpl.trans (congrArg RingState.dpl hu).symm)
  | _ => exact hu

/-! ## Instructions that stay in their ring -/

theorem State.branchRel_stays {u : State} (h : u.rings = s.rings) (taken : Bool) (rel : Word) :
    Res.Ends s.StaysInRing (u.branchRel taken rel) :=
  .ite (fun _ => .bind fun _ _ => .ok (.of_rings h)) fun _ => .ok (.of_rings h)

theorem State.loopWhile_stays (rel : BitVec 8) (c : Bool) : Res.Ends s.StaysInRing (s.loopWhile p rel c) :=
  .bind fun _ _ => s.branchRel_stays (s.rings_setRegSz _ _ _) _ _

theorem State.jumpIfZero_stays (rel : BitVec 8) : Res.Ends s.StaysInRing (s.jumpIfZero p rel) :=
  .bind fun _ _ => s.branchRel_stays rfl _ _

theorem State.callTo_stays (a : Word) : Res.Ends s.StaysInRing (s.callTo p a) :=
  .bind fun u hu => .ok (.of_rings (show u.rings = s.rings from State.pushAll_rings hu))

theorem State.nearReturn_stays (n : Nat) : Res.Ends s.StaysInRing (s.nearReturn p n) :=
  .bind fun _ _ => .bind fun _ _ => .bind fun _ _ => .ok (.of_rings rfl)

/-- A far transfer stays in its ring (R204). -/
theorem State.loadTarget_stays {u : State} (h : u.rings = s.rings) {d : Word} (hd : descL d = true ∨ s.ss.dpl = 3) (sel : Half)
    (rip : Word) : s.StaysInRing (u.loadTarget sel d rip) :=
  ⟨congrArg RingState.dpl h, .inr hd, fun _ => congrArg RingState.system h⟩

theorem State.farCall_stays (sz : OpSize) (sel : Half) (off : Word) : Res.Ends s.StaysInRing (s.farCall sz sel off) :=
  .bind fun d hd => .bind fun rip _ => .bind fun _ hu =>
    .ok (s.loadTarget_stays (State.pushAll_rings hu) (s.fetchCs_legal sel d hd) sel rip)

theorem State.farJmp_stays (sel : Half) (off : Word) : Res.Ends s.StaysInRing (s.farJmp sel off) :=
  .bind fun d hd => .bind fun rip _ => .ok (s.loadTarget_stays rfl (s.fetchCs_legal sel d hd) sel rip)

theorem State.farRet_stays (n : Nat) : Res.Ends s.StaysInRing (s.farRet p n) :=
  .bind fun _ _ => .bind fun _ _ => .bind fun item _ => .bind fun d hd => .bind fun rip _ =>
    .ok (s.loadTarget_stays (s.rings_popped _ _ _) (s.fetchCs_legal (item.setWidth 16) d hd) _ rip)

theorem State.popSreg_stays (r : Sreg) : Res.Ends s.StaysInRing (s.popSreg p r) :=
  .bind fun _ _ => .bind fun d hd => .ok (.of_rings (by simpa using s.storeSreg_rings r _ d hd _ (s.rings_popped _ _ _)))

theorem State.loadFar_stays (sr : Sreg) (r : Reg) (m : Mem) : Res.Ends s.StaysInRing (s.loadFar p sr r m) :=
  .bind fun _ _ => .bind fun _ _ => .bind fun d hd => .ok (.of_rings (by simpa using s.storeSreg_rings sr _ d hd s rfl))

theorem State.pushSreg_stays (r : Sreg) : Res.Ends s.StaysInRing (s.pushSreg p r) := by
  refine .bind fun u hu => .ok (.of_rings ?_)
  have h := State.pushAll_rings hu
  split <;> exact h

theorem State.storeTable_stays (m : Mem) (r : TableReg) : Res.Ends s.StaysInRing (s.storeTable p m r) :=
  .bind fun _ _ => .bind fun _ _ => .bind fun _ hu => .ok (.of_rings (State.writeBytes_eq hu).rings_eq)

theorem State.storeSel_stays (rm : RM) (sel : Half) : Res.Ends s.StaysInRing (s.storeSel p rm sel) :=
  .bind fun _ _ => .bind fun u hu => .ok (.of_rings (s.writeRMSel_rings p rm sel u hu))

theorem State.queryValue_stays (r : Reg) (rm : RM) (f : Word → Word) : Res.Ends s.StaysInRing (s.queryValue p r rm f) := by
  refine .bind fun _ _ => .bind fun d _ => ?_
  cases d with
  | none => exact .ok (.of_rings rfl)
  | some d => exact .ok (.of_rings (by simp))

theorem State.queryOk_stays (rm : RM) : Res.Ends s.StaysInRing (s.queryOk p rm) :=
  .bind fun _ _ => .bind fun _ _ => .ok (.of_rings rfl)

variable {s p} {t : State}

theorem movSreg_ringMove {n : BitVec 3} {rm : RM} {i : Instr} (h : execMovSregRM p n rm s = .next t) : RingMove i s t := by
  refine finish_stays h ?_
  split
  · exact .error _
  · next r _ =>
    exact .bind fun _ _ => .bind fun _ _ => .bind fun d hd => .ok (.of_rings (by simpa using s.storeSreg_rings r _ d hd s rfl))

theorem movFromSreg_ringMove {n : BitVec 3} {rm : RM} {i : Instr} (h : execMovRMSreg p n rm s = .next t) : RingMove i s t := by
  refine finish_stays h ?_
  split
  · exact .error _
  · exact .bind fun u hu => .ok (.of_rings (s.writeRMSel_rings p rm _ u hu))

theorem arpl_ringMove {rm : RM} {r : Reg} {i : Instr} (h : execArpl p rm r s = .next t) : RingMove i s t :=
  finish_stays h (.bind fun _ _ => .bind fun _ _ =>
    .ite (fun _ => .bind fun u hu => .ok (.of_rings (s.writeRM16_rings p rm _ u hu))) fun _ => .ok (.of_rings rfl))

theorem into_ringMove {i : Instr} (h : execInto s = .next t) : RingMove i s t := by
  unfold execInto at h
  split at h
  · exact finish_stays h (.error _)
  split at h
  · exact deliver_ringMove h
  · exact finish_stays h (.ok (.of_rings rfl))

/-! ## Instructions that ring 3 may not execute -/

/-- Neither CS nor SS is written. -/
def State.SameSegments (s t : State) : Prop := t.ss = s.ss ∧ t.cs = s.cs

theorem State.SameSegments.stays (h : s.SameSegments t) (h3 : s.ss.dpl ≠ 3) : s.StaysInRing t :=
  .of_privileged h3 (congrArg SsReg.dpl h.1) (congrArg CsReg.l h.2)

theorem State.SameSegments.trans {u : State} (h : s.SameSegments u) (h' : u.SameSegments t) : s.SameSegments t :=
  ⟨h'.1.trans h.1, h'.2.trans h.2⟩

theorem movRCr_ringMove {n : BitVec 4} {r : Reg} {i : Instr} (h : execMovRCr n r s = .next t) : RingMove i s t := by
  refine finish_stays h (.bind fun _ h0 => ?_)
  split
  · exact .error _
  · exact .ok (.of_privileged (State.ne3_of_requireCpl0 h0) rfl rfl)

theorem State.storedFrom.sameSegments (h : s.storedFrom t) : s.SameSegments t := by
  rw [State.storedFrom] at h
  rw [h]
  exact ⟨rfl, rfl⟩

theorem State.writeCr8_segments (s : State) (v : Word) : s.SameSegments (s.writeCr8 v) := by
  unfold State.writeCr8
  split
  · exact (s.storedFrom_storeAt _ _).sameSegments
  · exact ⟨rfl, rfl⟩

theorem movCr8_ringMove {r : Reg} {i : Instr} (h : execMovCr8R r s = .next t) : RingMove i s t :=
  finish_stays h (.bind fun _ h0 => .bind fun _ _ =>
    .ok (State.SameSegments.stays (t := (s.freeStatus.writeCr8 (s.reg r)).toNext) (s.freeStatus.writeCr8_segments (s.reg r))
      (State.ne3_of_requireCpl0 h0)))

theorem State.readMsr_segments (i : Nat) : Res.Ends (fun a => s.SameSegments a.2) (s.readMsr i) := by
  unfold State.readMsr
  split
  · exact .ok ⟨rfl, rfl⟩
  · split
    · exact .ok ⟨rfl, rfl⟩
    · exact .ite (fun _ => .ok ⟨rfl, rfl⟩) fun _ => .error _

theorem rdmsr_ringMove {i : Instr} (h : execRdmsr s = .next t) : RingMove i s t :=
  finish_stays h (.bind fun _ h0 => .bind fun a ha =>
    .ok (State.SameSegments.stays (t := (a.2.setEdxEax a.1).toNext) (s.readMsr_segments _ a ha) (State.ne3_of_requireCpl0 h0)))

theorem State.writePlainMsr_segments (i : Nat) (v : Word) : ∀ t ∈ s.writePlainMsr i v, s.SameSegments t := by
  unfold State.writePlainMsr
  repeat' refine forall_mem_ite (by rintro _ ⟨⟩; exact ⟨rfl, rfl⟩) ?_
  rintro _ ⟨⟩

theorem State.writeBankMsr_segments (i : Nat) (v : Word) : ∀ t ∈ s.writeBankMsr i v, s.SameSegments t := by
  unfold State.writeBankMsr
  iterate 2 refine forall_mem_ite (Option.forall_mem_map.2 fun _ _ => ⟨rfl, rfl⟩) ?_
  refine forall_mem_ite (forall_mem_ite (by rintro _ ⟨⟩; exact ⟨rfl, rfl⟩) (by rintro _ ⟨⟩; exact ⟨rfl, rfl⟩)) ?_
  repeat' refine forall_mem_ite (Option.forall_mem_map.2 fun _ _ => ⟨rfl, rfl⟩) ?_
  rintro _ ⟨⟩

theorem State.writeMsr_segments (i : Nat) (v : Word) : Res.Ends s.SameSegments (s.writeMsr i v) := by
  refine .ite (fun _ => ?_) fun _ => .error _
  split
  · next t ht => exact .ok (State.writePlainMsr_segments i v t ht)
  · split
    · next t ht => exact .ok (State.writeBankMsr_segments i v t ht)
    · refine .ite (fun _ => .ok ?_) fun _ => .error _
      unfold State.writeApic
      dsimp only
      split <;> exact ⟨rfl, rfl⟩

theorem wrmsr_ringMove {i : Instr} (h : execWrmsr s = .next t) : RingMove i s t := by
  refine finish_stays h (.bind fun _ h0 => .bind fun u hu => .ok ?_)
  have hs : s.SameSegments (if enablesCounters s.msrIndex then s.settleCounters else s) := by split <;> exact ⟨rfl, rfl⟩
  exact State.SameSegments.stays (t := u.toNext) (hs.trans (State.writeMsr_segments _ _ u hu)) (State.ne3_of_requireCpl0 h0)

theorem State.inAl_stays (imm : Bool) (port : Half) : Res.Ends s.StaysInRing (s.inAl imm port) :=
  .bind fun _ _ => .ok (.of_rings rfl)

theorem State.inEax_stays (imm : Bool) (port : Half) : Res.Ends s.StaysInRing (s.inEax p imm port) :=
  .bind fun _ _ => .ok (.of_rings (by simp))

theorem State.outAl_stays (imm : Bool) (port : Half) : Res.Ends s.StaysInRing (s.outAl imm port) :=
  .bind fun _ h => .ok (.of_privileged (State.ne3_of_checkIo h) rfl rfl)

theorem State.outEax_stays (imm : Bool) (port : Half) : Res.Ends s.StaysInRing (s.outEax p imm port) :=
  .bind fun _ h => .ok (.of_privileged (State.ne3_of_checkIo h) rfl rfl)

/-! ## GETSEC -/

theorem State.physWrite8_segments {pa : Nat} {v : Word} : Res.Ends s.SameSegments (s.physWrite8 pa v) :=
  .bind fun _ _ => .ok (by rw [State.putBytes_eq]; exact ⟨rfl, rfl⟩)

theorem State.saveSsa_segments (base : Nat) : Res.Ends s.SameSegments (s.saveSsa base) :=
  .bind fun a ha => .bind fun b hb => .bind fun c hc => .bind fun d hd => .bind fun e he => fun f hf =>
    (((((physWrite8_segments a ha).trans (physWrite8_segments b hb)).trans (physWrite8_segments c hc)).trans
      (physWrite8_segments d hd)).trans (physWrite8_segments e he)).trans (physWrite8_segments f hf)

theorem State.runAcm_segments : Res.Ends s.SameSegments s.runAcm := by
  unfold State.runAcm
  split
  · exact .ok ⟨rfl, rfl⟩
  · exact .bind fun u hu => .ok (State.SameSegments.trans (s.saveSsa_segments _ u hu) ⟨rfl, rfl⟩)

theorem State.loadAcm_segments (s : State) : s.SameSegments s.loadAcm := by
  simp [State.SameSegments, State.loadAcm, State.signal]

theorem State.enterAccs_segments : Res.Ends (fun t => s.cpl0 = true ∧ s.SameSegments t) s.enterAccs := by
  refine .bind fun u hu => .bind fun _ _ => ?_
  have h0 := s.enterChecks_cpl0 u hu
  split
  · exact .ok ⟨h0, s.loadAcm_segments.trans ⟨rfl, rfl⟩⟩
  · intro t ht
    have hload : s.SameSegments s.loadAcm.copySignatures := s.loadAcm_segments.trans ⟨rfl, rfl⟩
    exact ⟨h0, hload.trans (s.loadAcm.copySignatures.runAcm_segments t ht)⟩

theorem State.exitAc_stays : Res.Ends s.StaysInRing s.exitAc := by
  refine .bind fun _ hguard => .bind fun _ _ => .bind fun rip _ => .bind fun rsp _ => .bind fun cr4 _ => .bind fun cr3 _ =>
    .bind fun config _ => .bind fun levels _ => .bind fun _ _ => .ite (fun _ => .error _) fun _ => .ok ?_
  have h := raiseIf_ok.1 hguard
  simp only [Bool.or_eq_false_iff, Bool.not_eq_false'] at h
  obtain ⟨⟨⟨⟨-, h0⟩, -⟩, -⟩, -⟩ := h
  exact .of_privileged (s.ne3_of_cpl0 h0) rfl rfl

theorem State.ne3_of_inSenter {u : Unit} (h : raiseIf (!s.inSenter) (excGp 0) = .ok u) : s.ss.dpl ≠ 3 := by
  have h := raiseIf_ok.1 h
  simp only [Bool.not_eq_false', State.inSenter, Bool.and_eq_true] at h
  obtain ⟨⟨⟨⟨⟨⟨-, h0⟩, -⟩, -⟩, -⟩, -⟩, -⟩ := h
  exact s.ne3_of_cpl0 h0

theorem getsec_ringMove {i : Instr} (h : execGetsec s = .next t) : RingMove i s t := by
  refine finish_stays h ?_
  refine .ite (fun _ => .error _) fun _ => .ite (fun _ => .error _) fun _ => .ite (fun _ => .error _) fun _ => ?_
  refine .ite (fun _ => .ok (.of_rings rfl)) fun _ => ?_
  refine .ite (fun _ u hu => ?enteraccs) fun _ => .ite (fun _ => s.exitAc_stays) fun _ => ?_
  case enteraccs =>
    obtain ⟨h0, hsame⟩ := s.enterAccs_segments u hu
    exact hsame.stays (s.ne3_of_cpl0 h0)
  refine .ite (fun _ => .bind fun u hu => .ok ?senter) fun _ => ?_
  case senter =>
    obtain ⟨h0, hsame⟩ := s.enterAccs_segments u hu
    exact State.SameSegments.stays (t := u.setSmx _) hsame (s.ne3_of_cpl0 h0)
  refine .ite (fun _ => .bind fun _ h0 => .ok (.of_privileged (s.ne3_of_inSenter h0) rfl rfl)) fun _ => ?_
  refine .ite (fun _ => .ok (.of_rings rfl)) fun _ => .ite (fun _ => .bind fun _ h0 => .bind fun _ _ => .ok ?smctrl) fun _ => ?_
  case smctrl => exact .of_privileged (State.ne3_of_requireCpl0 h0) rfl rfl
  exact .ite (fun _ => .bind fun _ h0 => .ok (.of_privileged (s.ne3_of_inSenter h0) rfl rfl)) fun _ => .error _

/-! ## Returns to ring 3 -/

theorem State.legalMode_iff (s : State) : s.legalMode = true ↔ (s.ss.dpl = 0 ∨ s.ss.dpl = 3) ∧ (s.cs.l = true ∨ s.ss.dpl = 3) := by
  simp only [State.legalMode, Bool.and_eq_true, Bool.or_eq_true, beq_iff_eq]

/-- The code segment that IRET returns to passes the checks of R205. -/
theorem State.iretHead_legal (s : State) (sz : OpSize) :
    Res.Ends (fun h => codeDescriptorOk h.cs h.d (selRpl h.cs) = true) (s.iretHead sz) :=
  .bind fun _ _ => .bind fun _ _ => .bind fun _ _ => .bind fun _ _ => .bind fun _ _ => .bind fun d _ =>
    .ite (fun hok => .ok ((csDescOk_eq _ d _).symm.trans hok)) fun _ => .error _

/-- The stack segment that IRET loads is of the ring of the code segment (R208). -/
theorem State.iretStack_dpl {s : State} {sz : OpSize} {h : IretHead} (hcs : codeDescriptorOk h.cs h.d (selRpl h.cs) = true) :
    Res.Ends (fun x => x.2.dpl = selRpl h.cs) (s.iretStack sz h) := by
  refine .bind fun _ _ => .bind fun item _ => .bind fun _ _ => .bind fun d hd => .ite (fun hok => .ok ?_) fun _ => .error _
  show descDpl d = selRpl h.cs
  unfold State.ssDescOkIret at hok
  split at hok
  · next hnull =>
    cases (State.loadDescriptor_of_isNull hnull).symm.trans hd
    simp only [Bool.not_eq_true', Bool.or_eq_false_iff, beq_eq_false_iff_ne] at hok
    exact ((codeDescriptorOk_legal hcs).1.resolve_right hok.1).symm
  · simp only [Bool.and_eq_true, beq_iff_eq] at hok
    obtain ⟨⟨-, hdpl⟩, -⟩ := hok
    exact hdpl

/-- IRET that loads SS too: the ring is that of the code segment. -/
theorem State.iretFull_ring {s : State} {sz : OpSize} {h : IretHead} (hcs : codeDescriptorOk h.cs h.d (selRpl h.cs) = true) :
    Res.Ends (fun t => t.ss.dpl = selRpl h.cs ∧ t.cs.l = descL h.d ∧ t.system = s.system) (s.iretFull sz h) :=
  .bind fun x hx => .bind fun _ _ => .ok ⟨s.iretStack_dpl hcs x hx, rfl, rfl⟩

theorem State.iretFull_legal {s : State} {sz : OpSize} {h : IretHead} (hcs : codeDescriptorOk h.cs h.d (selRpl h.cs) = true) :
    Res.Ends (fun t => t.legalMode = true) (s.iretFull sz h) := by
  intro t ht
  obtain ⟨hdpl, hl, -⟩ := State.iretFull_ring hcs t ht
  rw [State.legalMode_iff, hdpl, hl]
  exact codeDescriptorOk_legal hcs

theorem iret_ringMove (h : execIret p s = .next t) : RingMove (.iret p) s t := by
  refine finish_ringMove h (.bind fun _ _ => .bind fun _ _ => .bind fun head hhead => ?_)
  have hcs := s.iretHead_legal _ head hhead
  refine .ite (fun houter => .ite (fun _ => .error _) fun hfred u hu => ?_) fun hnotOuter => ?_
  · have h3 : s.ss.dpl ≠ 3 := by
      intro h3
      rw [State.cpl, h3] at houter
      revert houter
      generalize selRpl head.cs = r
      revert r
      decide
    exact .returns (.inl ⟨⟨p, rfl⟩, by simpa using hfred⟩) h3 fun _ => State.iretFull_legal hcs u hu
  · refine .ite (fun _ => .error _) fun hnotInner => ?_
    have hsame : selRpl head.cs = s.ss.dpl :=
      BitVec.le_antisymm (BitVec.not_lt.1 hnotOuter) (BitVec.not_lt.1 hnotInner)
    have hmode : descL head.d = true ∨ s.ss.dpl = 3 := hsame ▸ (codeDescriptorOk_legal hcs).2
    refine .ite (fun _ u hu => ?_) fun _ => .bind fun rip _ => .ok (.stays ⟨rfl, .inr hmode, fun _ => rfl⟩)
    obtain ⟨hdpl, hl, hsys⟩ := State.iretFull_ring hcs u hu
    exact .stays ⟨hdpl.trans hsame, .inr (hl ▸ hmode), fun _ => hsys⟩

/-- What enters ring 3 is in one of the three modes. -/
theorem State.legalMode_of_ring3 (h : t.ss.dpl = 3) : t.legalMode = true := (State.legalMode_iff t).2 ⟨.inr h, .inr h⟩

theorem sysret_ringMove (h : execSysret p s = .next t) : RingMove (.sysret p) s t :=
  finish_ringMove h (.bind fun _ h0 => .bind fun _ _ => .bind fun _ _ => .bind fun _ _ =>
    .ok (.returns (.inr (.inl ⟨p, rfl⟩)) (State.ne3_of_requireCpl0 h0) fun _ => State.legalMode_of_ring3 rfl))

theorem sysexit_ringMove (h : execSysexit p s = .next t) : RingMove (.sysexit p) s t := by
  refine finish_ringMove h (.bind fun _ h0 => .bind fun _ _ => .ok ?_)
  have h0 := raiseIf_ok.1 h0
  simp only [Bool.or_eq_false_iff, Bool.not_eq_false'] at h0
  exact .returns (.inr (.inr (.inl ⟨p, rfl⟩))) (s.ne3_of_cpl0 h0.1) fun _ => State.legalMode_of_ring3 rfl

/-- ERETU and ERETS need CPL 0 (R350). -/
theorem State.ne3_of_requireFred {u : Unit} (h : s.requireFred = .ok u) : s.ss.dpl ≠ 3 := by
  obtain ⟨_, h0, -⟩ := (Res.then_ok _ _ _).1 h
  exact State.ne3_of_requireCpl0 h0

theorem eretu_ringMove (h : execEretu s = .next t) : RingMove .eretu s t := by
  refine finish_ringMove h (.bind fun u hu => .bind fun _ _ => .bind fun f _ => ?_)
  split
  · exact .error _
  · exact .bind fun _ _ => .bind fun _ _ =>
      .ok (.returns (.inr (.inr (.inr (.inl rfl)))) (State.ne3_of_requireFred hu) fun _ => State.legalMode_of_ring3 rfl)

theorem erets_ringMove {i : Instr} (h : execErets s = .next t) : RingMove i s t :=
  finish_stays h (.bind fun _ hu => .bind fun _ _ => .bind fun _ _ => .bind fun _ _ => .bind fun _ _ =>
    .ok (.of_privileged (State.ne3_of_requireFred hu) rfl rfl))

/-! ## Calls to ring 0, RSM -/

theorem syscall_ringMove (h : execSyscall s = .next t) : RingMove .syscall s t :=
  finish_ringMove h (.bind fun _ _ => .ok (.calls (.inl rfl) rfl rfl))

theorem sysenter_ringMove (h : execSysenter s = .next t) : RingMove .sysenter s t :=
  finish_ringMove h (.bind fun _ _ => .bind fun _ _ => .ok (.calls (.inr rfl) rfl rfl))

theorem rsm_ringMove (h : execRsm s = .next t) : RingMove .rsm s t :=
  finish_ringMove h (.ite (fun hsmm => .ok (.resumes rfl hsmm (s.restoreSmm_legalMode _))) fun _ => .error _)

/-! ## VM entry -/

theorem State.StaysInRing.legalMode (h : s.StaysInRing t) (hs : s.legalMode = true) : t.legalMode = true := by
  rw [State.legalMode_iff] at hs ⊢
  rw [h.dpl]
  refine ⟨hs.1, ?_⟩
  rcases h.long with hl | hl | h3
  · rw [hl]; exact hs.2
  · exact .inl hl
  · exact .inr h3

theorem State.Interrupted.legalMode (h : s.Interrupted t) (hs : s.legalMode = true) : t.legalMode = true := by
  cases h with
  | delivering h =>
    cases h with
    | untouched _ _ h => exact (State.StaysInRing.of_rings h).legalMode hs
    | delivered _ hl _ h0 _ => exact (State.legalMode_iff t).2 ⟨.inl h0, .inl hl⟩
  | exited _ _ _ hl h0 => exact (State.legalMode_iff t).2 ⟨.inl h0, .inl hl⟩

/-- The guest area that VM entry accepts is in one of the three modes (R367). -/
theorem State.loadGuest_legalMode {g : VmcsGuest} (h : s.guestOk g = true) : (s.loadGuest g).legalMode = true := by
  simp only [State.guestOk, VmcsGuest.segmentsOk, Bool.and_eq_true] at h
  obtain ⟨⟨⟨⟨⟨⟨⟨⟨⟨⟨⟨-, hlong⟩, hring⟩, -⟩, -⟩, -⟩, -⟩, -⟩, -⟩, -⟩, -⟩, -⟩ := h
  rw [State.legalMode_iff]
  show (arDpl g.ssAr = 0 ∨ arDpl g.ssAr = 3) ∧ (arL g.csAr = true ∨ arDpl g.ssAr = 3)
  simp only [Bool.not_eq_true', Bool.and_eq_false_iff, Bool.not_eq_false', beq_eq_false_iff_ne, Bool.or_eq_true, beq_iff_eq] at hlong hring
  exact ⟨hring, hlong.imp_right hring.resolve_left⟩

theorem State.loadHost_legalMode (s : State) (h : VmcsHost) : (s.loadHost h).legalMode = true := rfl

theorem State.enterGuest_legalMode {v : Vmcs} (hok : s.guestOk v.guest = true) (h : s.enterGuest v = .next t) : t.legalMode = true := by
  have hguest := s.loadGuest_legalMode hok
  unfold State.enterGuest at h
  dsimp only at h
  split at h
  · exact (State.interrupted_ends _).deliver (.refl _) h |>.legalMode hguest
  · cases h
    exact hguest

theorem State.vmEntry_ringMove {i : Instr} {launch : Bool} (hi : s.leavesRingZero i) (h : s.vmEntry launch = .next t) :
    RingMove i s t := by
  have hraise : ∀ {e : Exc}, finish s (raise e) = .next t → RingMove i s t := fun h => finish_stays h (.error _)
  unfold State.vmEntry at h
  split at h
  · exact hraise h
  · split at h
    · exact hraise h
    · cases h; exact .interrupted (s.interrupted_ends.exits _ _ _ _ _ (.refl s))
  · split at h
    · exact hraise h
    split at h
    · exact hraise h
    next h0 =>
    have h3 : s.ss.dpl ≠ 3 := s.ne3_of_cpl0 (by simpa using h0)
    split at h
    · cases h; exact .stays (.of_privileged h3 rfl rfl)
    iterate 4
      split at h
      · cases h; exact .stays (.of_privileged h3 rfl rfl)
    split at h
    · cases h; exact .returns hi h3 fun _ => rfl
    next hok =>
      simp only [Bool.not_eq_true', Bool.not_eq_false, Bool.and_eq_true] at hok
      exact .returns hi h3 fun _ => State.enterGuest_legalMode hok.1 h

theorem seamret_ringMove (h : execSeamret s = .next t) : RingMove .seamret s t := by
  have hi : s.leavesRingZero .seamret := by simp [State.leavesRingZero]
  unfold execSeamret at h
  split at h
  · exact finish_stays h (.error _)
  split at h
  · exact finish_stays h (.error _)
  next h0 =>
  have h3 : s.ss.dpl ≠ 3 := s.ne3_of_cpl0 (by simpa using h0)
  split at h
  · split at h
    · next hok => cases h; exact .returns hi h3 fun _ => s.loadGuest_legalMode hok
    · cases h; exact .returns hi h3 fun _ => rfl
  · cases h; exact .stays (.of_privileged h3 rfl rfl)

/-! ## Instructions -/

/-- Every instruction moves so. -/
theorem exec_ringMove {i : Instr} (h : exec i s = .next t) : RingMove i s t := by
  cases i with
  | jccRel8 | jccRel32 | jmpRel8 | jmpRel32 => exact finish_stays h (.bind fun _ _ => s.branchRel_stays rfl _ _)
  | loopneRel8 | loopeRel8 | loopRel8 => exact finish_stays h (s.loopWhile_stays _ _ _)
  | jecxzRel8 | jrcxzRel8 => exact finish_stays h (s.jumpIfZero_stays _ _)
  | callRel32 => exact finish_stays h (.bind fun _ _ => .bind fun _ _ => s.callTo_stays _ _)
  | jmpRM => exact finish_stays h (.bind fun _ _ => .ok (.of_rings rfl))
  | callRM => exact finish_stays h (.bind fun _ _ => s.callTo_stays _ _)
  | ret | retImm16 => exact finish_stays h (s.nearReturn_stays _ _)
  | lea => cases h; exact .stays (.of_rings (by simp))
  | nop | nopRM => cases h; exact .stays (.of_rings rfl)
  | callPtr | callFarM => exact finish_stays h (.bind fun _ _ => .bind fun _ _ => s.farCall_stays _ _ _)
  | jmpPtr => exact finish_stays h (.bind fun _ _ => .bind fun _ _ => .bind fun _ _ => s.farJmp_stays _ _)
  | jmpFarM => exact finish_stays h (.bind fun _ _ => .bind fun _ _ => s.farJmp_stays _ _)
  | retFar | retFarImm16 => exact finish_stays h (s.farRet_stays _ _)
  | iret => exact iret_ringMove h
  | intImm8 | int3 | int1 => exact deliver_ringMove h
  | into => exact into_ringMove h
  | syscall => exact syscall_ringMove h
  | sysenter => exact sysenter_ringMove h
  | sysret => exact sysret_ringMove h
  | sysexit => exact sysexit_ringMove h
  | eretu => exact eretu_ringMove h
  | erets => exact erets_ringMove h
  | rsm => exact rsm_ringMove h
  | movSregRM => exact movSreg_ringMove h
  | popEs | popSs | popDs => exact finish_stays h (.bind fun _ _ => s.popSreg_stays _ _)
  | popFs | popGs => exact finish_stays h (s.popSreg_stays _ _)
  | lds | les => exact finish_stays h (.bind fun _ _ => s.loadFar_stays _ _ _ _)
  | lss | lfs | lgs => exact finish_stays h (s.loadFar_stays _ _ _ _)
  | lkgs =>
    refine finish_stays h (.bind fun _ h0 => .bind fun _ _ => .bind fun _ _ => .ok (.of_privileged ?_ rfl rfl))
    exact s.ne3_of_cpl0 (by simpa using (Bool.or_eq_false_iff.1 (raiseIf_ok.1 h0)).2)
  | movRMSreg => exact movFromSreg_ringMove h
  | pushEs | pushCs | pushSs | pushDs => exact finish_stays h (.bind fun _ _ => s.pushSreg_stays _ _)
  | pushFs | pushGs => exact finish_stays h (s.pushSreg_stays _ _)
  | sgdt | sidt => exact finish_stays h (s.storeTable_stays _ _ _)
  | lgdt | lidt =>
    refine finish_stays h (.bind fun r hr => .ok (.of_privileged ?_ rfl rfl))
    obtain ⟨_, -, h0⟩ := (Res.then_ok _ _ _).1 hr
    exact State.ne3_of_requireCpl0 h0
  | sldt | str => exact finish_stays h (s.storeSel_stays _ _ _)
  | lldt =>
    exact finish_stays h (.bind fun _ h0 => .bind fun _ _ =>
      .ite (fun _ => .ok (.of_privileged (State.ne3_of_requireCpl0 h0) rfl rfl)) fun _ =>
        .bind fun _ _ => .ok (.of_privileged (State.ne3_of_requireCpl0 h0) rfl rfl))
  | ltr =>
    exact finish_stays h (.bind fun _ h0 => .bind fun _ _ => .bind fun _ _ => .bind fun _ _ =>
      .ok (.of_privileged (State.ne3_of_requireCpl0 h0) rfl rfl))
  | verr | verw => exact finish_stays h (s.queryOk_stays _ _)
  | lar | lsl => exact finish_stays h (s.queryValue_stays _ _ _ _)
  | arpl => exact arpl_ringMove h
  | swapgs =>
    exact finish_stays h (.bind fun _ _ => .bind fun _ _ => .bind fun _ h0 =>
      .ok (.of_privileged (State.ne3_of_requireCpl0 h0) rfl rfl))
  | rdfsbase | rdgsbase => exact finish_stays h (.bind fun _ _ => .ok (.of_rings (by simp)))
  | wrfsbase | wrgsbase => exact finish_stays h (.bind fun _ _ => .ok (.of_rings rfl))
  | movRCr => exact movRCr_ringMove h
  | movCr0R | movCr4R =>
    exact finish_stays h (.bind fun _ h0 => .bind fun _ _ => .bind fun _ _ =>
      .ok (.of_privileged (State.ne3_of_requireCpl0 h0) rfl rfl))
  | movCr2R => exact finish_stays h (.bind fun _ h0 => .ok (.of_privileged (State.ne3_of_requireCpl0 h0) rfl rfl))
  | movCr3R => exact finish_stays h (.bind fun _ h0 => .bind fun _ _ => .ok (.of_privileged (State.ne3_of_requireCpl0 h0) rfl rfl))
  | movCr8R => exact movCr8_ringMove h
  | lmsw | insb | insd | outsb | outsd => exact finish_stays (r := raiseUd) h (.error _)
  | rdmsr => exact rdmsr_ringMove h
  | wrmsr => exact wrmsr_ringMove h
  | cpuid => exact finish_stays h (.ite (fun _ => .error _) fun _ => .ok (.of_rings rfl))
  | popf | popf16 | cli | sti => exact finish_stays h (.bind fun _ _ => .ok (.of_rings rfl))
  | pushf => exact finish_stays h (.bind fun u hu => .ok (.of_rings (show u.rings = s.rings from State.pushAll_rings hu)))
  | inAlImm | inAlDx => exact finish_stays h (s.inAl_stays _ _)
  | inEaxImm | inEaxDx => exact finish_stays h (s.inEax_stays _ _)
  | outImmAl | outDxAl => exact finish_stays h (s.outAl_stays _ _)
  | outImmEax | outDxEax => exact finish_stays h (s.outEax_stays _ _)
  | vmlaunch => exact s.vmEntry_ringMove (by simp [State.leavesRingZero]) h
  | vmresume => exact s.vmEntry_ringMove (by simp [State.leavesRingZero]) h
  | seamret => exact seamret_ringMove h
  | getsec => exact getsec_ringMove h

theorem RingMove.legalMode {i : Instr} (h : RingMove i s t) (hs : s.legalMode = true) : t.legalMode = true := by
  cases h with
  | stays h => exact h.legalMode hs
  | interrupted h => exact h.legalMode hs
  | returns _ _ h => exact h hs
  | calls _ hl h0 => exact (State.legalMode_iff t).2 ⟨.inl h0, .inl hl⟩
  | resumes _ _ h => exact h

end Sys2Proof.Machine

namespace Sys2Proof.Machine

variable {s t : State}

/-! ## Steps -/

/-- An event keeps to the three modes. -/
theorem State.legalMode_closed : EventClosed fun t => t.legalMode = true where
  once u e hu := (State.Interrupted.delivering ((State.Delivering.refl u).once e)).legalMode hu
  exits u r q i c hu := (u.interrupted_ends.exits u r q i c (.refl u)).legalMode hu
  cr2 _ _ hu := hu
  shut _ hu := hu

theorem State.deliver_legalMode {e : Event} {b : Bool} (hs : s.legalMode = true) (h : s.deliver e b = .next t) : t.legalMode = true :=
  State.legalMode_closed.deliver hs h

theorem State.machineCheck_legalMode (hs : s.legalMode = true) (h : s.machineCheck = .next t) : t.legalMode = true := by
  unfold State.machineCheck at h
  split at h
  · cases h; exact hs
  · have hplat : ∀ v, (s.setPlat v).legalMode = true := fun _ => hs
    exact State.deliver_legalMode (hplat _) h

theorem State.initEvent_legalMode (hs : s.legalMode = true) : s.initEvent.legalMode = true := by
  unfold State.initEvent
  split
  · exact State.legalMode_closed.exits _ _ _ _ _ hs
  · split <;> rfl

theorem State.sipiEvent_legalMode (hs : s.legalMode = true) (v : BitVec 8) :
    Res.Ends (fun t => t.legalMode = true) (s.sipiEvent v) :=
  .ite (fun _ => .ok hs) fun _ => .ite (fun _ => .ok hs) fun _ => .bind fun _ _ => .ite (fun _ => .ok hs) fun _ =>
    .bind fun _ _ => .bind fun _ _ => .bind fun _ _ => .bind fun _ _ => .ite (fun _ => .ok hs) fun _ => .ok hs

theorem State.rlpWake_legalMode (hs : s.legalMode = true) : Res.Ends (fun t => t.legalMode = true) s.rlpWake := by
  refine .ite (fun _ => .ok hs) fun _ => .bind fun rip _ => .bind fun cr3 _ => .bind fun cr4 _ => ?_
  have hmasked : ((s.setSmx s.wakeMasks).setTlb Tlb.empty).legalMode = true := hs
  generalize (s.setSmx s.wakeMasks).setTlb Tlb.empty = u at hmasked ⊢
  exact .ite (fun _ => .ok hmasked) fun _ => .ok hmasked

theorem State.takeDb_legalMode {causes : Word} (hs : s.legalMode = true) (h : s.takeDb causes = .next t) : t.legalMode = true := by
  unfold State.takeDb at h
  dsimp only at h
  split at h
  · cases h; exact State.legalMode_closed.exits _ _ _ _ _ hs
  · have hdbg : ∀ v, (s.setDbg v).legalMode = true := fun _ => hs
    exact State.deliver_legalMode (hdbg _) h

theorem State.takeDue_legalMode {d : Due} (hs : s.legalMode = true) (h : s.takeDue d = .next t) : t.legalMode = true := by
  have hp : ∀ p, (s.setPending p).legalMode = true := fun _ => hs
  cases d with
  | reset => cases h; rfl
  | machineCheck => exact State.machineCheck_legalMode (hp _) h
  | smi => cases h
  | init => cases h; exact State.initEvent_legalMode (hp _)
  | sipi v =>
    unfold State.takeDue at h
    dsimp only at h
    split at h
    · exact State.legalMode_closed.finish (hp _) (State.sipiEvent_legalMode (hp _) v) h
    · cases h; exact hs
  | wakeup => exact State.legalMode_closed.finish (hp _) (State.rlpWake_legalMode (hp _)) h
  | stm => cases h; rfl
  | trap => exact State.takeDb_legalMode (s := ((s.setPending _).setDbPending false).setBpHits 0) hs h
  | nmi | intr => exact State.deliver_legalMode (hp _) h
  | codeBreak => exact State.takeDb_legalMode (hp _) h

theorem State.retire_legalMode (b u : State) (k r : Bool) (hu : u.legalMode = true) : (b.retire u k r).legalMode = true := by
  unfold State.retire
  dsimp only
  split <;> split <;> exact hu

theorem State.halt_legalMode (hs : s.legalMode = true) (h : s.halt = .next t) : t.legalMode = true := by
  refine State.legalMode_closed.finish hs ?_ h
  exact Res.Ends.bind fun _ _ => .ok (Q := fun t : State => t.legalMode = true) hs

theorem step_legalMode (hs : s.legalMode = true) (h : step s = .next t) : t.legalMode = true :=
  State.legalMode_closed.step hs h (fun _ _ ht => State.takeDue_legalMode hs ht) (fun _ => hs) (fun _ _ => hs)
    (fun _ _ _ _ hb hu _ => (exec_ringMove hu).legalMode hb) (fun _ _ _ hb hu _ => State.halt_legalMode hb hu)
    fun b u k r => State.retire_legalMode b u k r

/-! ## The statements -/

/-- Settles O7: instructions by `exec_ringMove`, events by `State.takeDue_legalMode`. -/
theorem stepKeepsMode : Obligations.StepKeepsMode := fun _ _ => step_legalMode

/-- Settles O11: from ring 3 to ring 3 the move stays in its ring; a delivery and a VM exit end in ring 0. -/
theorem userKeepsSystemState : Obligations.UserKeepsSystemState := by
  intro i s t h3 hsmm h ht3
  have hsys : t.system = s.system := by
    cases exec_ringMove h with
    | stays h => exact h.system h3
    | interrupted h =>
      have h0 : t.ss.dpl ≠ 0 := by rw [ht3]; decide
      cases h with
      | delivering h =>
        cases h with
        | untouched _ _ h => exact congrArg RingState.system h
        | delivered _ _ _ h _ => exact absurd h h0
      | exited _ _ _ _ h => exact absurd h h0
    | returns _ h _ => exact absurd h3 h
    | calls _ _ h0 => rw [ht3] at h0; exact absurd h0 (by decide)
    | resumes _ h _ => rw [hsmm] at h; cases h
  simpa only [State.system, SystemState.mk.injEq] using hsys

/-- Settles O12: of the moves from ring 0 only a return, VM entry and RSM end in ring 3. -/
theorem onlyReturnsLeaveRingZero : Obligations.OnlyReturnsLeaveRingZero := by
  intro i s t h0 h ht3
  have hne : t.ss.dpl ≠ 0 := by rw [ht3]; decide
  cases exec_ringMove h with
  | stays h => exact absurd (h.dpl.trans h0) hne
  | interrupted h =>
    cases h with
    | delivering h =>
      cases h with
      | untouched _ hss _ => exact absurd ((congrArg SsReg.dpl hss).trans h0) hne
      | delivered _ _ _ h _ => exact absurd h hne
    | exited _ _ _ _ h => exact absurd h hne
  | returns hi _ _ =>
    rcases hi with hi | hi | hi | hi | hi | hi | hi
    · exact .inl hi
    all_goals simp only [hi, true_or, or_true]
  | calls _ _ h => exact absurd h hne
  | resumes hi _ _ => simp only [hi, true_or, or_true]

/-- Settles O13: of the moves from ring 3 only a call, a delivery and a VM exit end in ring 0. -/
theorem ringZeroEntries : Obligations.RingZeroEntries := by
  intro i s t h3 h ht0 hrsm
  have hne : s.ss.dpl ≠ 0 := by rw [h3]; decide
  cases exec_ringMove h with
  | stays h => exact absurd (h.dpl.symm.trans ht0) hne
  | interrupted h =>
    cases h with
    | delivering h =>
      cases h with
      | untouched _ hss _ => exact absurd ((congrArg SsReg.dpl hss).symm.trans ht0) hne
      | delivered _ hl hrpl _ hnull => exact ⟨hl, .inr (.inr (.inr ⟨hnull hne, hrpl⟩))⟩
    | exited v hv hrip hl _ => exact ⟨hl, .inr (.inr (.inl ⟨v, hv, hrip⟩))⟩
  | returns _ h _ => exact absurd h3 h
  | calls hi hl _ => exact ⟨hl, hi.imp_right .inl⟩
  | resumes hi _ _ => exact absurd hi hrsm

end Sys2Proof.Machine

/-! # Deliveries and faults in them (O24, O28, O29) -/

namespace Sys2Proof.Machine

/-- Settles O24. -/
theorem deliveryFrame : Obligations.DeliveryFrame := fun _ _ _ _ hw h hexit => State.deliver_handled hw hexit h

namespace State
variable {s : State} {e : Event} {p : Plan} {x : Exc} {b : Bool}

theorem memWf_noteCr2 (hw : s.memWf = true) (x : Exc) : (s.noteCr2 x).memWf = true := by
  rw [State.noteCr2_eq]
  exact hw

theorem nonRoot_noteCr2 (hroot : s.nonRoot = false) (x : Exc) : (s.noteCr2 x).nonRoot = false := by
  rw [State.noteCr2_eq]
  exact hroot

end State

/-- Settles O28: an exception is a delivery (`State.takeException_of_root`), which ends at the handler. -/
theorem faultsArePrecise : Obligations.FaultsArePrecise := by
  intro s x p hw hroot
  have htake := State.takeException_of_root hroot x
  refine ⟨htake, fun h => ?_, State.noteCr2_eq s x⟩
  rw [htake]
  exact State.deliver_handled (State.memWf_noteCr2 hw x) (State.eventExits_of_root (State.nonRoot_noteCr2 hroot x) _ _) h

namespace State
variable {s : State} {e : Event} {p : Plan} {x : Exc} {b : Bool}

/-! ## Faults in a delivery (R423, R430) -/

theorem orExit_of_root (hroot : s.nonRoot = false) (x : Exc) (go : State → Host.Outcome State Fault Refusal) :
    s.orExit x go = go (s.noteCr2 x) :=
  if_neg (Bool.eq_false_iff.1 (State.eventExits_of_root hroot _ _))

theorem tripleFault_of_root (hroot : s.nonRoot = false) : s.tripleFault = { s with activity := .shutdown .tripleFault } :=
  if_neg (Bool.eq_false_iff.1 hroot)

/-- A double fault that reaches its handler is taken as any other event. -/
theorem deliverDf_handled (hw : s.memWf = true) (hroot : s.nonRoot = false) (h : reachesHandler s (doubleFault.event true s.rip) p) :
    handled s (doubleFault.event true s.rip) p s.deliverDf := by
  have hsame : s.deliverDf = s.deliver (doubleFault.event true s.rip) false := by
    have hnote : s.noteCr2 doubleFault = s := rfl
    simp only [State.deliverDf, State.orExit_of_root hroot, hnote, State.deliver, State.eventExits_of_root hroot,
      State.deliverOnce_of_reachesHandler h, Bool.false_eq_true, if_false]
  rw [hsame]
  exact State.deliver_handled hw (State.eventExits_of_root hroot _ _) h

/-! ## A table too short for #DF and #GP (R423, R460) -/

/-- #GP names no address. -/
theorem noteCr2_excGp (s : State) (code : DWord) : s.noteCr2 (excGp code) = s := rfl

/-- A vector beyond IDTR.limit (R430). -/
theorem plan_beyond_limit (h : s.idtr.limit.toNat < e.vector.toNat * 16 + 15) : s.plan e = .error (.exc (excGp e.idtCode)) := by
  have hgate : s.fetchGate e = raise (excGp e.idtCode) := Res.bind_of_raise (raiseIf_raise (decide_eq_true h))
  exact Res.bind_of_raise hgate

theorem deliverOnce_beyond_limit (hfred : s.fred = false) (h : s.idtr.limit.toNat < e.vector.toNat * 16 + 15) :
    s.deliverOnce e = .error (.exc (excGp e.idtCode), s) := by
  simp only [State.deliverOnce, hfred, State.plan_beyond_limit h, Bool.false_eq_true, if_false]

variable (hlimit : s.idtr.limit.toNat < 143) (hroot : s.nonRoot = false) (hfred : s.fred = false)
include hlimit hroot hfred

theorem deliverDf_beyond_limit : s.deliverDf = .next { s with activity := .shutdown .tripleFault } := by
  have honce := State.deliverOnce_beyond_limit (e := doubleFault.event true s.rip) hfred (show _ < 8 * 16 + 15 from hlimit)
  have hnote : s.noteCr2 doubleFault = s := rfl
  simp only [State.deliverDf, State.orExit_of_root hroot, hnote, honce, noteCr2_excGp, State.tripleFault_of_root hroot]

theorem deliverNested_beyond_limit (code : DWord) (ext : Bool) :
    s.deliverNested (excGp code) ext = .next { s with activity := .shutdown .tripleFault } := by
  have honce := State.deliverOnce_beyond_limit (e := (excGp code).event ext s.rip) hfred
    (show _ < 13 * 16 + 15 from hlimit.trans (by decide))
  simp only [State.deliverNested, honce, State.orExit_of_root hroot, noteCr2_excGp, State.deliverDf_beyond_limit hlimit hroot hfred]

theorem deliver_beyond_limit (h : s.idtr.limit.toNat < e.vector.toNat * 16 + 15) :
    s.deliver e b = .next { s with activity := .shutdown .tripleFault } := by
  rw [State.deliver_of_plan_raises hfred (State.plan_beyond_limit h) (State.eventExits_of_root hroot _ _),
    State.orExit_of_root hroot, noteCr2_excGp, State.tripleFault_of_root hroot, State.deliverDf_beyond_limit hlimit hroot hfred,
    State.deliverNested_beyond_limit hlimit hroot hfred, ite_self, ite_self]

end State

/-- Settles O29: `State.deliver_of_nested` says which of the three follows; `State.deliver_beyond_limit` is the second part. -/
theorem nestedFaults : Obligations.NestedFaults := by
  refine ⟨fun s y e b x p hw hroot hfred hplan hy => ?_, fun s e b hlimit hroot hfred hbeyond =>
    State.deliver_beyond_limit hlimit hroot hfred hbeyond⟩
  have hnested := State.deliver_of_nested (b := b) hfred hplan (State.eventExits_of_root hroot _ _)
    (State.eventExits_of_root hroot _ _) hy
  have hyw : y.memWf = true := by rw [hy]; exact hw
  have hyroot : y.nonRoot = false := by rw [hy]; exact hroot
  have hrip : y.rip = s.rip := by rw [hy]
  rw [hnested]
  refine ⟨fun hdf => ?_, fun hpair h => ?_, fun hdf hpair h => ?_⟩
  · rw [if_pos hdf, State.tripleFault_of_root hyroot]
  · have hdf : ¬(e.kind = .exception ∧ e.vector = 8) := by
      rintro ⟨-, h8⟩
      rw [h8] at hpair
      exact absurd hpair.2.1 (by decide)
    rw [if_neg hdf, if_pos hpair]
    rw [← hrip] at h ⊢
    exact State.deliverDf_handled hyw hyroot h
  · rw [if_neg hdf, if_neg hpair]
    rw [← hrip] at h ⊢
    exact State.deliverNested_handled hyw h

end Sys2Proof.Machine

/-! # The checks of a delivery (O25)

`State.plan` makes its checks in a row. One lemma per check says what it answers; `State.plan_eq` puts them together. -/

namespace Sys2Proof.Machine

namespace State
variable {s : State} {e : Event} {p : Plan} {bs : List Byte} {lo hi d rsp : Word} {sel : Half} {x : Exc} {ext : DWord}

/-! ## Error codes (R424) -/

theorem extBit_and_eq_zero {v : DWord} (h : v.getLsbD 0 = false) : v &&& extBit e = 0 := by
  unfold extBit
  split
  · have := BitVec.and_twoPow v 0
    rwa [h, if_neg Bool.false_ne_true] at this
  · exact BitVec.and_zero

theorem idtCode_eq (e : Event) : e.idtCode = (e.vector.setWidth 32 <<< 3) + 2 + extBit e := by
  have htwo : (e.vector.setWidth 32 <<< 3 : DWord) &&& 2 = 0 := by
    have := BitVec.and_twoPow (e.vector.setWidth 32 <<< 3 : DWord) 1
    rwa [if_neg (by simp)] at this
  have hext : (e.vector.setWidth 32 <<< 3 ||| 2 : DWord) &&& extBit e = 0 := extBit_and_eq_zero (by simp)
  rw [BitVec.add_eq_or_of_and_eq_zero _ _ htwo, BitVec.add_eq_or_of_and_eq_zero _ _ hext]
  rfl

theorem softCode_eq (e : Event) : (e.vector.setWidth 32 <<< 3 ||| 2 : DWord) = (e.vector.setWidth 32 <<< 3) + 2 := by
  have htwo : (e.vector.setWidth 32 <<< 3 : DWord) &&& 2 = 0 := by
    have := BitVec.and_twoPow (e.vector.setWidth 32 <<< 3 : DWord) 1
    rwa [if_neg (by simp)] at this
  rw [BitVec.add_eq_or_of_and_eq_zero _ _ htwo]

theorem selExtCode_eq (e : Event) (sel : Half) : e.selExtCode sel = (sel &&& 0xFFFC).setWidth 32 + extBit e := by
  have hext : ((sel &&& 0xFFFC).setWidth 32 : DWord) &&& extBit e = 0 := extBit_and_eq_zero (by simp)
  rw [BitVec.add_eq_or_of_and_eq_zero _ _ hext]
  rfl

/-! ## The gate (R430, R431) -/

theorem gateOffset_eq (e : Event) : (e.vector.setWidth 64 <<< 4 : Word) = BitVec.ofNat 64 (e.vector.toNat * 16) := by
  have := e.vector.isLt
  apply BitVec.eq_of_toNat_eq
  rw [BitVec.toNat_shiftLeft, BitVec.toNat_setWidth, BitVec.toNat_ofNat, Nat.shiftLeft_eq]
  omega

theorem gateTypeOk_iff (lo : Word) :
    gateTypeOk lo = true ↔ (lo.extractLsb' 40 4 = 14 ∨ lo.extractLsb' 40 4 = 15) ∧ lo.getLsbD 44 = false := by
  simp only [gateTypeOk, gateType, bit, Bool.and_eq_true, Bool.or_eq_true, beq_iff_eq, Bool.not_eq_true']

/-- The test of the gate's DPL, for a software interrupt. -/
theorem gateDpl_pass_iff (s : State) (e : Event) (lo : Word) :
    (e.kind == .softInt && decide (gateDpl lo < s.cpl)) = false ↔
      (e.kind = .softInt → s.ss.dpl.toNat ≤ (lo.extractLsb' 45 2).toNat) := by
  rw [Bool.and_eq_false_iff, beq_eq_false_iff_ne, decide_eq_false_iff_not, BitVec.lt_def, Nat.not_lt, imp_iff_not_or]
  rfl

/-- The tests of the gate `lo`, `hi`. -/
def gateTests (s : State) (e : Event) (lo hi : Word) : Res (Word × Word) := do
  raiseIf (!gateTypeOk lo) (excGp e.idtCode)
  raiseIf (e.kind == .softInt && gateDpl lo < s.cpl) (excGp ((e.vector.setWidth 32 <<< 3) ||| 2))
  raiseIf (!gateP lo) (excGp e.idtCode)
  return (lo, hi)

/-- The gate of the event, where it lies within the table: the bytes `bs`. -/
def readsGate (s : State) (e : Event) (bs : List Byte) : Prop :=
  e.vector.toNat * 16 + 15 ≤ s.idtr.limit.toNat ∧
    s.supReadBytes (s.idtr.base + BitVec.ofNat 64 (e.vector.toNat * 16)) 16 = .ok bs

theorem fetchGate_of_reads (h : s.readsGate e bs) : s.fetchGate e = s.gateTests e (leWord (bs.take 8)) (leWord (bs.drop 8)) := by
  obtain ⟨hin, hread⟩ := h
  rw [← gateOffset_eq] at hread
  rw [State.fetchGate, Res.bind_of_ok (raiseIf_pass (decide_eq_false (Nat.not_lt.2 hin))), Res.bind_of_ok hread]
  rfl

theorem fetchGate_reads {g : Word × Word} (h : s.fetchGate e = .ok g) :
    ∃ bs, s.readsGate e bs ∧ s.gateTests e (leWord (bs.take 8)) (leWord (bs.drop 8)) = .ok g := by
  obtain ⟨_, hrest, hin⟩ := (Res.then_ok _ _ _).1 h
  obtain ⟨bs, -, hread⟩ := (Res.then_ok _ _ _).1 hrest
  have hreads : s.readsGate e bs :=
    ⟨Nat.not_lt.1 (of_decide_eq_false (raiseIf_ok.1 hin)), by rwa [gateOffset_eq] at hread⟩
  exact ⟨bs, hreads, (fetchGate_of_reads hreads).symm.trans h⟩

/-- What the tests of a gate ask. -/
def gatePasses (s : State) (e : Event) (lo : Word) : Prop :=
  gateTypeOk lo = true ∧ (e.kind = .softInt → s.ss.dpl.toNat ≤ (lo.extractLsb' 45 2).toNat) ∧ lo.getLsbD 47 = true

theorem gateTests_type (h : gateTypeOk lo = false) : s.gateTests e lo hi = raise (excGp e.idtCode) :=
  Res.bind_of_raise (raiseIf_raise (by rw [h]; rfl))

theorem gateTests_dpl (htype : gateTypeOk lo = true) (h : ¬(e.kind = .softInt → s.ss.dpl.toNat ≤ (lo.extractLsb' 45 2).toNat)) :
    s.gateTests e lo hi = raise (excGp (e.vector.setWidth 32 <<< 3 ||| 2)) := by
  rw [← gateDpl_pass_iff, Bool.not_eq_false] at h
  rw [gateTests, Res.bind_of_ok (raiseIf_pass (by rw [htype]; rfl))]
  exact Res.bind_of_raise (raiseIf_raise h)

theorem gateTests_present (htype : gateTypeOk lo = true) (hdpl : e.kind = .softInt → s.ss.dpl.toNat ≤ (lo.extractLsb' 45 2).toNat)
    (h : lo.getLsbD 47 = false) : s.gateTests e lo hi = raise (excGp e.idtCode) := by
  rw [gateTests, Res.bind_of_ok (raiseIf_pass (by rw [htype]; rfl)), Res.bind_of_ok (raiseIf_pass ((gateDpl_pass_iff s e lo).2 hdpl))]
  exact Res.bind_of_raise (raiseIf_raise (by rw [gateP, bit, h]; rfl))

theorem gateTests_ok_iff {g : Word × Word} : s.gateTests e lo hi = .ok g ↔ s.gatePasses e lo ∧ g = (lo, hi) := by
  constructor
  · intro h
    obtain ⟨_, h, htype⟩ := (Res.then_ok _ _ _).1 h
    obtain ⟨_, h, hdpl⟩ := (Res.then_ok _ _ _).1 h
    obtain ⟨_, h, hp⟩ := (Res.then_ok _ _ _).1 h
    cases h
    exact ⟨⟨by simpa using raiseIf_ok.1 htype, (gateDpl_pass_iff s e lo).1 (raiseIf_ok.1 hdpl),
      by simpa [gateP, bit] using raiseIf_ok.1 hp⟩, rfl⟩
  · rintro ⟨⟨htype, hdpl, hp⟩, rfl⟩
    rw [gateTests, Res.bind_of_ok (raiseIf_pass (by rw [htype]; rfl)), Res.bind_of_ok (raiseIf_pass ((gateDpl_pass_iff s e lo).2 hdpl)),
      Res.bind_of_ok (raiseIf_pass (by rw [gateP, bit, hp]; rfl))]
    rfl

/-! ## The handler's code segment (R432) -/

/-- The test of R204 via a gate is the one for ring 0. -/
theorem csDescOkGate_eq (sel : Half) (d : Word) : csDescOkGate sel d = codeDescriptorOk sel d 0 := by
  have hzero : (!decide (descDpl d > 0)) = (descDpl d == 0) := by
    generalize descDpl d = x
    revert x
    decide
  rw [← csDescOk_eq, csDescOkGate, csDescOk, hzero]

theorem checkHandlerCs_null (h : sel.toNat < 4) : s.checkHandlerCs e sel = raise (excGp (extBit e)) :=
  Res.bind_of_raise (raiseIf_raise (isNull_of_lt h))

theorem checkHandlerCs_of_ge (h : 4 ≤ sel.toNat) : s.checkHandlerCs e sel = (do
    raiseIf (!inTable s sel) (excGp (e.selExtCode sel))
    let d ← s.loadDescriptor sel
    raiseIf (!codeDescriptorOk sel d 0) (excGp (e.selExtCode sel))) := by
  rw [State.checkHandlerCs, Res.bind_of_ok (raiseIf_pass (isNull_of_ge h)), selectorInTable_eq]
  simp only [csDescOkGate_eq]

theorem checkHandlerCs_outside (h : 4 ≤ sel.toNat) (hout : sel.toNat < 8 ∨ inTable s sel = false) :
    s.checkHandlerCs e sel = raise (excGp (e.selExtCode sel)) := by
  rw [checkHandlerCs_of_ge h]
  by_cases ht : inTable s sel = true
  · have h8 : sel.toNat < 8 := hout.resolve_right (by rw [ht]; decide)
    rw [Res.bind_of_ok (raiseIf_pass (by rw [ht]; rfl)), Res.bind_of_ok (loadDescriptor_of_lt h8), codeDescriptorOk_zero]
    rfl
  · exact Res.bind_of_raise (raiseIf_raise (by simpa using ht))

theorem checkHandlerCs_inside (h8 : 8 ≤ sel.toNat) (ht : inTable s sel = true) (hd : descriptorAt s sel = .ok d) :
    s.checkHandlerCs e sel = raiseIf (!codeDescriptorOk sel d 0) (excGp (e.selExtCode sel)) := by
  rw [checkHandlerCs_of_ge (by omega), Res.bind_of_ok (raiseIf_pass (by rw [ht]; rfl)), loadDescriptor_of_ge h8]
  exact Res.bind_of_ok hd

/-- A code segment that passes. -/
theorem checkHandlerCs_ok {u : Unit} (h : s.checkHandlerCs e sel = .ok u) :
    ∃ d, 8 ≤ sel.toNat ∧ inTable s sel = true ∧ descriptorAt s sel = .ok d ∧ codeDescriptorOk sel d 0 = true := by
  by_cases h4 : sel.toNat < 4
  · cases (checkHandlerCs_null h4).symm.trans h
  by_cases hout : sel.toNat < 8 ∨ inTable s sel = false
  · cases (checkHandlerCs_outside (by omega) hout).symm.trans h
  obtain ⟨h8, ht⟩ := not_or.1 hout
  have ht : inTable s sel = true := by simpa using ht
  rw [checkHandlerCs_of_ge (by omega)] at h
  obtain ⟨_, h, -⟩ := (Res.then_ok _ _ _).1 h
  obtain ⟨d, h, hd⟩ := (Res.then_ok _ _ _).1 h
  rw [loadDescriptor_of_ge (by omega)] at hd
  exact ⟨d, by omega, ht, hd, by simpa using raiseIf_ok.1 h⟩

/-! ## The stack (R434, R435) -/

/-- The slot of the TSS that a delivery with IST `ist` takes the stack pointer from. -/
def tssSlot (ist : Nat) : Nat := if ist = 0 then 4 else ist * 8 + 28

theorem inter_iff (s : State) : s.inter = true ↔ s.ss.dpl ≠ 0 := by
  simp [State.inter, State.cpl0]

/-- The stack pointer comes from the TSS where the gate names an IST entry or the ring changes. -/
theorem handlerRsp_eq (s : State) (e : Event) (ist : Nat) :
    s.handlerRsp e s.inter ist = if ist ≠ 0 ∨ s.ss.dpl ≠ 0 then s.tssStack e (tssSlot ist) else .ok (s.reg .rsp) := by
  unfold State.handlerRsp
  by_cases hist : ist = 0
  · rw [if_neg (not_not_intro hist), tssSlot, if_pos hist]
    exact if_congr ((inter_iff s).trans (by simp [hist])) rfl rfl
  · rw [if_pos hist, if_pos (.inl hist), tssSlot, if_neg hist]

theorem tssStack_beyond {off : Nat} (h : s.tr.limit.toNat < off + 7) : s.tssStack e off = raise (excTs (e.selExtCode s.tr.sel)) :=
  Res.bind_of_raise (raiseIf_raise (decide_eq_true h))

theorem tssStack_inside {off : Nat} (h : off + 7 ≤ s.tr.limit.toNat) :
    s.tssStack e off = s.supRead (s.tr.base + BitVec.ofNat 64 off) 8 :=
  Res.bind_of_ok (raiseIf_pass (decide_eq_false (Nat.not_lt.2 h)))

theorem tssStack_ok {off : Nat} (h : s.tssStack e off = .ok rsp) :
    off + 7 ≤ s.tr.limit.toNat ∧ s.supRead (s.tr.base + BitVec.ofNat 64 off) 8 = .ok rsp := by
  obtain ⟨_, hread, hin⟩ := (Res.then_ok _ _ _).1 h
  exact ⟨Nat.not_lt.1 (of_decide_eq_false (raiseIf_ok.1 hin)), hread⟩

/-! ## The plan -/

/-- The new shadow-stack pointer (R437). -/
def planSsp (s : State) (lo : Word) : Res Word :=
  if s.inter then
    (if gateIst lo = 0 then .ok s.cet.pl0Ssp
     else if s.ssEnabled0 then s.supRead (s.cet.intSspTable + BitVec.ofNat 64 (gateIst lo * 8)) 8
     else .ok 0)
  else .ok 0

/-- The plan from the stack pointer on. -/
def planFrame (s : State) (e : Event) (lo hi rsp newSsp : Word) : Res Plan := do
  raiseIf (!s.canonical rsp) (excGp (extBit e))
  raiseIf (!s.canonical (gateRip lo hi)) (excGp (extBit e))
  let pas ← s.pushPas { implicit := true } true (align16 rsp) 8 (s.frameItems e).length
  return { lo := lo, hi := hi, rsp := align16 rsp, newSsp := newSsp, pas := pas }

theorem plan_eq (s : State) (e : Event) : s.plan e = (do
    let g ← s.fetchGate e
    s.checkHandlerCs e (gateSel g.1)
    let rsp ← s.handlerRsp e s.inter (gateIst g.1)
    let newSsp ← s.planSsp g.1
    s.planFrame e g.1 g.2 rsp newSsp) := by
  unfold State.plan planSsp
  refine congrArg (s.fetchGate e >>= ·) (funext fun g => ?_)
  refine congrArg (s.checkHandlerCs e (gateSel g.1) >>= ·) (funext fun _ => ?_)
  refine congrArg (s.handlerRsp e s.inter (gateIst g.1) >>= ·) (funext fun rsp => ?_)
  dsimp only
  split
  · rfl
  · rfl

/-- What a plan's checks hold. -/
structure PlanHolds (s : State) (e : Event) (p : Plan) (rsp : Word) : Prop where
  gate : s.fetchGate e = .ok (p.lo, p.hi)
  cs : s.checkHandlerCs e (gateSel p.lo) = .ok ()
  stack : s.handlerRsp e s.inter (gateIst p.lo) = .ok rsp
  ssp : s.planSsp p.lo = .ok p.newSsp
  canonicalRsp : s.canonical rsp = true
  canonicalRip : s.canonical (gateRip p.lo p.hi) = true
  aligned : p.rsp = align16 rsp

theorem plan_holds (h : s.plan e = .ok p) : ∃ rsp, s.PlanHolds e p rsp := by
  rw [plan_eq] at h
  obtain ⟨g, h, hgate⟩ := (Res.then_ok _ _ _).1 h
  obtain ⟨_, h, hcs⟩ := (Res.then_ok _ _ _).1 h
  obtain ⟨rsp, h, hrsp⟩ := (Res.then_ok _ _ _).1 h
  obtain ⟨newSsp, h, hssp⟩ := (Res.then_ok _ _ _).1 h
  obtain ⟨_, h, hcrsp⟩ := (Res.then_ok _ _ _).1 h
  obtain ⟨_, h, hcrip⟩ := (Res.then_ok _ _ _).1 h
  obtain ⟨pas, h, -⟩ := (Res.then_ok _ _ _).1 h
  cases h
  exact ⟨rsp, hgate, hcs, hrsp, hssp, by simpa using raiseIf_ok.1 hcrsp, by simpa using raiseIf_ok.1 hcrip, rfl⟩

/-- Without CET the new SSP makes no access. -/
theorem planSsp_of_cetOff (hcet : s.cetOn = false) : ∃ v, s.planSsp lo = .ok v := by
  have h0 : ¬s.ssEnabled0 = true := by rw [State.ssEnabled0, hcet]; exact Bool.false_ne_true
  unfold planSsp
  rw [if_neg h0]
  split
  · split <;> exact ⟨_, rfl⟩
  · exact ⟨_, rfl⟩

/-! ## The check that fails -/

theorem plan_of_gate_raises (h : s.fetchGate e = raise x) : s.plan e = .error (.exc x) := by
  rw [plan_eq]
  exact Res.bind_of_raise h

section
variable (hgate : s.fetchGate e = .ok (lo, hi))
include hgate

theorem plan_of_cs_raises (h : s.checkHandlerCs e (gateSel lo) = raise x) : s.plan e = .error (.exc x) := by
  rw [plan_eq, Res.bind_of_ok hgate]
  exact Res.bind_of_raise h

variable (hcs : s.checkHandlerCs e (gateSel lo) = .ok ())
include hcs

theorem plan_of_stack_raises (h : s.handlerRsp e s.inter (gateIst lo) = raise x) : s.plan e = .error (.exc x) := by
  rw [plan_eq, Res.bind_of_ok hgate, Res.bind_of_ok hcs]
  exact Res.bind_of_raise h

theorem plan_of_not_canonical (hcet : s.cetOn = false) (hrsp : s.handlerRsp e s.inter (gateIst lo) = .ok rsp)
    (h : s.canonical rsp = false ∨ s.canonical (gateRip lo hi) = false) : s.plan e = .error (.exc (excGp (extBit e))) := by
  obtain ⟨v, hv⟩ := planSsp_of_cetOff (lo := lo) hcet
  rw [plan_eq, Res.bind_of_ok hgate, Res.bind_of_ok hcs, Res.bind_of_ok hrsp, Res.bind_of_ok hv]
  rcases h with h | h
  · exact Res.bind_of_raise (raiseIf_raise (by rw [h]; rfl))
  · exact Res.raiseIf_bind _ (Res.bind_of_raise (raiseIf_raise (by rw [h]; rfl)))

end

end State

/-- Settles O25: the checks in their order, and what `State.plan_holds` says of a plan. -/
theorem gateChecks : Obligations.GateChecks := by
  refine ⟨?fails, ?holds⟩
  case fails =>
    intro s e bs lo ext code hext hcode
    obtain rfl : ext = extBit e := hext
    rw [← State.idtCode_eq] at hcode
    subst hcode
    refine ⟨State.plan_beyond_limit, fun hin hread hlo => ?_⟩
    have hreads : s.readsGate e bs := ⟨hin, hread⟩
    have htests := State.fetchGate_of_reads hreads
    rw [← hlo] at htests
    refine ⟨fun htype => ?_, fun htype h44 => ?_⟩
    · rw [← State.gateTypeOk_iff, Bool.not_eq_true] at htype
      exact State.plan_of_gate_raises (htests.trans (State.gateTests_type htype))
    have htype := (State.gateTypeOk_iff lo).2 ⟨htype, h44⟩
    refine ⟨fun hsoft hlt => ?_, fun hdpl => ⟨fun hp => ?_, fun sel d ist off hp hsel hist hoff => ?_⟩⟩
    · rw [← State.softCode_eq]
      exact State.plan_of_gate_raises (htests.trans (State.gateTests_dpl htype fun h => absurd hlt (Nat.not_lt.2 (h hsoft))))
    · exact State.plan_of_gate_raises (htests.trans (State.gateTests_present htype hdpl hp))
    have hgate := htests.trans (State.gateTests_ok_iff.2 ⟨⟨htype, hdpl, hp⟩, rfl⟩)
    obtain rfl : sel = gateSel lo := hsel
    obtain rfl : ist = gateIst lo := hist
    obtain rfl : off = State.tssSlot (gateIst lo) := hoff
    refine ⟨fun hnull => State.plan_of_cs_raises hgate (State.checkHandlerCs_null hnull), fun h4 hout => ?_, fun h8 ht hd => ?_⟩
    · rw [← State.selExtCode_eq]
      exact State.plan_of_cs_raises hgate (State.checkHandlerCs_outside h4 hout)
    have hcs := State.checkHandlerCs_inside (e := e) h8 ht hd
    refine ⟨fun hbad => ?_, fun hok => ⟨fun hstack hbeyond => ?_, fun rsp rip hcet hrsp hrip hbad => ?_⟩⟩
    · rw [← State.selExtCode_eq]
      exact State.plan_of_cs_raises hgate (hcs.trans (raiseIf_raise (by rw [hbad]; rfl)))
    · rw [← State.selExtCode_eq]
      exact State.plan_of_stack_raises hgate (hcs.trans (raiseIf_pass (by rw [hok]; rfl)))
        (((State.handlerRsp_eq s e _).trans (if_pos hstack)).trans (State.tssStack_beyond hbeyond))
    · subst hrip
      refine State.plan_of_not_canonical hgate (hcs.trans (raiseIf_pass (by rw [hok]; rfl))) hcet ?_ hbad
      rw [State.handlerRsp_eq]
      split at hrsp
      · next hstack =>
        rw [if_pos hstack, State.tssStack_inside hrsp.1]
        exact hrsp.2
      · next hstack => rw [if_neg hstack, hrsp]
  case holds =>
    intro s e p hplan
    obtain ⟨rsp, hholds⟩ := State.plan_holds hplan
    obtain ⟨bs, ⟨hin, hread⟩, htests⟩ := State.fetchGate_reads hholds.gate
    obtain ⟨⟨htype, hdpl, hp⟩, heq⟩ := State.gateTests_ok_iff.1 htests
    obtain ⟨hlo, hhi⟩ := Prod.mk.inj heq
    rw [← hlo] at htype hdpl hp
    obtain ⟨htype, h44⟩ := (State.gateTypeOk_iff _).1 htype
    obtain ⟨d, h8, ht, hd, hok⟩ := State.checkHandlerCs_ok hholds.cs
    refine ⟨⟨bs, hin, hread, hlo, hhi⟩, htype, h44, hp, hdpl, hholds.canonicalRip,
      ⟨d, h8, ht, hd, hok, codeDescriptorOk_long hok⟩, ⟨rsp, hholds.canonicalRsp, hholds.aligned, ?_⟩, ?_⟩
    · have hstack := hholds.stack
      rw [State.handlerRsp_eq] at hstack
      by_cases hist : gateIst p.lo = 0
      · rw [if_neg (not_not_intro hist)]
        by_cases h0 : s.ss.dpl = 0
        · rw [if_neg (by simp [hist, h0])] at hstack
          rw [if_pos h0]
          exact (Except.ok.inj hstack).symm
        · rw [if_pos (.inr h0), State.tssSlot, if_pos hist] at hstack
          rw [if_neg h0]
          exact State.tssStack_ok hstack
      · rw [if_pos (.inl hist), State.tssSlot, if_neg hist] at hstack
        rw [if_pos hist]
        exact State.tssStack_ok hstack
    · rw [← State.frameItems_length]
      exact s.plan_pushPas e p hplan

end Sys2Proof.Machine

/-! # The shadow stack of a delivery (O26) -/

namespace Sys2Proof.Machine

/-! ## The SSP made canonical (R437) -/

/-- Bit `k` copied to all bits above it: those bits are then all 0 or all 1. -/
theorem signExtend_ushiftRight (a : Word) {k : Nat} (hk : k < 64) :
    ((a.setWidth (k + 1)).signExtend 64) >>> k = if a.getLsbD k then (BitVec.allOnes (64 - k)).setWidth 64 else 0 := by
  ext i hi
  rw [BitVec.getElem_ushiftRight, BitVec.getLsbD_signExtend, BitVec.msb_eq_getLsbD_last]
  by_cases h : k + i < 64
  · have hlt : i < 64 - k := by omega
    by_cases h0 : i = 0
    · subst h0
      cases hb : a.getLsbD k
      all_goals
        rw [BitVec.getLsbD_eq_getElem hk] at hb
        simp [hb, hk]
    · have hge : ¬k + i < k + 1 := by omega
      cases hb : a.getLsbD k <;> simp [hb, h, hlt, hge]
  · have hge : ¬i < 64 - k := by omega
    cases hb : a.getLsbD k <;> simp [h, hge]

/-- A value whose bits from `k` on are all 0 or all 1 is its own sign extension from bit `k`. -/
theorem signExtend_of_ushiftRight {a : Word} {k : Nat} (hk : k < 64)
    (h : a >>> k = 0 ∨ a >>> k = (BitVec.allOnes (64 - k)).setWidth 64) : (a.setWidth (k + 1)).signExtend 64 = a := by
  have hbits : ∃ b, ∀ j, k ≤ j → j < 64 → a.getLsbD j = b := by
    have hj : ∀ j, k ≤ j → a.getLsbD j = (a >>> k).getLsbD (j - k) := fun j hj => by
      rw [BitVec.getLsbD_ushiftRight, Nat.add_sub_cancel' hj]
    rcases h with h | h
    · exact ⟨false, fun j hle _ => by rw [hj j hle, h]; simp⟩
    · exact ⟨true, fun j hle hlt => by
        rw [hj j hle, h]
        have h1 : j - k < 64 := by omega
        have h2 : j - k < 64 - k := by omega
        simp [h1, h2]⟩
  obtain ⟨b, hbits⟩ := hbits
  ext i hi
  rw [BitVec.getElem_signExtend, BitVec.msb_eq_getLsbD_last]
  by_cases hik : i < k + 1
  · simp [hik, BitVec.getLsbD_eq_getElem hi]
  · have h1 := hbits i (by omega) hi
    have h2 := hbits k (le_refl k) hk
    rw [BitVec.getLsbD_eq_getElem hi] at h1
    simp [hik, h1, h2]

namespace State
variable {s : State} {e : Event} {p : Plan}

theorem laAdjust_canonical (s : State) (a : Word) : isCanonical (bit s.cr4 12) (s.laAdjust a) = true := by
  unfold State.laAdjust isCanonical
  cases h : s.la57
  · rw [State.la57] at h
    rw [h, if_neg (by decide), if_neg (by decide), signExtend_ushiftRight a (k := 47) (by decide)]
    cases a.getLsbD 47 <;> rfl
  · rw [State.la57] at h
    rw [h, if_pos rfl, if_pos rfl, signExtend_ushiftRight a (k := 56) (by decide)]
    cases a.getLsbD 56 <;> rfl

theorem laAdjust_of_canonical {a : Word} (h : isCanonical (bit s.cr4 12) a = true) : s.laAdjust a = a := by
  unfold isCanonical at h
  unfold State.laAdjust State.la57
  split at h
  · next hl =>
    rw [if_pos hl]
    exact signExtend_of_ushiftRight (k := 56) (by decide) (by simpa using h)
  · next hl =>
    rw [if_neg hl]
    exact signExtend_of_ushiftRight (k := 47) (by decide) (by simpa using h)

/-! ## What a delivery leaves of CET state -/

/-- The epilogue of a delivery writes no memory, and of CET state the end-branch tracker alone (R436, R437). -/
theorem handlerEntry_keeps (s : State) (e : Event) (p : Plan) :
    (s.handlerEntry e p).mem = s.mem ∧ (s.handlerEntry e p).acram = s.acram ∧ (s.handlerEntry e p).byteAt = s.byteAt ∧
      (s.handlerEntry e p).cet.ssp = s.cet.ssp ∧ (s.handlerEntry e p).cet.pl3Ssp = s.cet.pl3Ssp := by
  unfold State.handlerEntry State.trackEndbranch
  split <;> exact ⟨rfl, rfl, rfl, rfl, rfl⟩

section
variable (hfred : s.fred = false) (hplan : s.plan e = .ok p)
include hfred hplan

theorem deliverOnce_of_cetSteps {t : State} (h : s.cetSteps e p = .ok t) : s.deliverOnce e = .ok (t.handlerEntry e p) := by
  simp only [State.deliverOnce, hfred, hplan, h, Bool.false_eq_true, if_false]

theorem deliverOnce_of_cetSteps_raises {x : Exc} (h : s.cetSteps e p = raise x) : s.deliverOnce e = .error (.exc x, s.landed e p) := by
  have h : s.cetSteps e p = .error (.exc x) := h
  simp only [State.deliverOnce, hfred, hplan, h, Bool.false_eq_true, if_false]

end

theorem ssEnabled0_switch (s : State) (e : Event) (p : Plan) : (s.switch e p).ssEnabled0 = s.ssEnabled0 := by
  rw [State.switch_eq]
  rfl

theorem cet_switch (s : State) (e : Event) (p : Plan) : (s.switch e p).cet = s.cet := by
  rw [State.switch_eq]

/-! ### From ring 3 -/

section
variable (hinter : s.inter = true) (hss : s.ssEnabled0 = true)
include hinter hss

theorem landed_cet : (s.landed e p).cet =
    { s.cet with pl3Ssp := if s.ssEnabled3 then s.laAdjust s.cet.ssp else s.cet.pl3Ssp, ssp := p.newSsp } := by
  have h0 := (s.ssEnabled0_switch e p).trans hss
  have hadjust : ∀ a, (s.switch e p).laAdjust a = s.laAdjust a := by
    rw [State.switch_eq]
    exact fun _ => rfl
  rw [State.landed, if_pos hinter]
  show ({ (s.switch e p).cet with
    pl3Ssp := if s.ssEnabled3 then (s.switch e p).laAdjust (s.switch e p).cet.ssp else (s.switch e p).cet.pl3Ssp
    ssp := if (s.switch e p).ssEnabled0 then p.newSsp else (s.switch e p).cet.ssp } : CetState) = _
  rw [h0, hadjust, cet_switch, if_pos rfl]

theorem cetSteps_inter : s.cetSteps e p = (s.landed e p).takeToken p.newSsp := by
  have henabled : (s.landed e p).ssEnabled0 = true := by
    rw [State.ssEnabled0, landed_cet hinter hss, State.landed_eq, State.switch_eq]
    exact hss
  rw [State.cetSteps, if_pos hinter, State.cetInter, if_pos henabled, landed_cet hinter hss]

end

theorem and_seven_eq_zero_iff (v : Word) : v &&& 7 = 0 ↔ v.toNat % 8 = 0 := by
  rw [← BitVec.toNat_inj, BitVec.toNat_and, show (7 : Word).toNat = 2 ^ 3 - 1 from rfl, Nat.and_two_pow_sub_one_eq_mod]
  rfl

theorem takeToken_misaligned {ssp : Word} (h : ssp.toNat % 8 ≠ 0) : s.takeToken ssp = raise (excGp 0) :=
  Res.bind_of_raise (raiseIf_raise (bne_iff_ne.2 (mt (and_seven_eq_zero_iff ssp).1 h)))

section
variable {ssp token : Word} (h8 : ssp.toNat % 8 = 0) (htoken : s.tokenRead ssp = .ok token)
include h8 htoken

theorem takeToken_eq_of_read : s.takeToken ssp = raiseIf (token != ssp) (excGp 0) >>= fun _ => s.shadowWrite ssp 8 (ssp ||| 1) := by
  rw [State.takeToken, Res.bind_of_ok (raiseIf_pass (by rw [(and_seven_eq_zero_iff ssp).2 h8]; rfl)), Res.bind_of_ok htoken]

theorem takeToken_foreign (hne : token ≠ ssp) : s.takeToken ssp = raise (excGp 0) := by
  rw [takeToken_eq_of_read h8 htoken]
  exact Res.bind_of_raise (raiseIf_raise (bne_iff_ne.2 hne))

theorem takeToken_free {pas : List Nat} (heq : token = ssp)
    (hpas : s.accessPas { implicit := true, ss := true, write := true } ssp 8 1 = .ok pas) :
    s.takeToken ssp = .ok (s.storeAt pas (leBytes 8 (ssp ||| 1))) := by
  rw [takeToken_eq_of_read h8 htoken, Res.bind_of_ok (raiseIf_pass (by rw [heq]; simp)), State.shadowWrite, State.writeBytes,
    leBytes_length]
  exact Res.bind_of_ok hpas

end

/-! ### Within ring 0 -/

/-- The frame on the shadow stack. -/
theorem cetSteps_intra {w u1 u2 u3 u4 : State} {new top : Word} (hinter : s.inter = false) (hss : s.ssEnabled0 = true)
    (hnew : gateIst p.lo = 0 ∧ new = s.cet.ssp ∧ w = s.switch e p ∨
      gateIst p.lo ≠ 0 ∧ (s.switch e p).supRead (s.cet.intSspTable + BitVec.ofNat 64 (gateIst p.lo * 8)) 8 = .ok new ∧
        (s.switch e p).takeToken new = .ok w)
    (htop : top = new &&& ~~~(7 : Word)) (h1 : w.shadowWrite (new - 4) 4 0 = .ok u1)
    (h2 : u1.shadowWrite (top - 8) 8 (s.cs.sel.setWidth 64) = .ok u2) (h3 : u2.shadowWrite (top - 16) 8 e.rip = .ok u3)
    (h4 : u3.shadowWrite (top - 24) 8 s.cet.ssp = .ok u4) : s.cetSteps e p = .ok (u4.setSsp (top - 24)) := by
  have hin : ¬s.inter = true := Bool.eq_false_iff.1 hinter
  have hlanded : s.landed e p = s.switch e p := if_neg hin
  have hpush : (do
      let s1 ← w.shadowWrite (new - 4) 4 0
      let s2 ← s1.shadowWrite ((new &&& 0xFFFFFFFFFFFFFFF8) - 8) 8 (zsel s.cs.sel)
      let s3 ← s2.shadowWrite ((new &&& 0xFFFFFFFFFFFFFFF8) - 16) 8 e.rip
      let s4 ← s3.shadowWrite ((new &&& 0xFFFFFFFFFFFFFFF8) - 24) 8 s.cet.ssp
      return s4.setSsp ((new &&& 0xFFFFFFFFFFFFFFF8) - 24)) = Except.ok (u4.setSsp (top - 24)) := by
    subst htop
    rw [Res.bind_of_ok h1]
    refine (Res.bind_of_ok h2).trans ?_
    refine (Res.bind_of_ok h3).trans ?_
    exact Res.bind_of_ok h4
  rw [State.cetSteps, if_neg hin, hlanded, State.cetIntra, if_pos ((s.ssEnabled0_switch e p).trans hss), cet_switch]
  rcases hnew with ⟨hist, rfl, rfl⟩ | ⟨hist, hread, htake⟩
  · simp only [hist, ne_eq, not_true_eq_false, if_false]
    exact hpush
  · simp only [hist, ne_eq, not_false_eq_true, if_true]
    rw [Res.bind_of_ok hread, Res.bind_of_ok htake]
    exact hpush

end State

/-- Settles O26. -/
theorem deliveryShadowStack : Obligations.DeliveryShadowStack := by
  intro s e p hfred hcet hscet hplan
  have hss : s.ssEnabled0 = true := Bool.and_eq_true_iff.2 ⟨hcet, hscet⟩
  refine ⟨fun h3 => ?_, fun h0 w u1 u2 u3 u4 new top hnew htop h1 h2 h3 h4 => ?_⟩
  · have hinter : s.inter = true := (State.inter_iff s).2 (by rw [h3]; decide)
    obtain ⟨rsp, hholds⟩ := State.plan_holds hplan
    have hssp := hholds.ssp
    rw [State.planSsp, if_pos hinter] at hssp
    have hcetEq := State.landed_cet (e := e) (p := p) hinter hss
    have hsteps := State.cetSteps_inter (e := e) (p := p) hinter hss
    have hswitch : s.landed e p = { s.switch e p with cet := (s.landed e p).cet } := State.landed_eq s e p
    refine ⟨fun hist => ?_, fun hist => ?_, ?_, ?_, ?_, ?_, fun huser => ?_, fun huser => ?_, fun hmis => ?_, fun token h8 htoken => ?_⟩
    · rw [if_pos hist] at hssp
      exact (Except.ok.inj hssp).symm
    · rwa [if_neg hist, if_pos hss] at hssp
    · rw [hswitch, State.switch_eq, if_pos hinter]
    · rw [hswitch, State.switch_eq]
    · rw [hswitch, State.switch_eq]
      exact Gprs.get_set_same s.gpr .rsp (s.entryRsp e p)
    · rw [hcetEq]
    · have henabled : s.ssEnabled3 = true := Bool.and_eq_true_iff.2 ⟨hcet, huser⟩
      rw [hcetEq, if_pos henabled]
      exact ⟨State.laAdjust_canonical s _, State.laAdjust_of_canonical⟩
    · have hdisabled : ¬s.ssEnabled3 = true := by rw [State.ssEnabled3, huser, Bool.and_false]; exact Bool.false_ne_true
      rw [hcetEq, if_neg hdisabled]
    · exact State.deliverOnce_of_cetSteps_raises hfred hplan (hsteps.trans (State.takeToken_misaligned hmis))
    · refine ⟨fun hne => ?_, fun heq hw pas hpas => ?_⟩
      · exact State.deliverOnce_of_cetSteps_raises hfred hplan (hsteps.trans (State.takeToken_foreign h8 htoken hne))
      · have hok : (s.landed e p).memOk := (s.memWf_iff.1 hw).landed e p
        have htake := hsteps.trans (State.takeToken_free h8 htoken heq hpas)
        obtain ⟨-, -, hbytes, hkeepSsp, hkeep3⟩ :=
          ((s.landed e p).storeAt pas (leBytes 8 (p.newSsp ||| 1))).handlerEntry_keeps e p
        have hcetStore := State.storeAt_cet (s.landed e p) pas (leBytes 8 (p.newSsp ||| 1))
        refine ⟨_, State.deliverOnce_of_cetSteps hfred hplan htake, ?_, fun a ha => ?_, ?_, ?_⟩
        · rw [hbytes]
          exact State.byteAt_storeAt_same _ _ _ (State.accessPas_nodup hpas (by decide))
            ((State.accessPas_spec hpas).2.2.2.trans (leBytes_length _ _).symm) hok
        · rw [hbytes, State.byteAt_storeAt_other _ _ _ a ha hok]
        · rw [hkeepSsp, hcetStore, hcetEq]
        · rw [hkeep3, hcetStore]
  · have hinter : s.inter = false := Bool.eq_false_iff.2 (mt (State.inter_iff s).1 (not_not_intro h0))
    obtain ⟨hmem, hacram, -, hssp, -⟩ := (u4.setSsp (top - 24)).handlerEntry_keeps e p
    refine ⟨_, State.deliverOnce_of_cetSteps hfred hplan (State.cetSteps_intra hinter hss hnew htop h1 h2 h3 h4), ?_, ?_, ?_⟩
    · rw [hssp]; rfl
    · rw [hmem]; rfl
    · rw [hacram]; rfl

end Sys2Proof.Machine

/-! # Interrupts, NMI and debug traps (O30) -/

namespace Sys2Proof.Machine

namespace State
variable {s : State}

/-! ## Which event is due (R422) -/

theorem step_of_due {d : Due} (h : s.due = some d) : step s = s.takeDue d := by rw [step, h]

theorem step_of_not_due (h : s.due = none) : step s = if s.activity = .running then runNext s else .next s := by rw [step, h]

theorem trapDue_eq_false (h1 : s.dbPending = false) (h2 : s.bpHits = 0) : s.trapDue = false := by
  simp [State.trapDue, h1, h2]

section
variable {b : Bool} {v : Option (BitVec 8)} (hp : s.pending = { Pending.none with nmi := b, intr := v })
include hp

/-- Of the events that wait for a processor, NMI and interrupts come last. -/
theorem due_trap (h : s.trapDue = true) : s.due = some .trap := by
  simp [State.due, hp, Pending.none, h]

theorem due_nmi (ht : s.trapDue = false) (h : s.nmiDue = true) : s.due = some .nmi := by
  simp [State.due, hp, Pending.none, ht, h]

theorem due_intr {n : BitVec 8} (ht : s.trapDue = false) (hn : s.nmiDue = false) (h : s.intrDue = some n) : s.due = some (.intr n) := by
  simp [State.due, hp, Pending.none, ht, hn, h]

theorem due_codeBreak (ht : s.trapDue = false) (hn : s.nmiDue = false) (hi : s.intrDue = none) (hrun : s.activity = .running)
    (h : s.codeHits ≠ 0) : s.due = some .codeBreak := by
  simpa [State.due, hp, Pending.none, ht, hn, hi, hrun] using h

theorem due_eq_none (ht : s.trapDue = false) (hn : s.nmiDue = false) (hi : s.intrDue = none)
    (h : s.activity = .running → s.codeHits = 0) : s.due = none := by
  simpa [State.due, hp, Pending.none, ht, hn, hi] using h

/-- A processor for which nothing is due goes on, or waits in HLT. -/
theorem waits (ht : s.trapDue = false) (hn : s.nmiDue = false) (hi : s.intrDue = none) :
    (s.activity = .running → s.codeHits = 0 → step s = runNext s) ∧ (s.activity = .halted → step s = .next s) := by
  refine ⟨fun hrun hhits => ?_, fun hhalt => ?_⟩
  · rw [step_of_not_due (due_eq_none hp ht hn hi fun _ => hhits), if_pos hrun]
  · have hne : s.activity ≠ .running := by rw [hhalt]; decide
    rw [step_of_not_due (due_eq_none hp ht hn hi fun h => absurd h hne), if_neg hne]

end

/-! ## What blocks an interrupt and an NMI (R427, R428, R475) -/

theorem awake_of (h : s.activity = .running ∨ s.activity = .halted) : s.awake = true := by
  simpa [State.awake] using h

/-- The conditions under which an interrupt is taken. -/
def takesIntr (s : State) (v : BitVec 8) : Prop :=
  bit s.rflags 9 = true ∧ s.movSsBlocked = false ∧ s.stiBlocked = false ∧ (s.cr8 &&& 0xF).toNat < v.toNat / 16

theorem intrDue_eq {v : BitVec 8} (hawake : s.awake = true) (hv : s.pending.intr = some v) :
    (s.takesIntr v → s.intrDue = some v) ∧ (¬s.takesIntr v → s.intrDue = none) := by
  have hclass : (v >>> 4).toNat = v.toNat / 16 := by rw [BitVec.toNat_ushiftRight, Nat.shiftRight_eq_div_pow]
  have htest : (s.awake && s.ifl && !s.movSsBlocked && !s.stiBlocked && decide ((s.cr8 &&& 0xF).toNat < (v >>> 4).toNat)) = true ↔
      s.takesIntr v := by
    simp only [hawake, hclass, State.ifl, takesIntr, Bool.and_eq_true, Bool.not_eq_true', decide_eq_true_eq, true_and, and_assoc]
  rw [State.intrDue, hv]
  exact ⟨fun h => if_pos (htest.2 h), fun h => if_neg (mt htest.1 h)⟩

theorem nmiDue_eq_false (h : s.pending.nmi = false ∨ s.nmiBlocked = true ∨ s.movSsBlocked = true ∨ s.smx.maskNmi = true) :
    s.nmiDue = false := by
  rcases h with h | h | h | h <;> simp [State.nmiDue, h]

theorem nmiDue_eq_true (hp : s.pending.nmi = true) (hawake : s.awake = true) (h1 : s.nmiBlocked = false) (h2 : s.movSsBlocked = false)
    (h3 : s.smx.maskNmi = false) : s.nmiDue = true := by
  simp [State.nmiDue, hp, hawake, h1, h2, h3]

theorem intrDue_eq_none (h : s.pending.intr = none) : s.intrDue = none := by
  rw [State.intrDue, h]

end State

/-- Settles O30. -/
theorem interruptsAreTaken : Obligations.InterruptsAreTaken := by
  refine ⟨fun s v hp hact htrap hhits => ?_, fun s hp hact htrap hhits => ?_, fun s b v hp hrun hss h => ?_⟩
  · have ht := State.trapDue_eq_false htrap hhits
    have hn : s.nmiDue = false := State.nmiDue_eq_false (.inl (by rw [hp]; rfl))
    have hi := State.intrDue_eq (State.awake_of hact) (show s.pending.intr = some v by rw [hp])
    refine ⟨fun hif hmov hsti hclass => ?_, fun hblocked => State.waits hp ht hn (hi.2 ?_)⟩
    · rw [State.step_of_due (State.due_intr hp ht hn (hi.1 ⟨hif, hmov, hsti, hclass⟩)), State.takeDue, hp]
      rfl
    · rintro ⟨hif, hmov, hsti, hclass⟩
      rcases hblocked with h | h | h | h
      · exact absurd (h.symm.trans hif) (by decide)
      · exact absurd (hmov.symm.trans h) (by decide)
      · exact absurd (hsti.symm.trans h) (by decide)
      · exact absurd hclass (Nat.not_lt.2 h)
  · have ht := State.trapDue_eq_false htrap hhits
    have hi : s.intrDue = none := State.intrDue_eq_none (by rw [hp]; rfl)
    refine ⟨fun h1 h2 h3 => ?_, fun hblocked => ?_⟩
    · have hn := State.nmiDue_eq_true (show s.pending.nmi = true by rw [hp]) (State.awake_of hact) h1 h2 h3
      rw [State.step_of_due (State.due_nmi hp ht hn), State.takeDue, hp]
      rfl
    · exact State.waits hp ht (State.nmiDue_eq_false (.inr hblocked)) hi
  · have ht : s.trapDue = true := by
      simpa [State.trapDue, State.awake, hrun, hss] using h
    rw [State.step_of_due (State.due_trap hp ht)]
    rfl

end Sys2Proof.Machine

/-! # HLT, debug exceptions, machine checks, stored code (O32) -/

namespace Sys2Proof.Machine

/-! ## HLT (R461) -/

theorem decode_hlt (rest : List Byte) : decode true (0xF4 :: rest) = .error (.halt rest.length) := rfl

namespace State
variable {s t : State} {p : Plan}

theorem fetchInstr_hlt {rest : List Byte} (hl : s.cs.l = true) (h : s.fetch.1 = 0xF4 :: rest) : s.fetchInstr = .ok (.halt 1) := by
  have hd : decode s.mode64 s.fetch.1 = .error (.halt rest.length) := by rw [h, State.mode64, hl, decode_hlt]
  rw [State.fetchInstr, hd]
  show Except.ok (Fetched.halt (s.fetch.1.length - rest.length)) = _
  rw [h, List.length_cons, Nat.add_sub_cancel_left]

theorem runNext_hlt {rest : List Byte} (hl : s.cs.l = true) (h : s.fetch.1 = 0xF4 :: rest) :
    runNext s = endInstr (s.beginBytes 1) false false ((s.beginBytes 1).goesOn false State.halt) (s.beginBytes 1).halt := by
  rw [runNext, fetchInstr_hlt hl h]

theorem halt_of_cpl0 (h0 : s.ss.dpl = 0) : s.halt = .next (s.toNext.setActivity .halted) :=
  finish_of_ok (Res.bind_of_ok (raiseIf_pass (by rw [(State.cpl0_iff s).2 h0]; rfl)))

theorem halt_of_not_cpl0 (h0 : s.ss.dpl ≠ 0) : s.halt = s.takeException (excGp 0) :=
  finish_of_raise (Res.bind_of_raise (raiseIf_raise (by rw [Bool.eq_false_iff.2 (mt (State.cpl0_iff s).1 h0)]; rfl)))

/-- An instruction of 64-bit mode that goes on to its next instruction, not beyond the end of the address space. -/
theorem endInstr_next {goesOn : Bool} (hl : t.cs.l = true) (hrip : t.rip = s.nextRip) (hle : s.rip.toNat ≤ s.nextRip.toNat) :
    endInstr s false false goesOn (.next t) = .next { t with rflags := t.rflags &&& ~~~(0x10000 : Word) } := by
  have hwrap : State.wrapped s t goesOn = false := by
    simp [State.wrapped, State.compat, hl, Nat.not_lt.2 hle]
  have hretire : s.retire t false false = { t with rflags := t.rflags &&& ~~~(0x10000 : Word) } := by
    have hsame : ¬(false || (t.setRflags (setBit t.rflags 16 false)).rip != s.nextRip) = true := by
      rw [show (t.setRflags (setBit t.rflags 16 false)).rip = t.rip from rfl, hrip]
      simp
    exact if_neg hsame
  show (if State.wrapped s t goesOn then _ else Host.Outcome.next (s.retire t false false)) = _
  rw [hwrap, hretire]
  rfl

/-! ## Debug exceptions (R413, R422, R51) -/

/-- A #DB that no VM exit takes reaches its handler with the causes in DR6. -/
theorem takeDb_handled {causes : Word} {u : State} (hw : s.memWf = true) (hroot : s.nonRoot = false)
    (hu : u = { s with dbg := { s.dbg with dr6 := s.dbg.dr6 ||| causes } })
    (h : reachesHandler u ⟨1, .exception, false, none, s.rip⟩ p) :
    handled u ⟨1, .exception, false, none, s.rip⟩ p (s.takeDb causes) := by
  have htake : s.takeDb causes = u.deliver ⟨1, .exception, false, none, s.rip⟩ false := by
    rw [hu]
    exact if_neg (Bool.eq_false_iff.1 (State.eventExits_of_root hroot _ _))
  rw [htake]
  subst hu
  exact State.deliver_handled hw (State.eventExits_of_root hroot _ _) h

theorem fourBits_zero (f : Nat → Bool) : (fourBits f).getLsbD 0 = f 0 := by
  rw [fourBits, BitVec.getLsbD_append]
  simp

/-- The first breakpoint at RIP. -/
theorem codeHits_first (hrf : bit s.rflags 16 = false) (hss : s.movSsBlocked = false) (hen : s.dbg.dr7 &&& 3 ≠ 0)
    (hkind : s.dbg.dr7.extractLsb' 16 2 = 0) (haddr : s.dbg.dr0 = s.rip) : s.codeHits.getLsbD 0 = true := by
  have hopen : ¬(bit s.rflags 16 || s.movSsBlocked) = true := by rw [hrf, hss]; decide
  rw [State.codeHits, if_neg hopen, fourBits_zero]
  simpa [State.bpEnabled, State.bpKind, State.bpAddr, hkind, haddr] using hen

/-! ## Machine checks (R413) -/

theorem machineCheck_shutdown (h : bit s.cr4 6 = false ∨ bit s.plat.mcgStatus 2 = true) :
    s.machineCheck = .next { s with activity := .shutdown .plain } := by
  refine if_pos ?_
  rcases h with h | h <;> simp [State.mce, h]

theorem machineCheck_handled {u : State} (hw : s.memWf = true) (hroot : s.nonRoot = false)
    (hu : u = { s with plat := { s.plat with mcgStatus := s.plat.mcgStatus ||| 4 } }) (h6 : bit s.cr4 6 = true)
    (h2 : bit s.plat.mcgStatus 2 = false) (h : reachesHandler u ⟨18, .exception, true, none, s.rip⟩ p) :
    handled u ⟨18, .exception, true, none, s.rip⟩ p s.machineCheck := by
  have htake : s.machineCheck = u.deliver ⟨18, .exception, true, none, s.rip⟩ true := by
    rw [hu]
    exact if_neg (by simp [State.mce, h6, h2])
  rw [htake]
  subst hu
  exact State.deliver_handled hw (State.eventExits_of_root hroot _ _) h

/-! ## Stored code (R122, D5) -/

theorem fetchByte_stored {pa : Nat} (hl : s.cs.l = true) (h : s.linear { user := s.ss.dpl == 3, fetch := true } s.rip = .ok pa)
    (hstored : pa ∈ s.stored) : s.fetchByte s.rip = .error (.refuse .storedCodeFetched) := by
  have hcompat : s.compat = false := by rw [State.compat, hl]; rfl
  have hwrap : ¬((s.compat && decide (2 ^ 32 ≤ s.rip.toNat)) || decide (s.rip.toNat < s.rip.toNat)) = true := by
    rw [hcompat]
    simp
  rw [State.fetchByte, if_neg hwrap]
  exact (Res.bind_of_ok h).trans (if_pos (List.contains_iff_mem.2 hstored))

theorem fetch_of_refused {r : Refusal} (h : s.fetchByte s.rip = .error (.refuse r)) : s.fetch = ([], some (.refuse r)) := by
  rw [State.fetch, State.fetchBytes, h]

theorem runNext_of_refused {r : Refusal} (hl : s.cs.l = true) (h : s.fetchByte s.rip = .error (.refuse r)) : runNext s = .refused r := by
  have hfetch : s.fetchInstr = .error (.refuse r) := by
    rw [State.fetchInstr, State.mode64, hl, fetch_of_refused h]
    rfl
  rw [runNext, hfetch]
  rfl

end State

/-- Settles O32. -/
theorem haltDebugMachineCheck : Obligations.HaltDebugMachineCheck := by
  refine ⟨?hlt, ?waits, ?trap, ?breakpoint, ?codeBreak, ?machineCheck, ?stored⟩
  case hlt =>
    intro s b rest hdue hrun hl hfetch hb
    have hbegin : b = s.beginBytes 1 := hb
    have hstep : step s = endInstr b false false (b.goesOn false State.halt) b.halt := by
      rw [State.step_of_not_due hdue, if_pos hrun, State.runNext_hlt hl hfetch, hbegin]
    have hbl : b.cs.l = true := by rw [hb]; exact hl
    refine ⟨fun h0 hend => ?_, fun h0 => ?_⟩
    · have hle : b.rip.toNat ≤ b.nextRip.toNat := by
        rw [hb]
        show s.rip.toNat ≤ (s.rip + 1).toNat
        have hne : s.rip.toNat ≠ 2 ^ 64 - 1 := fun h => hend (BitVec.eq_of_toNat_eq h)
        have hlt := s.rip.isLt
        rw [BitVec.toNat_add, show (1 : Word).toNat = 1 from rfl]
        omega
      rw [hstep, State.halt_of_cpl0 (by rw [hb]; exact h0), State.endInstr_next (t := b.toNext.setActivity .halted) hbl rfl hle, hb]
      rfl
    · rw [hstep, State.halt_of_not_cpl0 (by rw [hb]; exact h0)]
  case waits =>
    intro s hdue hidle
    rw [State.step_of_not_due hdue, if_neg hidle]
  case trap =>
    intro s u p hdue hw hroot hu h
    rw [State.step_of_due hdue]
    exact State.takeDb_handled (s := { s with dbPending := false, bpHits := 0 }) hw hroot hu h
  case breakpoint =>
    intro s hp hrun htrap hhits hrf hss hen hkind haddr
    have hfirst := State.codeHits_first hrf hss hen hkind haddr
    refine ⟨State.due_codeBreak (b := false) (v := none) hp (State.trapDue_eq_false htrap hhits)
      (State.nmiDue_eq_false (.inl (by rw [hp]; rfl))) (State.intrDue_eq_none (by rw [hp]; rfl)) hrun fun h => ?_, hfirst⟩
    rw [h] at hfirst
    exact absurd hfirst (by decide)
  case codeBreak =>
    intro s u p hdue hw hroot hu h
    rw [State.step_of_due hdue]
    exact State.takeDb_handled hw hroot hu h
  case machineCheck =>
    intro s t u p hdue hw hroot ht hu
    have hstep : step s = t.machineCheck := by rw [State.step_of_due hdue, ht]; rfl
    rw [hstep]
    subst ht
    exact ⟨fun h => State.machineCheck_shutdown h, fun h6 h2 h => State.machineCheck_handled hw hroot hu h6 h2 h⟩
  case stored =>
    intro s pa hdue hrun hl hpa hstored
    rw [State.step_of_not_due hdue, if_pos hrun]
    exact State.runNext_of_refused hl (State.fetchByte_stored hl hpa hstored)

end Sys2Proof.Machine

/-! # INIT (O33) -/

namespace Sys2Proof.Machine

/-- A counter that does not count keeps its value (R60). -/
theorem settle_getElem?_of_stopped {counts : Nat → Bool} {draw k : Nat} (i : Nat) (l : List Word) (h : counts (i + k) = false) :
    (settle counts draw i l)[k]? = l[k]? := by
  induction l generalizing i k with
  | nil => rfl
  | cons v vs ih =>
    cases k with
    | zero =>
      have hi : ¬counts i = true := Bool.eq_false_iff.1 h
      simp [settle, hi]
    | succ k =>
      rw [settle, List.getElem?_cons_succ, List.getElem?_cons_succ]
      exact ih (i + 1) (by rwa [Nat.add_right_comm, Nat.add_assoc])

/-- CD of CR0, the one bit that INIT keeps (R450). -/
theorem cr0Of_and_cd (v : Word) : cr0Of (v &&& 0x40000000) = 0x80000033 ||| (v &&& 0x40000000) := by
  rw [cr0Of, BitVec.and_assoc]
  rfl

namespace State
variable {s : State}

/-- The registers that INIT leaves on every processor (R450), but for CR3, RIP and the activity state. -/
structure InitLeaves (s t : State) : Prop where
  eq : t = { s.initRegisters with cr3 := t.cr3, rip := t.rip, nextRip := t.nextRip, activity := t.activity }
  bsp : bit s.plat.apicBase 8 = true → t.cr3 = 0xFFFFE000 ∧ t.rip = 0xFFFFFFF0 ∧ t.activity = .running
  ap : bit s.plat.apicBase 8 = false → t.cr3 = 0 ∧ t.activity = .waitForSipi

theorem initEvent_leaves (hroot : s.nonRoot = false) : s.InitLeaves s.initEvent := by
  unfold State.initEvent
  rw [hroot, if_neg Bool.false_ne_true]
  split
  · next h => exact ⟨rfl, fun _ => ⟨rfl, rfl, rfl⟩, fun h' => absurd (h.symm.trans h') (by decide)⟩
  · next h => exact ⟨rfl, fun h' => absurd h' h, fun _ => ⟨rfl, rfl⟩⟩

theorem step_init (hdue : s.due = some .init) : step s = .next (s.setPending (s.pending.without .init)).initEvent := by
  rw [step, hdue]
  rfl

theorem initRegisters_pmc {k : Nat} (h : s.pmcCounts k = false) : s.initRegisters.cnt.pmc[k]? = s.cnt.pmc[k]? :=
  settle_getElem?_of_stopped 0 _ (by rwa [Nat.zero_add])

theorem initRegisters_fixedCtr {k : Nat} (h : s.fixedCounts k = false) : s.initRegisters.cnt.fixedCtr[k]? = s.cnt.fixedCtr[k]? :=
  settle_getElem?_of_stopped 0 _ (by rwa [Nat.zero_add])

theorem pmcCounts_eq_false (h : bit (s.cnt.perfEvtSel.getD k 0) 22 = false ∨ bit s.cnt.perfGlobalCtrl k = false) :
    s.pmcCounts k = false := Bool.and_eq_false_iff.2 h

theorem fixedCounts_eq_false (h : (s.cnt.fixedCtrCtrl >>> (4 * k)) &&& 3 = 0 ∨ bit s.cnt.perfGlobalCtrl (32 + k) = false) :
    s.fixedCounts k = false := by
  rw [State.fixedCounts, Bool.and_eq_false_iff, bne_eq_false_iff_eq]
  exact h

theorem initRegisters_reg {r : Reg} (h : r ≠ .rdx) : s.initRegisters.reg r = 0 := by
  have hzero : Gprs.zero.get r = 0 := by cases r <;> rfl
  exact (Gprs.get_set_other Gprs.zero .rdx r _ h).trans hzero

end State

/-- Settles O33. -/
theorem initState : Obligations.InitState := by
  intro s hdue hroot
  have hleaves := State.initEvent_leaves (s := s.setPending (s.pending.without .init)) hroot
  refine ⟨_, State.step_init hdue, ?_⟩
  obtain ⟨heq, hbsp, hap⟩ := hleaves
  generalize (s.setPending (s.pending.without .init)).initEvent = t at *
  rw [heq]
  refine ⟨rfl, cr0Of_and_cd s.cr0, rfl, rfl, rfl, rfl, rfl, rfl, rfl, rfl, rfl, rfl, rfl, rfl, rfl,
    fun r hr => State.initRegisters_reg hr, rfl, rfl, rfl, rfl, rfl, rfl, rfl, rfl,
    fun k h => State.initRegisters_pmc (State.pmcCounts_eq_false h), fun k h => State.initRegisters_fixedCtr (State.fixedCounts_eq_false h),
    rfl, rfl, rfl, rfl, rfl, rfl, rfl, rfl, rfl, hbsp, hap⟩

end Sys2Proof.Machine

/-! # SIPI (O34) -/

namespace Sys2Proof.Machine

/-! ## CR0 of the entry structure (R452, R109) -/

/-- A mask among the bits that R30 fixes, ET aside. -/
theorem and_fixedMask (v : Word) {mask : Word} (hfixed : ~~~(0x40050008 : Word) &&& mask = mask) (het : (0x10 : Word) &&& mask = 0) :
    ((v &&& ~~~(0x40050008 : Word)) ||| 0x10) &&& mask = v &&& mask := by
  rw [BitVec.and_or_distrib_right, het, BitVec.and_assoc, hfixed]
  exact BitVec.or_zero

theorem and_or_same {w : Nat} (v m : BitVec w) : v &&& m ||| m = m := by
  ext i hi
  simp

/-- The two tests of CR0 are one: ET aside, the bits that R30 fixes have their values. -/
theorem sipiCr0Ok_iff (v : Word) : sipiCr0Ok v = true ↔ v &&& ~~~(0x40050008 : Word) ||| 0x10 = 0x80000033 := by
  simp only [sipiCr0Ok, cr0FixedOk, Bool.and_eq_true, beq_iff_eq]
  constructor
  · rintro ⟨hset, hclear⟩
    calc v &&& ~~~(0x40050008 : Word) ||| 0x10
        = v &&& (0xA0000027 ||| ~~~(cr0FixedValue ||| cr0Flexible) ||| 0x10) ||| 0x10 := rfl
      _ = 0x80000023 ||| 0 ||| (v &&& 0x10 ||| 0x10) := by
        rw [BitVec.and_or_distrib_left, BitVec.and_or_distrib_left, hset, hclear, BitVec.or_assoc]
      _ = 0x80000033 := by rw [and_or_same]; rfl
  · intro h
    rw [← and_fixedMask v (mask := 0xA0000027) rfl rfl, ← and_fixedMask v (mask := ~~~(cr0FixedValue ||| cr0Flexible)) rfl rfl, h]
    exact ⟨rfl, rfl⟩

/-- CR0 as it is loaded. -/
theorem cr0Of_of_sipiCr0Ok {v : Word} (h : v &&& ~~~(0x40050008 : Word) ||| 0x10 = 0x80000033) : cr0Of v = v ||| 0x10 := by
  calc cr0Of v = (v &&& ~~~(0x40050008 : Word) ||| 0x10) ||| (v &&& 0x40050008) := by rw [h]; rfl
    _ = (v &&& (~~~(0x40050008 : Word) ||| 0x40050008)) ||| 0x10 := by
      rw [BitVec.and_or_distrib_left]
      ac_rfl
    _ = v ||| 0x10 := by
      rw [show ~~~(0x40050008 : Word) ||| 0x40050008 = BitVec.allOnes 64 from rfl, BitVec.and_allOnes]

/-! ## The entry structure (R451, R452) -/

namespace State
variable {s : State}

/-- The values that a SIPI loads (R109). -/
structure SipiEntry where
  cr0 : Word
  cr3 : Word
  cr4 : Word
  rip : Word

/-- The entry structure at `a` and its values, FEATURES being 1. -/
structure HoldsSipiEntry (s : State) (a : Nat) (v : SipiEntry) : Prop where
  features : s.physRead8 a = .ok 1
  rip : s.physRead8 (a + 8) = .ok v.rip
  cr3 : s.physRead8 (a + 16) = .ok v.cr3
  cr0 : s.physRead8 (a + 24) = .ok v.cr0
  cr4 : s.physRead8 (a + 32) = .ok v.cr4

/-- The values that a SIPI accepts. -/
def sipiLegal (s : State) (v : SipiEntry) : Prop :=
  v.cr0 &&& ~~~(0x40050008 : Word) ||| 0x10 = 0x80000033 ∧ v.cr4 &&& 0x22 = 0x20 ∧ s.cr4Reserved v.cr4 = false ∧
    (bit v.cr4 23 = true → bit v.cr0 16 = true) ∧ (bit v.cr4 17 = true → v.cr3 &&& 0xFFF = 0) ∧ v.cr3.toNat < 2 ^ s.cfg.maxPA ∧
    isCanonical (bit v.cr4 12) v.rip = true

/-- The check of the values, as the model makes it. -/
def sipiOk (s : State) (v : SipiEntry) : Bool :=
  s.sipiCr4Ok v.cr4 v.cr0 v.cr3 && sipiCr0Ok v.cr0 && !s.cr3Reserved v.cr3 && isCanonical (bit v.cr4 12) v.rip

theorem sipiOk_iff (s : State) (v : SipiEntry) : s.sipiOk v = true ↔ s.sipiLegal v := by
  have hcet : (bit v.cr4 23 && !bit v.cr0 16) = false ↔ (bit v.cr4 23 = true → bit v.cr0 16 = true) := by
    cases bit v.cr4 23 <;> simp
  have hpcid : (bit v.cr4 17 && v.cr3 &&& 0xFFF != 0) = false ↔ (bit v.cr4 17 = true → v.cr3 &&& 0xFFF = 0) := by
    cases bit v.cr4 17 <;> simp
  simp only [sipiOk, State.sipiCr4Ok, sipiLegal, Bool.and_eq_true, Bool.not_eq_true', hcet, hpcid, sipiCr0Ok_iff, cr4FixedOk_iff,
    cr3Reserved_eq_false_iff]
  tauto

/-- The processor that starts from the entry structure. -/
def sipiStarted (s : State) (vector : BitVec 8) (v : SipiEntry) : State :=
  { s with
    activity := .running, nmiBlocked := true, cr0 := v.cr0 ||| 0x10, cr3 := v.cr3, cr4 := v.cr4, rip := v.rip, nextRip := v.rip
    gpr := s.gpr.set .r10 (vector.setWidth 64) }

variable (henabled : bit s.plat.sipiPtr 0 = true) (hpublic : tdxPrivate s.cfg s.sipiStruct = false)
include henabled hpublic

theorem sipiEvent_features (vector : BitVec 8) {features : Word} (h : s.physRead8 s.sipiStruct = .ok features) (hne : features ≠ 1) :
    s.sipiEvent vector = .ok (s.setActivity (.shutdown .nonTripleFault)) := by
  rw [State.sipiEvent, henabled, hpublic, if_neg (by decide), if_neg (by decide), Res.bind_of_ok h]
  exact if_pos hne

theorem sipiEvent_eq (vector : BitVec 8) {v : SipiEntry} (h : s.HoldsSipiEntry s.sipiStruct v) :
    (s.sipiLegal v → s.sipiEvent vector = .ok (s.sipiStarted vector v)) ∧
    (¬s.sipiLegal v → s.sipiEvent vector = .ok (s.setActivity (.shutdown .unbreakable))) := by
  have hread : s.sipiEvent vector = if s.sipiOk v then .ok { s.sipiStarted vector v with cr0 := cr0Of v.cr0 }
      else .ok (s.setActivity (.shutdown .unbreakable)) := by
    rw [State.sipiEvent, henabled, hpublic, if_neg (by decide), if_neg (by decide), Res.bind_of_ok h.features]
    refine (if_neg (by simp)).trans ?_
    rw [Res.bind_of_ok h.cr4, Res.bind_of_ok h.rip, Res.bind_of_ok h.cr0, Res.bind_of_ok h.cr3]
    rfl
  rw [hread, ← sipiOk_iff]
  refine ⟨fun hok => ?_, fun hbad => if_neg hbad⟩
  rw [if_pos hok, cr0Of_of_sipiCr0Ok ((sipiOk_iff s v).1 hok).1]
  rfl

end State

/-- Settles O34: a processor that waits for SIPI does what `State.sipiEvent` says. -/
theorem sipiStarts : Obligations.SipiStarts := by
  intro s t v features cr0 cr3 cr4 rip a hdue ha ht
  have hwait : t.activity = s.activity := by rw [ht]
  have hstep : step s = if t.activity = .waitForSipi then finish t (t.sipiEvent v) else .next t := by rw [step, hdue, ht]; rfl
  refine ⟨fun hne => ?_, fun hw hoff => ?_, fun hw hon => ?_⟩
  · rw [hstep, hwait, if_neg hne]
  · rw [hstep, hwait, if_pos hw, ht]
    exact finish_of_ok (if_pos hoff)
  have hstep : step s = finish t (t.sipiEvent v) := by rw [hstep, hwait, if_pos hw]
  have hat : t.sipiStruct = a := by rw [ha, ht]; rfl
  have hon : bit t.plat.sipiPtr 0 = true := by rw [ht]; exact hon
  refine ⟨fun hpriv => ?_, fun hpub hfeatures => ⟨fun hne => ?_, fun hone hrip hcr3 hcr0 hcr4 => ?_⟩⟩
  · rw [hstep]
    refine (finish_of_ok ((if_neg (by rw [hon]; decide)).trans (if_pos ?_))).trans (by rw [ht]; rfl)
    rw [hat, ht]
    exact hpriv
  all_goals
    have hpub : tdxPrivate t.cfg t.sipiStruct = false := by rw [hat, ht]; exact hpub
  · rw [hstep, finish_of_ok (State.sipiEvent_features hon hpub v (features := features) (by rw [hat, ht]; exact hfeatures) hne), ht]
    rfl
  · subst hone
    have hentry : t.HoldsSipiEntry t.sipiStruct ⟨cr0, cr3, cr4, rip⟩ := by
      rw [hat, ht]
      exact ⟨hfeatures, hrip, hcr3, hcr0, hcr4⟩
    obtain ⟨hstarts, hstops⟩ := State.sipiEvent_eq hon hpub v hentry
    rw [hstep]
    rw [ht] at hstarts hstops ⊢
    exact ⟨fun hlegal => finish_of_ok (hstarts hlegal), fun hbad => finish_of_ok (hstops hbad)⟩

end Sys2Proof.Machine

/-! # A step runs what the bytes at RIP decode to (O3) -/

namespace Sys2Proof.Machine

namespace State
variable {s t : State} {i : Instr} {n : Nat}

theorem fetchInstr_of_ok (h : decode s.cs.l s.fetch.1 = .ok (i, n)) : s.fetchInstr = .ok (.instr i n) := by
  rw [State.fetchInstr, State.mode64, h]

theorem fetchInstr_of_invalid (h : decode s.cs.l s.fetch.1 = .error .invalid) : s.fetchInstr = raiseUd := by
  rw [State.fetchInstr, State.mode64, h]

theorem fetchInstr_of_lockMisuse (h : decode s.cs.l s.fetch.1 = .error .lockMisuse) : s.fetchInstr = raiseGp0 := by
  rw [State.fetchInstr, State.mode64, h]

theorem step_of_running (hdue : s.due = none) (hrun : s.activity = .running) : step s = runNext s := by
  rw [step_of_not_due hdue, if_pos hrun]

/-- Bytes that are no instruction raise their exception with the saved RIP of the bytes (R421). -/
theorem runNext_of_raise {x : Exc} (h : s.fetchInstr = raise x) : runNext s = (s.beginBytes 0).takeException x := by
  rw [runNext, h]
  rfl

theorem runNext_of_decode (h : decode s.cs.l s.fetch.1 = .ok (i, n)) :
    runNext s = endInstr (s.beginInstr i n) (keepsRf i) (refetches i)
      ((s.beginInstr i n).goesOn ((s.beginInstr i n).branches i) (exec i)) (exec i (s.beginInstr i n)) := by
  rw [runNext, fetchInstr_of_ok h]

theorem beginBytes_zero (s : State) :
    s.beginBytes 0 = { s with nextRip := s.rip, draws := s.draws + 1, movSsBlocked := false, stiBlocked := false,
                              dbPending := s.dbPending || bit s.rflags 8 } := by
  rw [State.beginBytes, show s.rip + BitVec.ofNat 64 0 = s.rip from BitVec.add_zero s.rip]
  rfl

/-! ## Before the instruction -/

theorem interrupts_iff (s : State) (i : Instr) :
    s.interrupts i = true ↔ (∃ v, i = .intImm8 v) ∨ i = .int3 ∨ i = .int1 ∨ i = .into ∧ bit s.rflags 11 = true := by
  cases i <;> simp [State.interrupts, State.of]

/-- The accesses of an instruction do not depend on a pending trap. -/
theorem touches_setDbPending (s : State) (d : Bool) (i : Instr) : (s.setDbPending d).touches i = s.touches i := rfl

/-- No single step follows a software interrupt that is taken. -/
theorem beginInstr_dbPending (s : State) (i : Instr) (n : Nat) :
    (s.beginInstr i n).dbPending = (s.dbPending || bit s.rflags 8 && !s.interrupts i) := by
  show (if s.interrupts i then s.dbPending else s.dbPending || s.tf) = _
  cases s.interrupts i <;> simp [State.tf]

theorem beginInstr_eq (s : State) (i : Instr) (n : Nat) :
    let b := (s.beginBytes n).setDbPending (s.dbPending || bit s.rflags 8 && !s.interrupts i)
    s.beginInstr i n = { b with bpHits := s.bpHits ||| b.bpWatch (b.touches i) } := by
  dsimp only
  rw [← beginInstr_dbPending s i n, touches_setDbPending]
  rfl

/-- Breakpoint `k` is off where the enable bits of all four are 0. -/
theorem bpEnabled_eq_false (h : s.dbg.dr7 &&& 0xFF = 0) {k : Nat} (hk : k < 4) : s.bpEnabled k = false := by
  have hoff : (s.dbg.dr7 >>> (2 * k)) &&& 3 = 0 := by
    have hmask : (0xFF : Word) >>> (2 * k) &&& 3 = 3 := by interval_cases k <;> decide
    calc (s.dbg.dr7 >>> (2 * k)) &&& 3
        = ((s.dbg.dr7 &&& 0xFF) >>> (2 * k)) &&& 3 := by rw [BitVec.ushiftRight_and_distrib, BitVec.and_assoc, hmask]
      _ = 0 := by rw [h]; simp
  rw [State.bpEnabled, hoff]
  rfl

theorem bpWatch_of_disabled (h : s.dbg.dr7 &&& 0xFF = 0) (ts : List Touch) : s.bpWatch ts = 0 := by
  have hoff : ∀ k < 4, ts.any (fun t => s.bpSees t k) = false := fun k hk => by
    simp [State.bpSees, bpEnabled_eq_false h hk]
  rw [State.bpWatch, fourBits, hoff 0 (by decide), hoff 1 (by decide), hoff 2 (by decide), hoff 3 (by decide)]
  rfl

/-! ## After the instruction -/

/-- An instruction that transfers, or that goes on within the 64-bit address space, is not past its end (R24). -/
theorem wrapped_eq_false {b t : State} (h : t.rip ≠ b.nextRip ∨ t.cs.l = true ∧ b.rip.toNat ≤ b.nextRip.toNat) (goesOn : Bool) :
    State.wrapped b t goesOn = false := by
  rcases h with hmoved | ⟨hl, hle⟩
  · simp [State.wrapped, hmoved]
  · simp [State.wrapped, State.compat, hl, Nat.not_lt.2 hle]

theorem retire_eq (b t : State) (keepRf refetch : Bool) :
    b.retire t keepRf refetch = { t with
      rflags := if keepRf then t.rflags else t.rflags &&& ~~~(0x10000 : Word)
      stored := if refetch = true ∨ t.rip ≠ b.nextRip then [] else t.stored } := by
  have hrf : (if keepRf then t else t.setRflags (setBit t.rflags 16 false)) =
      { t with rflags := if keepRf then t.rflags else t.rflags &&& ~~~(0x10000 : Word) } := by
    cases keepRf <;> rfl
  simp only [State.retire, hrf, Bool.or_eq_true, bne_iff_ne]
  split <;> rfl

theorem step_of_decode (hdue : s.due = none) (hrun : s.activity = .running) (h : decode s.cs.l s.fetch.1 = .ok (i, n)) :
    step s = endInstr (s.beginInstr i n) (keepsRf i) (refetches i)
      ((s.beginInstr i n).goesOn ((s.beginInstr i n).branches i) (exec i)) (exec i (s.beginInstr i n)) := by
  rw [step_of_running hdue hrun, runNext_of_decode h]

end State

/-- Settles O3. -/
theorem stepRunsDecoded : Obligations.StepRunsDecoded := by
  refine ⟨fun s b hdue hrun hb => ?_, ?_⟩
  · have hbegin : s.beginBytes 0 = b := (State.beginBytes_zero s).trans hb.symm
    have hstep {x : Exc} (h : s.fetchInstr = raise x) : step s = b.takeException x := by
      rw [State.step_of_running hdue hrun, State.runNext_of_raise h, hbegin]
    exact ⟨fun h => hstep (State.fetchInstr_of_lockMisuse h), fun h => hstep (State.fetchInstr_of_invalid h)⟩
  · intro s i n hdue hrun _ hdec b c
    have hbegin : s.beginInstr i n = c := State.beginInstr_eq s i n
    have hstep := State.step_of_decode hdue hrun hdec
    rw [hbegin] at hstep
    refine ⟨State.interrupts_iff s i, hbegin, fun hoff => ?_, fun t ht => ?_, fun t h g => State.wrapped_eq_false h g,
      fun f hf => ?_, fun f hf => ?_⟩
    · show s.bpHits ||| b.bpWatch (b.touches i) = s.bpHits
      rw [State.bpWatch_of_disabled (s := b) hoff, show s.bpHits ||| 0 = s.bpHits from BitVec.or_zero]
    · rw [hstep, ht, ← State.retire_eq]
      rfl
    · rw [hstep, hf]
      rfl
    · rw [hstep, hf]
      rfl

end Sys2Proof.Machine
